-- ==== Sys2Proof/Word.lean ====
section
/-! DEFINITION. The word and byte types of the Veilo 2 module (R7, R11) and their plainest arithmetic. -/
namespace Sys2Proof

/-- A 32-bit word: register contents, core addresses, CSR words (R7, R33). -/
abbrev Word := BitVec 32

/-- A byte of memory (R11). -/
abbrev Byte := BitVec 8

end Sys2Proof
end

