-- ==== Sys2Proof/Syntax.lean ====
section
/-! DEFINITION. The commands of the block: one constructor per row of the opcode table, with the row's operands.
The operand types stand first. A command of a core names the thread that issues it; an event names the object it
happens to and carries the data that comes from outside the module (samples, frames, host memory). -/
namespace Sys2Proof

/-- A scalar core: logical core `n` of the clusters (R12), or control core `SOk` (R484). -/
inductive Cpu where
  | core (n : Nat)
  | so (k : Fin 4)
deriving DecidableEq, Repr

/-- The second operand of majors 0x02 and 0x03 (R53): a memory operand of size `sz` with specifier `m`, or imm24. -/
inductive AluSrc where
  | mem (sz : BitVec 2) (m : BitVec 22)
  | imm (i : BitVec 24)
deriving DecidableEq, Repr

/-- What raises an EXCEPTION_ENTRY (R102): an instruction word that decodes to no instruction (R10, R48, R49),
the fetch of the word at PC (R41, R63, R106), or a fault that an engine or instruction reports with its words. -/
inductive FaultSrc where
  | illegalWord (w : Word)
  | fetch
  | reported (code : BitVec 8) (faddr info : Word)
deriving DecidableEq, Repr

/-- Who performs a CSR store: a thread of the core, or the cluster window of the Sorting Office (R492). -/
inductive Requester where
  | thread (t : Fin 4)
  | window
deriving DecidableEq, Repr

/-- The 64 bytes of a written unit with a poison bit per 4-byte word (R376, R381). -/
structure UnitData where
  data : BitVec 512
  poison : BitVec 16
deriving DecidableEq, Repr

/-- The outcome of the link check of an LPDDR5X transfer (R383). -/
inductive LinkCheck where
  | ok | corrected | retryOk | retryFail
deriving DecidableEq, Repr

/-- What the JTAG port does with the core at a site (R136): it selects it, ends that, or reads or writes the word `reg` of its
DEBUG page. -/
inductive JtagAct where
  | select
  | deselect
  | read (reg : BitVec 10)
  | write (reg : BitVec 10) (v : BitVec 32)
deriving DecidableEq, Repr

/-- What a port observes in the training phase that ends (R403): the lanes whose clock recovery has locked, whether the
phase's work is done (in EQUALISE that of this side), lane reversal and polarity, whether the references are locked (R416), whether
every lane met the symbol error ratio of R404, and the coefficient request that each lane's receiver makes next. -/
structure TrainObs where
  lanes : BitVec 8
  phaseDone : Bool
  rev : Bool
  pol : BitVec 8
  refLocked : Bool
  serOk : Bool
  coef : List (BitVec 8)
deriving DecidableEq, Repr

/-- What a port receives: a flit of a unit that needed no correction, or a whole unit as its eight lanes bring it, each lane's
PAM4 levels in order (R397, R399 to R402). -/
inductive Rx where
  | flit (f : BitVec 640)
  | lanes (levels : List (List (BitVec 2)))
deriving DecidableEq, Repr

/-- A unit of the fabric (R418, R425): its header fields and its 64 data bytes. -/
structure FUnit where
  op : BitVec 8
  vc : BitVec 3
  src : BitVec 16
  dst : BitVec 16
  eseq : BitVec 16
  space : BitVec 4
  unit : BitVec 38
  pzn : Bool
  data : BitVec 512
deriving DecidableEq, Repr

/-- Where a post that arrives comes from: entry `i` of the message plane's units in transit, or a POST unit of the
fabric. -/
inductive Arrival where
  | transit (i : Nat)
  | fabric (u : FUnit)
deriving DecidableEq, Repr

/-- The bytes that a command's source in host or global memory holds, or the offset at which its read failed
(R499 HOST_READ_ERROR). -/
inductive HostData where
  | bytes (l : List Byte)
  | failed (off : Nat)
deriving DecidableEq, Repr

/-- The outcome of a self-test or calibration (R511, R568): pass or fail, its detail word, and the sites newly found
faulty, each with whether it is its router that fails. -/
structure TestOutcome where
  pass : Bool
  detail : Word
  faulty : List (Nat × Bool)
deriving DecidableEq, Repr

/-- One copy of a frame of the report link (R552): the account, its counter (0 ACCEPTED, 1 INDEXED, 2 RECORDS), the
increment, the sequence number, and whether its CRC is intact. -/
structure ReportFrame where
  account : BitVec 10
  counter : Fin 3
  inc : BitVec 64
  seq : BitVec 16
  intact : Bool
deriving DecidableEq, Repr

/-- A register addressed by a plain register write (R4): a core CSR by offset from 0x0010_0000, a device CSR by
offset in space 0x6, a register of a control core's SO page, or a word of BAR0 written by the host. -/
inductive RegAddr where
  | core (cpu : Nat) (off : BitVec 16)
  | dev (off : Word)
  | so (k : Fin 4) (off : BitVec 12)
  | bar0 (off : BitVec 18)
deriving DecidableEq, Repr

/-- The commands: one constructor per row of the opcode table, in the table's order; each docstring names the
row's mnemonic and its rule. -/
inductive Instr where
  | ld (cpu : Cpu) (t : Fin 4) (sz : BitVec 2) (m : BitVec 22) -- LD (R50)
  | ldu (cpu : Cpu) (t : Fin 4) (sz : BitVec 2) (m : BitVec 22) -- LDU (R50)
  | ldx (cpu : Cpu) (t : Fin 4) (sz : BitVec 2) (m : BitVec 22) -- LDX (R50)
  | ldy (cpu : Cpu) (t : Fin 4) (sz : BitVec 2) (m : BitVec 22) -- LDY (R50)
  | leax (cpu : Cpu) (t : Fin 4) (sz : BitVec 2) (m : BitVec 22) -- LEAX (R50)
  | leay (cpu : Cpu) (t : Fin 4) (sz : BitVec 2) (m : BitVec 22) -- LEAY (R50)
  | st (cpu : Cpu) (t : Fin 4) (sz : BitVec 2) (m : BitVec 22) -- ST (R51)
  | stx (cpu : Cpu) (t : Fin 4) (sz : BitVec 2) (m : BitVec 22) -- STX (R51)
  | sty (cpu : Cpu) (t : Fin 4) (sz : BitVec 2) (m : BitVec 22) -- STY (R51)
  | stz (cpu : Cpu) (t : Fin 4) (sz : BitVec 2) (m : BitVec 22) -- STZ (R51)
  | xch (cpu : Cpu) (t : Fin 4) (sz : BitVec 2) (m : BitVec 22) -- XCH (R52)
  | add (cpu : Cpu) (t : Fin 4) (src : AluSrc) -- ADD (R53)
  | adc (cpu : Cpu) (t : Fin 4) (src : AluSrc) -- ADC (R53)
  | sub (cpu : Cpu) (t : Fin 4) (src : AluSrc) -- SUB (R53)
  | sbc (cpu : Cpu) (t : Fin 4) (src : AluSrc) -- SBC (R53)
  | and (cpu : Cpu) (t : Fin 4) (src : AluSrc) -- AND (R53)
  | or (cpu : Cpu) (t : Fin 4) (src : AluSrc) -- OR (R53)
  | xor (cpu : Cpu) (t : Fin 4) (src : AluSrc) -- XOR (R53)
  | cmp (cpu : Cpu) (t : Fin 4) (src : AluSrc) -- CMP (R53)
  | ldi (cpu : Cpu) (t : Fin 4) (imm : BitVec 24) -- LDI (R54)
  | ldih (cpu : Cpu) (t : Fin 4) (imm : BitVec 16) -- LDIH (R54)
  | lix (cpu : Cpu) (t : Fin 4) (imm : BitVec 24) -- LIX (R54)
  | liy (cpu : Cpu) (t : Fin 4) (imm : BitVec 24) -- LIY (R54)
  | addx (cpu : Cpu) (t : Fin 4) (imm : BitVec 24) -- ADDX (R54)
  | addy (cpu : Cpu) (t : Fin 4) (imm : BitVec 24) -- ADDY (R54)
  | cmpx (cpu : Cpu) (t : Fin 4) (imm : BitVec 24) -- CMPX (R54)
  | cmpy (cpu : Cpu) (t : Fin 4) (imm : BitVec 24) -- CMPY (R54)
  | nop (cpu : Cpu) (t : Fin 4) -- NOP (R55)
  | shl (cpu : Cpu) (t : Fin 4) (n : BitVec 5) -- SHL (R55)
  | shr (cpu : Cpu) (t : Fin 4) (n : BitVec 5) -- SHR (R55)
  | sar (cpu : Cpu) (t : Fin 4) (n : BitVec 5) -- SAR (R55)
  | rol (cpu : Cpu) (t : Fin 4) (n : BitVec 5) -- ROL (R55)
  | neg (cpu : Cpu) (t : Fin 4) -- NEG (R55)
  | not (cpu : Cpu) (t : Fin 4) -- NOT (R55)
  | abs (cpu : Cpu) (t : Fin 4) -- ABS (R55)
  | sexb (cpu : Cpu) (t : Fin 4) -- SEXB (R55)
  | sexh (cpu : Cpu) (t : Fin 4) -- SEXH (R55)
  | zexb (cpu : Cpu) (t : Fin 4) -- ZEXB (R55)
  | zexh (cpu : Cpu) (t : Fin 4) -- ZEXH (R55)
  | clz (cpu : Cpu) (t : Fin 4) -- CLZ (R55)
  | popc (cpu : Cpu) (t : Fin 4) -- POPC (R55)
  | tax (cpu : Cpu) (t : Fin 4) -- TAX (R55)
  | tay (cpu : Cpu) (t : Fin 4) -- TAY (R55)
  | txa (cpu : Cpu) (t : Fin 4) -- TXA (R55)
  | tya (cpu : Cpu) (t : Fin 4) -- TYA (R55)
  | swxy (cpu : Cpu) (t : Fin 4) -- SWXY (R55)
  | gfl (cpu : Cpu) (t : Fin 4) -- GFL (R55)
  | sfl (cpu : Cpu) (t : Fin 4) -- SFL (R55)
  | macclr (cpu : Cpu) (t : Fin 4) -- MACCLR (R55)
  | rdg (cpu : Cpu) (t : Fin 4) -- RDG (R55)
  | macsh (cpu : Cpu) (t : Fin 4) (n : BitVec 5) -- MACSH (R55)
  | macd (cpu : Cpu) (t : Fin 4) (sz : BitVec 2) (px py ux uy : Bool) (dx dy : BitVec 8) -- MACD (R57)
  | msbd (cpu : Cpu) (t : Fin 4) (sz : BitVec 2) (px py ux uy : Bool) (dx dy : BitVec 8) -- MSBD (R57)
  | muld (cpu : Cpu) (t : Fin 4) (sz : BitVec 2) (px py ux uy : Bool) (dx dy : BitVec 8) -- MULD (R57)
  | mul (cpu : Cpu) (t : Fin 4) (sz : BitVec 2) (m : BitVec 22) -- MUL (R59)
  | mulh (cpu : Cpu) (t : Fin 4) (sz : BitVec 2) (m : BitVec 22) -- MULH (R59)
  | mulhu (cpu : Cpu) (t : Fin 4) (sz : BitVec 2) (m : BitVec 22) -- MULHU (R59)
  | div (cpu : Cpu) (t : Fin 4) (sz : BitVec 2) (m : BitVec 22) -- DIV (R60)
  | divu (cpu : Cpu) (t : Fin 4) (sz : BitVec 2) (m : BitVec 22) -- DIVU (R60)
  | rem (cpu : Cpu) (t : Fin 4) (sz : BitVec 2) (m : BitVec 22) -- REM (R60)
  | remu (cpu : Cpu) (t : Fin 4) (sz : BitVec 2) (m : BitVec 22) -- REMU (R60)
  | branch (cpu : Cpu) (t : Fin 4) (cond : BitVec 4) (off : BitVec 23) -- BRANCH (R61)
  | jmp (cpu : Cpu) (t : Fin 4) (imm : BitVec 24) -- JMP (R62)
  | call (cpu : Cpu) (t : Fin 4) (imm : BitVec 24) -- CALL (R62)
  | jx (cpu : Cpu) (t : Fin 4) -- JX (R62)
  | callx (cpu : Cpu) (t : Fin 4) -- CALLX (R62)
  | ret (cpu : Cpu) (t : Fin 4) -- RET (R62)
  | rspop (cpu : Cpu) (t : Fin 4) -- RSPOP (R62)
  | rspush (cpu : Cpu) (t : Fin 4) -- RSPUSH (R62)
  | sramLoadReturn (cpu : Cpu) (t : Fin 4) -- SRAM_LOAD_RETURN (R68)
  | sramStoreAck (cpu : Cpu) (t : Fin 4) (i : Nat) -- SRAM_STORE_ACK (R363)
  | kcopy (cpu : Cpu) (t : Fin 4) (cd cs : BitVec 3) -- KCOPY (R90)
  | kread (cpu : Cpu) (t : Fin 4) (cs sel : BitVec 3) -- KREAD (R90)
  | kaim (cpu : Cpu) (t : Fin 4) (cd cs : BitVec 3) -- KAIM (R90)
  | knarrow (cpu : Cpu) (t : Fin 4) (cd cs : BitVec 3) -- KNARROW (R90)
  | kmask (cpu : Cpu) (t : Fin 4) (cd cs : BitVec 3) -- KMASK (R90)
  | kvoid (cpu : Cpu) (t : Fin 4) (cd : BitVec 3) -- KVOID (R90)
  | khere (cpu : Cpu) (t : Fin 4) (cd : BitVec 3) -- KHERE (R90)
  | kwrap (cpu : Cpu) (t : Fin 4) (cd cs ca : BitVec 3) -- KWRAP (R91)
  | kunwrap (cpu : Cpu) (t : Fin 4) (cd cs ca : BitVec 3) -- KUNWRAP (R91)
  | setg (cpu : Cpu) (t : Fin 4) (n cs ca : BitVec 3) -- SETG (R95)
  | ldk (cpu : Cpu) (t : Fin 4) (cr cb : BitVec 3) (d : BitVec 12) -- LDK (R92)
  | stk (cpu : Cpu) (t : Fin 4) (cr cb : BitVec 3) (d : BitVec 12) -- STK (R92)
  | xld (cpu : Cpu) (t : Fin 4) (sz : BitVec 2) (cb : BitVec 3) (d : BitVec 12) -- XLD (R92)
  | xldu (cpu : Cpu) (t : Fin 4) (sz : BitVec 2) (cb : BitVec 3) (d : BitVec 12) -- XLDU (R92)
  | xst (cpu : Cpu) (t : Fin 4) (sz : BitVec 2) (cb : BitVec 3) (d : BitVec 12) -- XST (R92)
  | gate (cpu : Cpu) (t : Fin 4) (n : BitVec 3) -- GATE (R96)
  | rgate (cpu : Cpu) (t : Fin 4) -- RGATE (R96)
  | closureClose (cpu : Cpu) (t : Fin 4) (n : BitVec 11) -- CLOSE (R98)
  | closureOpen (cpu : Cpu) (t : Fin 4) -- OPEN (R98)
  | closureEnd (cpu : Cpu) (t : Fin 4) -- CLOSURE_END (R100)
  | fence (cpu : Cpu) (t : Fin 4) (scope : BitVec 3) -- FENCE (R362)
  | exceptionEntry (cpu : Cpu) (t : Fin 4) (src : FaultSrc) -- EXCEPTION_ENTRY (R102)
  | eret (cpu : Cpu) (t : Fin 4) -- ERET (R105)
  | escalation (cpu : Cpu) (t : Fin 4) (code orig : BitVec 8) (faddr info : BitVec 32) -- ESCALATION (R107)
  | escret (cpu : Cpu) (t : Fin 4) -- ESCRET (R108)
  | wfe (cpu : Cpu) (t : Fin 4) -- WFE (R124)
  | sev (cpu : Cpu) (t : Fin 4) (mask : BitVec 4) -- SEV (R122)
  | clrev (cpu : Cpu) (t : Fin 4) -- CLREV (R122)
  | cycWake (cpu : Cpu) -- CYC_WAKE (R127)
  | threadStart (cpu : Cpu) (t : Fin 4) -- THREAD_START (R114)
  | threadResume (cpu : Cpu) (t : Fin 4) -- THREAD_RESUME (R115)
  | slotTableUpdate (cpu : Cpu) -- SLOT_TABLE_UPDATE (R120)
  | notifyDelivery (cpu : Cpu) -- NOTIFY_DELIVERY (R129)
  | orphanWait (cpu : Cpu) -- ORPHAN_WAIT (R134)
  | dbgStop (cpu : Cpu) (t : Fin 4) -- DBG_STOP (R138)
  | debugStopTaken (cpu : Cpu) (t : Fin 4) -- DEBUG_STOP_TAKEN (R138)
  | dbgStep (cpu : Cpu) (t : Fin 4) -- DBG_STEP (R140)
  | dbgResume (cpu : Cpu) (t : Fin 4) -- DBG_RESUME (R145)
  | dbgEvent (cpu : Cpu) (t : Fin 4) -- DBG_EVENT (R126)
  | dbgStopAll (cpu : Cpu) -- DBG_STOP_ALL (R145)
  | dbgResumeAll (cpu : Cpu) -- DBG_RESUME_ALL (R145)
  | dbgDataAccess (cpu : Cpu) (write : Option (BitVec 32)) -- DBG_DATA_ACCESS (R141)
  | dbgFlagWrite (core : Nat) (index : BitVec 6) (value : BitVec 8) -- DBG_FLAG_WRITE (R143)
  | dbgBarrierArrive (core : Nat) (net : BitVec 4) -- DBG_BARRIER_ARRIVE (R144)
  | dbgBarrierWithdraw (core : Nat) (net : BitVec 4) -- DBG_BARRIER_WITHDRAW (R144)
  | numericCtlWrite (core : Nat) (who : Requester) (v : BitVec 32) -- NUMERIC_CTL_WRITE (R180)
  | numSeedLoWrite (core : Nat) (v : BitVec 32) -- NUM_SEED_LO_WRITE (R182)
  | numSeedHiWrite (core : Nat) (who : Requester) (v : BitVec 32) -- NUM_SEED_HI_WRITE (R182)
  | numericSettingsApply (core : Nat) -- NUMERIC_SETTINGS_APPLY (R180)
  | vadd (core : Nat) (t : Fin 4) (vd va vb fa fb fd : BitVec 4) -- VADD (R189)
  | vsub (core : Nat) (t : Fin 4) (vd va vb fa fb fd : BitVec 4) -- VSUB (R189)
  | vmul (core : Nat) (t : Fin 4) (vd va vb fa fb fd : BitVec 4) -- VMUL (R189)
  | vmac (core : Nat) (t : Fin 4) (vd va vb fa fb fd : BitVec 4) -- VMAC (R189)
  | vmin (core : Nat) (t : Fin 4) (vd va vb fa fb fd : BitVec 4) -- VMIN (R189)
  | vmax (core : Nat) (t : Fin 4) (vd va vb fa fb fd : BitVec 4) -- VMAX (R189)
  | vdiv (core : Nat) (t : Fin 4) (vd va vb fa fb fd : BitVec 4) -- VDIV (R191)
  | vlsum (core : Nat) (t : Fin 4) (vd va fa fd : BitVec 4) -- VLSUM (R175)
  | vcmp (core : Nat) (t : Fin 4) (vd va vb fa fb cc : BitVec 4) -- VCMP (R193)
  | vand (core : Nat) (t : Fin 4) (vd va vb : BitVec 4) -- VAND (R192)
  | vor (core : Nat) (t : Fin 4) (vd va vb : BitVec 4) -- VOR (R192)
  | vxor (core : Nat) (t : Fin 4) (vd va vb : BitVec 4) -- VXOR (R192)
  | vsel (core : Nat) (t : Fin 4) (vd va vb fd : BitVec 4) -- VSEL (R192)
  | vpopc (core : Nat) (t : Fin 4) (vd va fd : BitVec 4) -- VPOPC (R192)
  | vrsum (core : Nat) (t : Fin 4) (vd va fa fd : BitVec 4) -- VRSUM (R194)
  | vrmax (core : Nat) (t : Fin 4) (vd va fa fd : BitVec 4) -- VRMAX (R194)
  | vrmin (core : Nat) (t : Fin 4) (vd va fa fd : BitVec 4) -- VRMIN (R194)
  | vrdot (core : Nat) (t : Fin 4) (vd va vb fa fb fd : BitVec 4) -- VRDOT (R194)
  | vperm (core : Nat) (t : Fin 4) (vd va vb fa : BitVec 4) -- VPERM (R195)
  | vsplat (core : Nat) (t : Fin 4) (vd fd : BitVec 4) -- VSPLAT (R194)
  | vget (core : Nat) (t : Fin 4) (va fa : BitVec 4) -- VGET (R194)
  | vcvt (core : Nat) (t : Fin 4) (vd va fa part fd : BitVec 4) -- VCVT (R196)
  | vld (core : Nat) (t : Fin 4) (vd : BitVec 4) (h : BitVec 6) (x : Bool) (off : BitVec 13) -- VLD (R197)
  | vst (core : Nat) (t : Fin 4) (vd : BitVec 4) (h : BitVec 6) (x : Bool) (off : BitVec 13) -- VST (R197)
  | vscaleWrite (core : Nat) (who : Requester) (reg : BitVec 5) (v : BitVec 32) -- VSCALE_WRITE (R202)
  | vectorRetire (core : Nat) -- VECTOR_RETIRE (R168)
  | mma (core : Nat) (t : Fin 4) (a : BitVec 2) (x y : BitVec 3) -- MMA (R220)
  | tzero (core : Nat) (t : Fin 4) (a : BitVec 2) (int : Bool) -- TZERO (R223)
  | taccTile (core : Nat) (t : Fin 4) (d : BitVec 3) (a : BitVec 2) (half : Bool) (dp : BitVec 4) -- TACC_TILE (R224)
  | taccMem (core : Nat) (t : Fin 4) (a : BitVec 2) (h : BitVec 6) (x : Bool) (off : BitVec 9) (fs : BitVec 4) (tr : Bool) -- TACC_MEM (R225)
  | tupd (core : Nat) (t : Fin 4) (d : BitVec 3) (a : BitVec 2) (half : Bool) (dp : BitVec 4) (eb : BitVec 8) -- TUPD (R233)
  | tlsum (core : Nat) (t : Fin 4) (d : BitVec 3) (a : BitVec 2) (half : Bool) (dp : BitVec 4) (eb : BitVec 8) -- TLSUM (R233)
  | tld (core : Nat) (t : Fin 4) (tt : BitVec 3) (h : BitVec 6) (x : Bool) (off : BitVec 9) (fs : BitVec 4) (tr : Bool) -- TLD (R228)
  | tst (core : Nat) (t : Fin 4) (tt : BitVec 3) (h : BitVec 6) (x : Bool) (off : BitVec 9) (fs : BitVec 4) (tr : Bool) -- TST (R229)
  | tlds (core : Nat) (t : Fin 4) (tt : BitVec 3) (h : BitVec 6) (x : Bool) (off : BitVec 9) -- TLDS (R230)
  | tsts (core : Nat) (t : Fin 4) (tt : BitVec 3) (h : BitVec 6) (x : Bool) (off : BitVec 9) -- TSTS (R230)
  | tfence (core : Nat) (t : Fin 4) -- TFENCE (R219)
  | tileCfgWrite (core : Nat) (who : Requester) (reg : BitVec 4) (v : BitVec 32) -- TILE_CFG_WRITE (R211)
  | tileRetire (core : Nat) (matrix : Bool) -- TILE_RETIRE (R214)
  | hrebind (core : Nat) (who : Requester) (v : BitVec 32) -- HREBIND (R262)
  | handleRebindDone (core : Nat) -- HANDLE_REBIND_DONE (R262)
  | sliceScrub (cluster : Fin 8) (slice : Nat) -- SLICE_SCRUB (R268)
  | rsend (core : Nat) (t : Fin 4) (r : BitVec 6) -- RSEND (R344)
  | reductionRelease (r : BitVec 6) -- REDUCTION_RELEASE (R276)
  | mrouteWrite (r : BitVec 6) (reg : BitVec 2) (v : BitVec 32) -- MROUTE_WRITE (R273)
  | streamStart (core : Nat) (who : Requester) (u : Fin 4) (entry : BitVec 6) -- STREAM_START (R298)
  | streamStop (core : Nat) (u : Fin 4) -- STREAM_STOP (R301)
  | sprogWrite (core : Nat) (u : Fin 4) (i : BitVec 6) (v : BitVec 32) -- SPROG_WRITE (R301)
  | srel (core : Nat) (who : Requester) (u : Fin 4) (count : BitVec 13) -- SREL (R288)
  | streamCycleGrant (core : Nat) -- STREAM_CYCLE_GRANT (R292)
  | streamRunStart (core : Nat) (u : Fin 4) -- STREAM_RUN_START (R295)
  | streamRowArrival (core : Nat) (u : Fin 4) (rows : Nat) -- STREAM_ROW_ARRIVAL (R293)
  | streamWriteAck (core : Nat) (u : Fin 4) -- STREAM_WRITE_ACK (R287)
  | streamIdleTimeout (core : Nat) (u : Fin 4) -- STREAM_IDLE_TIMEOUT (R297)
  | streamFaultDelivery (core : Nat) (u : Fin 4) -- STREAM_FAULT_DELIVERY (R299)
  | cdoor (core : Nat) (who : Requester) (v : BitVec 32) -- CDOOR (R304)
  | cctlGo (cluster : Fin 8) (ch : Fin 16) (v : BitVec 32) -- CCTL_GO (R311)
  | cctlPause (cluster : Fin 8) (ch : Fin 16) (on : Bool) -- CCTL_PAUSE (R310)
  | cctlAbort (cluster : Fin 8) (ch : Fin 16) -- CCTL_ABORT (R310)
  | courierBurstGrant (cluster : Fin 8) (n : Nat) -- COURIER_BURST_GRANT (R308)
  | courierPaused (cluster : Fin 8) (ch : Fin 16) -- COURIER_PAUSED (R310)
  | courierComplete (cluster : Fin 8) (ch : Fin 16) -- COURIER_COMPLETE (R307)
  | fgo (core : Nat) (who : Requester) (k : Fin 4) (v : BitVec 32) -- FGO (R312)
  | farReadData (core : Nat) (i : Nat) -- FAR_READ_DATA (R312)
  | pstw (core : Nat) (t : Fin 4) -- PSTW (R316)
  | pclr (core : Nat) (t : Fin 4) -- PCLR (R316)
  | pget (core : Nat) (t : Fin 4) (i : BitVec 2) -- PGET (R316)
  | pret (core : Nat) (t : Fin 4) -- PRET (R329)
  | post (core : Nat) (t : Fin 4) (e : BitVec 5) -- POST (R321)
  | postq (core : Nat) (t : Fin 4) (e : BitVec 5) -- POSTQ (R321)
  | fsig (core : Nat) (t : Fin 4) (mode : BitVec 2) (er : BitVec 6) (scope : BitVec 3) (f : BitVec 6) -- FSIG (R322)
  | fwait (core : Nat) (t : Fin 4) (scope : BitVec 3) (f : BitVec 6) -- FWAIT (R336)
  | ftry (core : Nat) (t : Fin 4) (scope : BitVec 3) (f : BitVec 6) -- FTRY (R316)
  | fget (core : Nat) (t : Fin 4) (f : BitVec 6) -- FGET (R316)
  | bar (core : Nat) (t : Fin 4) (n : BitVec 4) -- BAR (R340)
  | barv (core : Nat) (t : Fin 4) (n : BitVec 4) -- BARV (R340)
  | bwait (core : Nat) (t : Fin 4) (n : BitVec 4) -- BWAIT (R340)
  | barrierRelease (net : BitVec 4) -- BARRIER_RELEASE (R341)
  | barMembWrite (core : Nat) (v : BitVec 32) -- BAR_MEMB_WRITE (R341)
  | postArrival (src : Arrival) -- POST_ARRIVAL (R326)
  | postDispatch (core : Nat) -- POST_DISPATCH (R328)
  | creditReturn (i : Nat) -- CREDIT_RETURN (R345)
  | flagSignalArrival (i : Nat) -- FLAG_SIGNAL_ARRIVAL (R337)
  | deadLetterReturn (i : Nat) -- DEAD_LETTER_RETURN (R332)
  | postQueueClose (core : Nat) (q : Fin 4) (v : BitVec 32) -- POST_QUEUE_CLOSE (R331)
  | dlqPop (core : Nat) -- DLQ_POP (R333)
  | chtHiWrite (core : Nat) (e : BitVec 5) (v : BitVec 32) -- CHT_HI_WRITE (R318)
  | hbmUnitService (off : Nat) (write : Option UnitData) -- HBM_UNIT_SERVICE (R378)
  | lpUnitService (off : Nat) (write : Option UnitData) (link : LinkCheck) -- LP_UNIT_SERVICE (R378)
  | hbmRefreshSlot (stack : Fin 16) -- HBM_REFRESH_SLOT (R384)
  | lpRefreshSlot (package : Fin 16) -- LP_REFRESH_SLOT (R384)
  | selfRefreshExit (hbm : Bool) (index : Fin 16) -- SELF_REFRESH_EXIT (R380)
  | migrationWindow  -- MIGRATION_WINDOW (R390)
  | trainingStart (port : Fin 16) (fast : Bool) -- TRAINING_START (R403)
  | trainingFrame (port : Fin 16) (frame : List (BitVec 8)) -- TRAINING_FRAME (R403)
  | trainingPhaseEnd (port : Fin 16) (obs : TrainObs) -- TRAINING_PHASE_END (R403)
  | trainingTimeout (port : Fin 16) -- TRAINING_TIMEOUT (R403)
  | latp (port : Fin 16) (stamp : BitVec 32) -- LATP (R415)
  | late (port : Fin 16) (stamp hold : BitVec 32) -- LATE (R415)
  | latr (port : Fin 16) (value : BitVec 16) -- LATR (R415)
  | flitSlot (port : Fin 16) -- FLIT_SLOT (R409)
  | flitReceive (port : Fin 16) (rx : Rx) -- FLIT_RECEIVE (R410)
  | linkCtrl (port : Fin 16) (data : BitVec 512) -- LINK_CTRL (R408)
  | replayNak (port : Fin 16) (seq : BitVec 12) -- REPLAY_NAK (R411)
  | replayTimeout (port : Fin 16) -- REPLAY_TIMEOUT (R411)
  | lossOfSignal (port : Fin 16) (lane : Fin 8) -- LOSS_OF_SIGNAL (R412)
  | blockLockLoss (port : Fin 16) (lane : Fin 8) -- BLOCK_LOCK_LOSS (R402)
  | portQuiesce (port : Fin 16) -- PORT_QUIESCE (R417)
  | portQuiesced (port : Fin 16) -- PORT_QUIESCED (R417)
  | portResume (port : Fin 16) -- PORT_RESUME (R417)
  | read (u : FUnit) -- READ (R436)
  | readResp (u : FUnit) -- READ_RESP (R436)
  | write (u : FUnit) -- WRITE (R436)
  | writeAck (u : FUnit) -- WRITE_ACK (R436)
  | signal (u : FUnit) -- SIGNAL (R424)
  | dead (u : FUnit) -- DEAD (R333)
  | reduce (u : FUnit) -- REDUCE (R442)
  | barrier (u : FUnit) -- BARRIER (R445)
  | seqRestart (src : BitVec 16) (epoch : BitVec 16) -- SEQ_RESTART (R434)
  | seqRestartAck (src : BitVec 16) (epoch : BitVec 16) -- SEQ_RESTART_ACK (R449)
  | csrRead (src : BitVec 16) (tag : BitVec 16) (off : BitVec 32) -- CSR_READ (R449)
  | csrWrite (src : BitVec 16) (tag : BitVec 16) (off v : BitVec 32) -- CSR_WRITE (R449)
  | csrResp (src : BitVec 16) (tag : BitVec 16) (status : BitVec 8) (v : BitVec 32) -- CSR_RESP (R449)
  | injectStop (src : BitVec 16) -- INJECT_STOP (R449)
  | injectStopped (src : BitVec 16) -- INJECT_STOPPED (R449)
  | injectResume (src : BitVec 16) -- INJECT_RESUME (R449)
  | reorderTimeout (pair : BitVec 16 × BitVec 16) (vc : BitVec 3) -- REORDER_TIMEOUT (R433)
  | remoteTimeout (i : Nat) -- REMOTE_TIMEOUT (R438)
  | fabricResetExit  -- FABRIC_RESET_EXIT (R434)
  | routeEntrySwitch (off : BitVec 16) -- ROUTE_ENTRY_SWITCH (R430)
  | ftWrite (f : Fin 16) (reg : BitVec 4) (v : BitVec 32) -- FT_WRITE (R450)
  | ingest (port : Fin 16) (u : FUnit) -- INGEST (R457)
  | ingestLast (port : Fin 16) (u : FUnit) -- INGEST_LAST (R419)
  | headerChecksDone (pipe : Fin 32) -- HEADER_CHECKS_DONE (R463)
  | chunkTagVerify (pipe : Fin 32) -- CHUNK_TAG_VERIFY (R458)
  | envelopeAccepted (pipe : Fin 32) -- ENVELOPE_ACCEPTED (R460)
  | ingestIdleTimeout (pipe : Fin 32) -- INGEST_IDLE_TIMEOUT (R462)
  | ingestAbort (port : Fin 16) -- INGEST_ABORT (R462)
  | ptWrite (entry : BitVec 13) -- PT_WRITE (R456)
  | ptRead (entry : BitVec 13) -- PT_READ (R456)
  | sealDoor (hi : BitVec 32) -- SEAL_DOOR (R470)
  | sealJobComplete  -- SEAL_JOB_COMPLETE (R472)
  | batchCloseCmd  -- BATCH_CLOSE_CMD (R474)
  | batchIdleTimeout  -- BATCH_IDLE_TIMEOUT (R474)
  | batchSigned  -- BATCH_SIGNED (R477)
  | rcptAckWrite (v : BitVec 32) -- RCPT_ACK_WRITE (R477)
  | ksImport (slot : BitVec 13) -- KS_IMPORT (R467)
  | ksRetire (slot : BitVec 13) -- KS_RETIRE (R468)
  | keyErase (slot : BitVec 13) -- KEY_ERASE (R468)
  | attGo  -- ATT_GO (R480)
  | fwVerify (kind : BitVec 8) -- FW_VERIFY (R482)
  | fwActivate (kind : BitVec 8) -- FW_ACTIVATE (R482)
  | cmoClean (k : Fin 4) (byway l1only : Bool) (way : BitVec 4) (set : BitVec 13) -- CMO_CLEAN (R489)
  | cmoInvalidate (k : Fin 4) (byway l1only : Bool) (way : BitVec 4) (set : BitVec 13) -- CMO_INVALIDATE (R489)
  | cmoCleanInvalidate (k : Fin 4) (byway l1only : Bool) (way : BitVec 4) (set : BitVec 13) -- CMO_CLEAN_INVALIDATE (R489)
  | l2LockWrite (k : Fin 4) (v : BitVec 32) -- L2_LOCK_WRITE (R488)
  | coreResetHold (cluster : Fin 8) (core : Nat) -- CORE_RESET_HOLD (R491)
  | coreResetRelease (cluster : Fin 8) (core : Nat) -- CORE_RESET_RELEASE (R491)
  | clusterResetHold (cluster : Fin 8) -- CLUSTER_RESET_HOLD (R491)
  | clCsrdAccess (cluster : Fin 8) (write : Option (BitVec 32)) -- CL_CSRD_ACCESS (R492)
  | doorbell (hole : BitVec 6) -- DOORBELL (R498)
  | hello (hole : BitVec 6) -- HELLO (R503)
  | identify (hole : BitVec 6) -- IDENTIFY (R503)
  | attest (hole : BitVec 6) -- ATTEST (R503)
  | loadFirmware (hole : BitVec 6) (host : HostData) -- LOAD_FIRMWARE (R513)
  | activateFirmware (hole : BitVec 6) (flashOk : Bool) -- ACTIVATE_FIRMWARE (R513)
  | keyImport (hole : BitVec 6) -- KEY_IMPORT (R515)
  | keyRetire (hole : BitVec 6) -- KEY_RETIRE (R515)
  | modelLoad (hole : BitVec 6) (host : HostData) -- MODEL_LOAD (R503)
  | modelEvict (hole : BitVec 6) -- MODEL_EVICT (R503)
  | planDefine (hole : BitVec 6) (host : HostData) -- PLAN_DEFINE (R508)
  | parcelBundle (hole : BitVec 6) (host : HostData) -- PARCEL_BUNDLE (R504)
  | parcelStatus (hole : BitVec 6) -- PARCEL_STATUS (R507)
  | clusterDrain (hole : BitVec 6) -- CLUSTER_DRAIN (R565)
  | clusterDrainTimeout (cluster : Fin 8) -- CLUSTER_DRAIN_TIMEOUT (R566)
  | clusterReturn (hole : BitVec 6) -- CLUSTER_RETURN (R569)
  | setOppoint (hole : BitVec 6) -- SET_OPPOINT (R510)
  | hbmRetire (hole : BitVec 6) -- HBM_RETIRE (R388)
  | portTrain (hole : BitVec 6) -- PORT_TRAIN (R575)
  | portRetire (hole : BitVec 6) -- PORT_RETIRE (R448)
  | routeLoad (hole : BitVec 6) -- ROUTE_LOAD (R514)
  | selftest (hole : BitVec 6) -- SELFTEST (R511)
  | calibrate (hole : BitVec 6) -- CALIBRATE (R511)
  | meterRead (hole : BitVec 6) -- METER_READ (R561)
  | nightmailConfig (hole : BitVec 6) -- NIGHTMAIL_CONFIG (R526)
  | debugAttach (hole : BitVec 6) -- DEBUG_ATTACH (R514)
  | resetUnit (hole : BitVec 6) -- RESET_UNIT (R511)
  | ticketStart (ticket : BitVec 32) -- TICKET_START (R563)
  | ticketDone (ticket : BitVec 32) (out : TestOutcome) -- TICKET_DONE (R511)
  | stageDispatch (parcel : Nat) -- STAGE_DISPATCH (R509)
  | stageEnd (core : Nat) (word2 : BitVec 32) -- STAGE_END (R509)
  | functionReset  -- FUNCTION_RESET (R496)
  | soCoreRestart (k : Fin 4) (ok : Bool) -- SO_CORE_RESTART (R571)
  | handoverRevert (k : Fin 4) -- HANDOVER_REVERT (R573)
  | nightMailTick (raw : List (BitVec 16)) (leak0 leak1 : Bool) -- NIGHT_MAIL_TICK (R517)
  | oppointStep (cluster : Fin 8) -- OPPOINT_STEP (R528)
  | clusterIdleEntry (cluster : Fin 8) -- CLUSTER_IDLE_ENTRY (R531)
  | napOrder (cluster : Fin 8) -- NAP_ORDER (R533)
  | offOrder (cluster : Fin 8) -- OFF_ORDER (R533)
  | clWake (cluster : Fin 8) -- CL_WAKE (R532)
  | clusterWakeDone (cluster : Fin 8) -- CLUSTER_WAKE_DONE (R530)
  | i3cStatus  -- I3C_STATUS (R596)
  | dormant  -- DORMANT (R535)
  | wake  -- WAKE (R535)
  | mtrSelect (kind : BitVec 8) (index : BitVec 16) -- MTR_SELECT (R560)
  | keyset (key sig : List (BitVec 8)) -- KEYSET (R559)
  | mrstLow  -- MRST_LOW (R592)
  | mrstRise (slot : BitVec 4) (refclk25 settled : Bool) -- MRST_RISE (R592)
  | perst  -- PERST (R592)
  | brownout  -- BROWNOUT (R599)
  | overvoltage  -- OVERVOLTAGE (R599)
  | refclk25Loss  -- REFCLK25_LOSS (R595)
  | leakTraceChange (trace : Fin 2) (asserted : Bool) -- LEAK_TRACE_CHANGE (R603)
  | bringupPhaseA  -- BRINGUP_PHASE_A (R537)
  | bringupPhaseB  -- BRINGUP_PHASE_B (R539)
  | bringupPhaseC  -- BRINGUP_PHASE_C (R540)
  | bringupPhaseD (hbmFail lpFail : BitVec 16) -- BRINGUP_PHASE_D (R539)
  | bringupPhaseE  -- BRINGUP_PHASE_E (R540)
  | frankingSample (volts amps : List (BitVec 24)) -- FRANKING_SAMPLE (R548)
  | windowEnd  -- WINDOW_END (R548)
  | reportFrame (frame : ReportFrame) -- REPORT_FRAME (R552)
  | hubRestart  -- HUB_RESTART (R552)
  | frankingUpdateCheck (image : List (BitVec 8)) -- FRANKING_UPDATE_CHECK (R557)
  | powerLoss  -- POWER_LOSS (R553)
  | powerUp  -- POWER_UP (R553)
  | converterFault (rail : Fin 8) -- CONVERTER_FAULT (R549)
  | registerWrite (reg : RegAddr) (v : BitVec 32) -- REGISTER_WRITE (R4)
  | inputInOperatingRange  -- INPUT_IN_OPERATING_RANGE (R592)
  | converterCheckPass (rail : Fin 8) -- CONVERTER_CHECK_PASS (R549)
  | nightMailReloadDone (ok : Bool) -- NIGHT_MAIL_RELOAD_DONE (R577)
  | ksImportDone  -- KS_IMPORT_DONE (R467)
  | attestReportDone  -- ATTEST_REPORT_DONE (R480)
  | fwCommandDone  -- FW_COMMAND_DONE (R482)
  | testComplete (hole : BitVec 6) (out : TestOutcome) -- TEST_COMPLETE (R568)
  | jtagSelect (site : Nat) (act : JtagAct) -- JTAG_SELECT (R136)
deriving DecidableEq, Repr

end Sys2Proof
end

