-- ==== Sys2Proof/Decode.lean ====
section
/-! DEFINITION. Words and commands. The opcode table gives no row any bits, so no table word spells a command. The words of
a core's instructions (R10, R46 to R62, R88 to R92, R122, R188 to R197, R219, R315) are decoded here, so that the machine
can tell a word that is an instruction from one that is ILLEGAL. -/
namespace Sys2Proof

/-- No row of the opcode table has bits, so no word spells a command. -/
def decodeTableWord (_nbits _w : Nat) : Option Instr := none

namespace Machine

/-- The field of `n` bits from bit `lo` up of an instruction word. -/
def wfield (w : Word) (lo n : Nat) : BitVec n := w.extractLsb' lo n

/-- The instruction `i`, if the bits from `lo` up, `n` of them, are zero (R10). -/
def ifZero (w : Word) (lo n : Nat) (i : Instr) : Option Instr := if wfield w lo n = 0 then some i else none

/-- Format M (R46): size and operand specifier. -/
def decodeM (w : Word) (f : BitVec 2 → BitVec 22 → Instr) : Option Instr := some (f (wfield w 22 2) (wfield w 0 22))

/-- Majors 0x00, 0x01, 0x02, 0x07 (R50, R51, R53, R59). -/
def decodeMem (cpu : Cpu) (t : Fin 4) (major op : Nat) (w : Word) : Option Instr :=
  match major, op with
  | 0, 1 => decodeM w (.ld cpu t)
  | 0, 2 => decodeM w (.ldu cpu t)
  | 0, 3 => decodeM w (.ldx cpu t)
  | 0, 4 => decodeM w (.ldy cpu t)
  | 0, 5 => decodeM w (.leax cpu t)
  | 0, 6 => decodeM w (.leay cpu t)
  | 1, 0 => decodeM w (.st cpu t)
  | 1, 1 => decodeM w (.stx cpu t)
  | 1, 2 => decodeM w (.sty cpu t)
  | 1, 3 => decodeM w (.stz cpu t)
  | 1, 4 => decodeM w (.xch cpu t)
  | 7, 0 => decodeM w (.mul cpu t)
  | 7, 1 => decodeM w (.mulh cpu t)
  | 7, 2 => decodeM w (.mulhu cpu t)
  | 7, 3 => decodeM w (.div cpu t)
  | 7, 4 => decodeM w (.divu cpu t)
  | 7, 5 => decodeM w (.rem cpu t)
  | 7, 6 => decodeM w (.remu cpu t)
  | _, _ => none

/-- The eight operations of majors 0x02 and 0x03 (R53). -/
def decodeAlu (cpu : Cpu) (t : Fin 4) (op : Nat) (src : AluSrc) : Option Instr :=
  match op with
  | 0 => some (.add cpu t src)
  | 1 => some (.adc cpu t src)
  | 2 => some (.sub cpu t src)
  | 3 => some (.sbc cpu t src)
  | 4 => some (.and cpu t src)
  | 5 => some (.or cpu t src)
  | 6 => some (.xor cpu t src)
  | _ => some (.cmp cpu t src)

/-- Major 0x04 (R54). -/
def decodeImm (cpu : Cpu) (t : Fin 4) (op : Nat) (w : Word) : Option Instr :=
  let i : BitVec 24 := wfield w 0 24
  match op with
  | 0 => some (.ldi cpu t i)
  | 1 => ifZero w 16 8 (.ldih cpu t (wfield w 0 16))
  | 2 => some (.lix cpu t i)
  | 3 => some (.liy cpu t i)
  | 4 => some (.addx cpu t i)
  | 5 => some (.addy cpu t i)
  | 6 => some (.cmpx cpu t i)
  | _ => some (.cmpy cpu t i)

/-- Major 0x05 (R55): function codes that use n. -/
def decodeShift (cpu : Cpu) (t : Fin 4) (func : Nat) (n : BitVec 5) : Option Instr :=
  match func with
  | 0x01 => some (.shl cpu t n)
  | 0x02 => some (.shr cpu t n)
  | 0x03 => some (.sar cpu t n)
  | 0x04 => some (.rol cpu t n)
  | 0x17 => some (.macsh cpu t n)
  | _ => none

/-- Major 0x05 (R55): function codes that do not use n. -/
def decodeUnary (cpu : Cpu) (t : Fin 4) (func : Nat) : Option Instr :=
  match func with
  | 0x00 => some (.nop cpu t)
  | 0x05 => some (.neg cpu t)
  | 0x06 => some (.not cpu t)
  | 0x07 => some (.abs cpu t)
  | 0x08 => some (.sexb cpu t)
  | 0x09 => some (.sexh cpu t)
  | 0x0A => some (.zexb cpu t)
  | 0x0B => some (.zexh cpu t)
  | 0x0C => some (.clz cpu t)
  | 0x0D => some (.popc cpu t)
  | 0x0E => some (.tax cpu t)
  | 0x0F => some (.tay cpu t)
  | 0x10 => some (.txa cpu t)
  | 0x11 => some (.tya cpu t)
  | 0x12 => some (.swxy cpu t)
  | 0x13 => some (.gfl cpu t)
  | 0x14 => some (.sfl cpu t)
  | 0x15 => some (.macclr cpu t)
  | 0x16 => some (.rdg cpu t)
  | _ => none

def decodeX (cpu : Cpu) (t : Fin 4) (w : Word) : Option Instr :=
  if wfield w 5 16 ≠ 0 then none
  else
    let func := (wfield w 21 6).toNat
    match decodeShift cpu t func (wfield w 0 5) with
    | some i => some i
    | none => if wfield w 0 5 = 0 then decodeUnary cpu t func else none

/-- Major 0x06 (R56). -/
def decodeD (cpu : Cpu) (t : Fin 4) (op : Nat) (w : Word) : Option Instr :=
  let f (c : Cpu → Fin 4 → BitVec 2 → Bool → Bool → Bool → Bool → BitVec 8 → BitVec 8 → Instr) : Instr :=
    c cpu t (wfield w 22 2) (w.getLsbD 21) (w.getLsbD 20) (w.getLsbD 19) (w.getLsbD 18) (wfield w 8 8) (wfield w 0 8)
  match op with
  | 0 => ifZero w 16 2 (f .macd)
  | 1 => ifZero w 16 2 (f .msbd)
  | 2 => ifZero w 16 2 (f .muld)
  | _ => none

/-- Major 0x09 (R62). -/
def decodeJ (cpu : Cpu) (t : Fin 4) (op : Nat) (w : Word) : Option Instr :=
  match op with
  | 0 => some (.jmp cpu t (wfield w 0 24))
  | 1 => some (.call cpu t (wfield w 0 24))
  | 2 => ifZero w 0 24 (.jx cpu t)
  | 3 => ifZero w 0 24 (.callx cpu t)
  | 4 => ifZero w 0 24 (.ret cpu t)
  | 5 => ifZero w 0 24 (.rspop cpu t)
  | 6 => ifZero w 0 24 (.rspush cpu t)
  | _ => none

/-- Majors 0x10, 0x11, 0x12 (R88, R90 to R92). -/
def decodeCap (cpu : Cpu) (t : Fin 4) (major op : Nat) (w : Word) : Option Instr :=
  let cd : BitVec 3 := wfield w 21 3
  let cs : BitVec 3 := wfield w 18 3
  let ca : BitVec 3 := wfield w 15 3
  let low (i : Instr) : Option Instr := ifZero w 0 18 i
  match major, op with
  | 0x10, 0 => low (.kcopy cpu t cd cs)
  | 0x10, 1 => if cd = 0 ∧ wfield w 3 15 = 0 then some (.kread cpu t cs (wfield w 0 3)) else none
  | 0x10, 2 => low (.kaim cpu t cd cs)
  | 0x10, 3 => low (.knarrow cpu t cd cs)
  | 0x10, 4 => low (.kmask cpu t cd cs)
  | 0x10, 5 => if cs = 0 then low (.kvoid cpu t cd) else none
  | 0x10, 6 => if cs = 0 then low (.khere cpu t cd) else none
  | 0x11, 0 => ifZero w 0 15 (.kwrap cpu t cd cs ca)
  | 0x11, 1 => ifZero w 0 15 (.kunwrap cpu t cd cs ca)
  | 0x11, 2 => if cd = 0 ∧ wfield w 3 12 = 0 then some (.setg cpu t (wfield w 0 3) cs ca) else none
  | 0x12, op =>
    let sz : BitVec 2 := wfield w 22 2
    let cr : BitVec 3 := wfield w 19 3
    let cb : BitVec 3 := wfield w 16 3
    let d : BitVec 12 := wfield w 0 12
    if wfield w 12 4 ≠ 0 then none
    else match op with
      | 0 => if sz = 0 then some (.ldk cpu t cr cb d) else none
      | 1 => if sz = 0 then some (.stk cpu t cr cb d) else none
      | 2 => if cr = 0 then some (.xld cpu t sz cb d) else none
      | 3 => if cr = 0 then some (.xldu cpu t sz cb d) else none
      | 4 => if cr = 0 then some (.xst cpu t sz cb d) else none
      | _ => none
  | _, _ => none

/-- Majors 0x13, 0x16, 0x17 (R89) and ops 000 to 011 of major 0x14 (R122). -/
def decodeSys (cpu : Cpu) (t : Fin 4) (major op : Nat) (w : Word) : Option Instr :=
  match major, op with
  | 0x13, 0 => ifZero w 3 21 (.gate cpu t (wfield w 0 3))
  | 0x13, 1 => ifZero w 0 24 (.rgate cpu t)
  | 0x16, 0 => ifZero w 0 24 (.eret cpu t)
  | 0x16, 1 => ifZero w 0 24 (.escret cpu t)
  | 0x17, 0 => ifZero w 11 13 (.closureClose cpu t (wfield w 0 11))
  | 0x17, 1 => ifZero w 0 24 (.closureOpen cpu t)
  | 0x17, 2 => ifZero w 3 21 (.fence cpu t (wfield w 0 3))
  | 0x14, 0 => ifZero w 0 24 (.wfe cpu t)
  | 0x14, 1 => ifZero w 4 20 (.sev cpu t (wfield w 0 4))
  | 0x14, 2 => ifZero w 0 24 (.clrev cpu t)
  | _, _ => none

/-- Ops 100 to 111 of major 0x14, and major 0x15 (R315). -/
def decodePost (core : Nat) (t : Fin 4) (major op : Nat) (w : Word) : Option Instr :=
  let sub := (wfield w 22 2).toNat
  let x (i : Instr) : Option Instr := ifZero w 0 22 i
  match major, op with
  | 0x14, 4 =>
    match sub with
    | 0 => x (.pstw core t)
    | 1 => x (.pclr core t)
    | 2 => ifZero w 2 20 (.pget core t (wfield w 0 2))
    | _ => x (.pret core t)
  | 0x14, 5 => ifZero w 5 19 (.post core t (wfield w 0 5))
  | 0x14, 6 => ifZero w 5 19 (.postq core t (wfield w 0 5))
  | 0x14, 7 => ifZero w 6 18 (.rsend core t (wfield w 0 6))
  | 0x15, 0 => ifZero w 6 7 (.fsig core t (wfield w 22 2) (wfield w 16 6) (wfield w 13 3) (wfield w 0 6))
  | 0x15, 1 => if wfield w 16 8 = 0 then ifZero w 6 7 (.fwait core t (wfield w 13 3) (wfield w 0 6)) else none
  | 0x15, 2 => if wfield w 16 8 = 0 then ifZero w 6 7 (.ftry core t (wfield w 13 3) (wfield w 0 6)) else none
  | 0x15, 3 => ifZero w 6 18 (.fget core t (wfield w 0 6))
  | 0x15, 4 => ifZero w 4 20 (.bar core t (wfield w 0 4))
  | 0x15, 5 => ifZero w 4 20 (.barv core t (wfield w 0 4))
  | 0x15, 6 => ifZero w 4 20 (.bwait core t (wfield w 0 4))
  | _, _ => none

/-- Majors 0x18 to 0x1B (R188 to R197). -/
def decodeVector (core : Nat) (t : Fin 4) (major op : Nat) (w : Word) : Option Instr :=
  let vd : BitVec 4 := wfield w 20 4
  let va : BitVec 4 := wfield w 16 4
  let vb : BitVec 4 := wfield w 12 4
  let fa : BitVec 4 := wfield w 8 4
  let fb : BitVec 4 := wfield w 4 4
  let fd : BitVec 4 := wfield w 0 4
  let need (ok : Bool) (i : Instr) : Option Instr := if ok then some i else none
  match major, op with
  | 0x18, 0 => some (.vadd core t vd va vb fa fb fd)
  | 0x18, 1 => some (.vsub core t vd va vb fa fb fd)
  | 0x18, 2 => some (.vmul core t vd va vb fa fb fd)
  | 0x18, 3 => some (.vmac core t vd va vb fa fb fd)
  | 0x18, 4 => some (.vmin core t vd va vb fa fb fd)
  | 0x18, 5 => some (.vmax core t vd va vb fa fb fd)
  | 0x18, 6 => some (.vdiv core t vd va vb fa fb fd)
  | 0x18, 7 => need (vb = 0 && fb = 0) (.vlsum core t vd va fa fd)
  | 0x19, 0 => some (.vcmp core t vd va vb fa fb fd)
  | 0x19, 1 => ifZero w 0 12 (.vand core t vd va vb)
  | 0x19, 2 => ifZero w 0 12 (.vor core t vd va vb)
  | 0x19, 3 => ifZero w 0 12 (.vxor core t vd va vb)
  | 0x19, 4 => ifZero w 4 8 (.vsel core t vd va vb fd)
  | 0x19, 5 => need (vb = 0 && fa = 0 && fb = 0) (.vpopc core t vd va fd)
  | 0x1A, 0 => need (vb = 0 && fb = 0) (.vrsum core t vd va fa fd)
  | 0x1A, 1 => need (vb = 0 && fb = 0) (.vrmax core t vd va fa fd)
  | 0x1A, 2 => need (vb = 0 && fb = 0) (.vrmin core t vd va fa fd)
  | 0x1A, 3 => some (.vrdot core t vd va vb fa fb fd)
  | 0x1A, 4 => need (fb = 0 && fd = 0) (.vperm core t vd va vb fa)
  | 0x1A, 5 => need (va = 0 && vb = 0 && fa = 0 && fb = 0) (.vsplat core t vd fd)
  | 0x1A, 6 => need (vd = 0 && vb = 0 && fb = 0 && fd = 0) (.vget core t va fa)
  | 0x1A, 7 => need (vb = 0) (.vcvt core t vd va fa fb fd)
  | 0x1B, 0 => some (.vld core t vd (wfield w 14 6) (w.getLsbD 13) (wfield w 0 13))
  | 0x1B, 1 => some (.vst core t vd (wfield w 14 6) (w.getLsbD 13) (wfield w 0 13))
  | _, _ => none

/-- Majors 0x1C to 0x1E (R219). -/
def decodeTile (core : Nat) (t : Fin 4) (major op : Nat) (w : Word) : Option Instr :=
  let x : BitVec 3 := wfield w 21 3
  let y : BitVec 3 := wfield w 18 3
  let a : BitVec 2 := wfield w 16 2
  let h : BitVec 6 := wfield w 10 6
  let off : BitVec 9 := wfield w 0 9
  let fs : BitVec 4 := wfield w 16 4
  let half := w.getLsbD 15
  let dp : BitVec 4 := wfield w 11 4
  match major, op with
  | 0x1C, 0 => ifZero w 0 16 (.mma core t a x y)
  | 0x1C, 1 => if x = 0 ∧ y = 0 then ifZero w 0 15 (.tzero core t a half) else none
  | 0x1C, 2 => if y = 0 then ifZero w 0 11 (.taccTile core t x a half dp) else none
  | 0x1C, 3 =>
    if y = 0 ∧ wfield w 8 2 = 0 then
      some (if w.getLsbD 10 then .tlsum core t x a half dp (wfield w 0 8) else .tupd core t x a half dp (wfield w 0 8))
    else none
  | 0x1D, 0 => some (.tld core t x h (w.getLsbD 9) off fs (w.getLsbD 20))
  | 0x1D, 1 => some (.tst core t x h (w.getLsbD 9) off fs (w.getLsbD 20))
  | 0x1D, 2 => ifZero w 16 5 (.tlds core t x h (w.getLsbD 9) off)
  | 0x1D, 3 => ifZero w 16 5 (.tsts core t x h (w.getLsbD 9) off)
  | 0x1D, 4 => ifZero w 23 1 (.taccMem core t (wfield w 21 2) h (w.getLsbD 9) off fs (w.getLsbD 20))
  | 0x1E, 0 => ifZero w 0 24 (.tfence core t)
  | _, _ => none

/-- The instruction that thread `t` of `cpu` reads in a word; none where the word is ILLEGAL for that core (R10, R48, R49,
R484). A word that is an instruction can still raise ILLEGAL when it runs, for a reserved size, mode or format. -/
def decodeCoreWord (cpu : Cpu) (t : Fin 4) (w : Word) : Option Instr :=
  let major := (wfield w 27 5).toNat
  let op := (wfield w 24 3).toNat
  if w = 0 then none
  else if major = 0 ∨ major = 1 ∨ major = 7 then decodeMem cpu t major op w
  else if major = 2 then decodeAlu cpu t op (.mem (wfield w 22 2) (wfield w 0 22))
  else if major = 3 then decodeAlu cpu t op (.imm (wfield w 0 24))
  else if major = 4 then decodeImm cpu t op w
  else if major = 5 then decodeX cpu t w
  else if major = 6 then decodeD cpu t op w
  else if major = 8 then some (.branch cpu t (wfield w 23 4) (wfield w 0 23))
  else if major = 9 then decodeJ cpu t op w
  else if 0x10 ≤ major ∧ major ≤ 0x12 then decodeCap cpu t major op w
  else if major = 0x13 ∨ major = 0x16 ∨ major = 0x17 ∨ (major = 0x14 ∧ op < 4) then decodeSys cpu t major op w
  else match cpu with
    | .so _ => none
    | .core n =>
      if major = 0x14 ∨ major = 0x15 then decodePost n t major op w
      else if 0x18 ≤ major ∧ major ≤ 0x1B then decodeVector n t major op w
      else decodeTile n t major op w

/-! ### The words of a core's instructions -/

/-- One bit. -/
def bit1 (b : Bool) : BitVec 1 := if b then 1 else 0

/-- A word of the common form (R10): major, op and 24 bits. -/
def wordOf (cpu : Cpu) (t : Fin 4) (major : BitVec 5) (op : BitVec 3) (rest : BitVec 24) : Option (Cpu × Fin 4 × Word) :=
  some (cpu, t, major ++ op ++ rest)

/-- Majors 0x02 and 0x03 (R53). -/
def encodeAlu (cpu : Cpu) (t : Fin 4) (op : BitVec 3) (src : AluSrc) : Option (Cpu × Fin 4 × Word) :=
  match src with
  | .mem sz m => wordOf cpu t 0x02 op (sz ++ m)
  | .imm i => wordOf cpu t 0x03 op i

/-- The word of a core's instruction, with the core and the thread that run it (R10, R46 to R62, R88 to R92, R122, R188 to
R197, R219, R315); none for a command that is no instruction. -/
def encodeCoreWord (i : Instr) : Option (Cpu × Fin 4 × Word) :=
  match i with
  | .ld cpu t sz m => wordOf cpu t 0x00 1 (sz ++ m)
  | .ldu cpu t sz m => wordOf cpu t 0x00 2 (sz ++ m)
  | .ldx cpu t sz m => wordOf cpu t 0x00 3 (sz ++ m)
  | .ldy cpu t sz m => wordOf cpu t 0x00 4 (sz ++ m)
  | .leax cpu t sz m => wordOf cpu t 0x00 5 (sz ++ m)
  | .leay cpu t sz m => wordOf cpu t 0x00 6 (sz ++ m)
  | .st cpu t sz m => wordOf cpu t 0x01 0 (sz ++ m)
  | .stx cpu t sz m => wordOf cpu t 0x01 1 (sz ++ m)
  | .sty cpu t sz m => wordOf cpu t 0x01 2 (sz ++ m)
  | .stz cpu t sz m => wordOf cpu t 0x01 3 (sz ++ m)
  | .xch cpu t sz m => wordOf cpu t 0x01 4 (sz ++ m)
  | .mul cpu t sz m => wordOf cpu t 0x07 0 (sz ++ m)
  | .mulh cpu t sz m => wordOf cpu t 0x07 1 (sz ++ m)
  | .mulhu cpu t sz m => wordOf cpu t 0x07 2 (sz ++ m)
  | .div cpu t sz m => wordOf cpu t 0x07 3 (sz ++ m)
  | .divu cpu t sz m => wordOf cpu t 0x07 4 (sz ++ m)
  | .rem cpu t sz m => wordOf cpu t 0x07 5 (sz ++ m)
  | .remu cpu t sz m => wordOf cpu t 0x07 6 (sz ++ m)
  | .add cpu t src => encodeAlu cpu t 0 src
  | .adc cpu t src => encodeAlu cpu t 1 src
  | .sub cpu t src => encodeAlu cpu t 2 src
  | .sbc cpu t src => encodeAlu cpu t 3 src
  | .and cpu t src => encodeAlu cpu t 4 src
  | .or cpu t src => encodeAlu cpu t 5 src
  | .xor cpu t src => encodeAlu cpu t 6 src
  | .cmp cpu t src => encodeAlu cpu t 7 src
  | .ldi cpu t i => wordOf cpu t 0x04 0 i
  | .ldih cpu t i => wordOf cpu t 0x04 1 (0#8 ++ i)
  | .lix cpu t i => wordOf cpu t 0x04 2 i
  | .liy cpu t i => wordOf cpu t 0x04 3 i
  | .addx cpu t i => wordOf cpu t 0x04 4 i
  | .addy cpu t i => wordOf cpu t 0x04 5 i
  | .cmpx cpu t i => wordOf cpu t 0x04 6 i
  | .cmpy cpu t i => wordOf cpu t 0x04 7 i
  | .shl cpu t n => some (cpu, t, 0x05#5 ++ 0x01#6 ++ 0#16 ++ n)
  | .shr cpu t n => some (cpu, t, 0x05#5 ++ 0x02#6 ++ 0#16 ++ n)
  | .sar cpu t n => some (cpu, t, 0x05#5 ++ 0x03#6 ++ 0#16 ++ n)
  | .rol cpu t n => some (cpu, t, 0x05#5 ++ 0x04#6 ++ 0#16 ++ n)
  | .macsh cpu t n => some (cpu, t, 0x05#5 ++ 0x17#6 ++ 0#16 ++ n)
  | .nop cpu t => some (cpu, t, 0x05#5 ++ 0x00#6 ++ 0#21)
  | .neg cpu t => some (cpu, t, 0x05#5 ++ 0x05#6 ++ 0#21)
  | .not cpu t => some (cpu, t, 0x05#5 ++ 0x06#6 ++ 0#21)
  | .abs cpu t => some (cpu, t, 0x05#5 ++ 0x07#6 ++ 0#21)
  | .sexb cpu t => some (cpu, t, 0x05#5 ++ 0x08#6 ++ 0#21)
  | .sexh cpu t => some (cpu, t, 0x05#5 ++ 0x09#6 ++ 0#21)
  | .zexb cpu t => some (cpu, t, 0x05#5 ++ 0x0A#6 ++ 0#21)
  | .zexh cpu t => some (cpu, t, 0x05#5 ++ 0x0B#6 ++ 0#21)
  | .clz cpu t => some (cpu, t, 0x05#5 ++ 0x0C#6 ++ 0#21)
  | .popc cpu t => some (cpu, t, 0x05#5 ++ 0x0D#6 ++ 0#21)
  | .tax cpu t => some (cpu, t, 0x05#5 ++ 0x0E#6 ++ 0#21)
  | .tay cpu t => some (cpu, t, 0x05#5 ++ 0x0F#6 ++ 0#21)
  | .txa cpu t => some (cpu, t, 0x05#5 ++ 0x10#6 ++ 0#21)
  | .tya cpu t => some (cpu, t, 0x05#5 ++ 0x11#6 ++ 0#21)
  | .swxy cpu t => some (cpu, t, 0x05#5 ++ 0x12#6 ++ 0#21)
  | .gfl cpu t => some (cpu, t, 0x05#5 ++ 0x13#6 ++ 0#21)
  | .sfl cpu t => some (cpu, t, 0x05#5 ++ 0x14#6 ++ 0#21)
  | .macclr cpu t => some (cpu, t, 0x05#5 ++ 0x15#6 ++ 0#21)
  | .rdg cpu t => some (cpu, t, 0x05#5 ++ 0x16#6 ++ 0#21)
  | .macd cpu t sz a b c d x y => wordOf cpu t 0x06 0 (sz ++ bit1 a ++ bit1 b ++ bit1 c ++ bit1 d ++ 0#2 ++ x ++ y)
  | .msbd cpu t sz a b c d x y => wordOf cpu t 0x06 1 (sz ++ bit1 a ++ bit1 b ++ bit1 c ++ bit1 d ++ 0#2 ++ x ++ y)
  | .muld cpu t sz a b c d x y => wordOf cpu t 0x06 2 (sz ++ bit1 a ++ bit1 b ++ bit1 c ++ bit1 d ++ 0#2 ++ x ++ y)
  | .branch cpu t cond off => some (cpu, t, 0x08#5 ++ cond ++ off)
  | .jmp cpu t a => wordOf cpu t 0x09 0 a
  | .call cpu t a => wordOf cpu t 0x09 1 a
  | .jx cpu t => wordOf cpu t 0x09 2 0
  | .callx cpu t => wordOf cpu t 0x09 3 0
  | .ret cpu t => wordOf cpu t 0x09 4 0
  | .rspop cpu t => wordOf cpu t 0x09 5 0
  | .rspush cpu t => wordOf cpu t 0x09 6 0
  | .kcopy cpu t cd cs => wordOf cpu t 0x10 0 (cd ++ cs ++ 0#18)
  | .kaim cpu t cd cs => wordOf cpu t 0x10 2 (cd ++ cs ++ 0#18)
  | .knarrow cpu t cd cs => wordOf cpu t 0x10 3 (cd ++ cs ++ 0#18)
  | .kmask cpu t cd cs => wordOf cpu t 0x10 4 (cd ++ cs ++ 0#18)
  | .kread cpu t cs f => wordOf cpu t 0x10 1 (0#3 ++ cs ++ 0#15 ++ f)
  | .kvoid cpu t cd => wordOf cpu t 0x10 5 (cd ++ 0#21)
  | .khere cpu t cd => wordOf cpu t 0x10 6 (cd ++ 0#21)
  | .kwrap cpu t cd cs ca => wordOf cpu t 0x11 0 (cd ++ cs ++ ca ++ 0#15)
  | .kunwrap cpu t cd cs ca => wordOf cpu t 0x11 1 (cd ++ cs ++ ca ++ 0#15)
  | .setg cpu t g cs ca => wordOf cpu t 0x11 2 (0#3 ++ cs ++ ca ++ 0#12 ++ g)
  | .ldk cpu t cr cb d => wordOf cpu t 0x12 0 (0#2 ++ cr ++ cb ++ 0#4 ++ d)
  | .stk cpu t cr cb d => wordOf cpu t 0x12 1 (0#2 ++ cr ++ cb ++ 0#4 ++ d)
  | .xld cpu t sz cb d => wordOf cpu t 0x12 2 (sz ++ 0#3 ++ cb ++ 0#4 ++ d)
  | .xldu cpu t sz cb d => wordOf cpu t 0x12 3 (sz ++ 0#3 ++ cb ++ 0#4 ++ d)
  | .xst cpu t sz cb d => wordOf cpu t 0x12 4 (sz ++ 0#3 ++ cb ++ 0#4 ++ d)
  | .gate cpu t g => wordOf cpu t 0x13 0 (0#21 ++ g)
  | .rgate cpu t => wordOf cpu t 0x13 1 0
  | .eret cpu t => wordOf cpu t 0x16 0 0
  | .escret cpu t => wordOf cpu t 0x16 1 0
  | .closureClose cpu t n => wordOf cpu t 0x17 0 (0#13 ++ n)
  | .closureOpen cpu t => wordOf cpu t 0x17 1 0
  | .fence cpu t k => wordOf cpu t 0x17 2 (0#21 ++ k)
  | .wfe cpu t => wordOf cpu t 0x14 0 0
  | .sev cpu t m => wordOf cpu t 0x14 1 (0#20 ++ m)
  | .clrev cpu t => wordOf cpu t 0x14 2 0
  | .pstw core t => wordOf (.core core) t 0x14 4 0
  | .pclr core t => wordOf (.core core) t 0x14 4 (1#2 ++ 0#22)
  | .pget core t i => wordOf (.core core) t 0x14 4 (2#2 ++ 0#20 ++ i)
  | .pret core t => wordOf (.core core) t 0x14 4 (3#2 ++ 0#22)
  | .post core t e => wordOf (.core core) t 0x14 5 (0#19 ++ e)
  | .postq core t e => wordOf (.core core) t 0x14 6 (0#19 ++ e)
  | .rsend core t h => wordOf (.core core) t 0x14 7 (0#18 ++ h)
  | .fsig core t a b d f => wordOf (.core core) t 0x15 0 (a ++ b ++ d ++ 0#7 ++ f)
  | .fwait core t d f => wordOf (.core core) t 0x15 1 (0#8 ++ d ++ 0#7 ++ f)
  | .ftry core t d f => wordOf (.core core) t 0x15 2 (0#8 ++ d ++ 0#7 ++ f)
  | .fget core t f => wordOf (.core core) t 0x15 3 (0#18 ++ f)
  | .bar core t b => wordOf (.core core) t 0x15 4 (0#20 ++ b)
  | .barv core t b => wordOf (.core core) t 0x15 5 (0#20 ++ b)
  | .bwait core t b => wordOf (.core core) t 0x15 6 (0#20 ++ b)
  | .vadd core t vd va vb fa fb fd => wordOf (.core core) t 0x18 0 (vd ++ va ++ vb ++ fa ++ fb ++ fd)
  | .vsub core t vd va vb fa fb fd => wordOf (.core core) t 0x18 1 (vd ++ va ++ vb ++ fa ++ fb ++ fd)
  | .vmul core t vd va vb fa fb fd => wordOf (.core core) t 0x18 2 (vd ++ va ++ vb ++ fa ++ fb ++ fd)
  | .vmac core t vd va vb fa fb fd => wordOf (.core core) t 0x18 3 (vd ++ va ++ vb ++ fa ++ fb ++ fd)
  | .vmin core t vd va vb fa fb fd => wordOf (.core core) t 0x18 4 (vd ++ va ++ vb ++ fa ++ fb ++ fd)
  | .vmax core t vd va vb fa fb fd => wordOf (.core core) t 0x18 5 (vd ++ va ++ vb ++ fa ++ fb ++ fd)
  | .vdiv core t vd va vb fa fb fd => wordOf (.core core) t 0x18 6 (vd ++ va ++ vb ++ fa ++ fb ++ fd)
  | .vlsum core t vd va fa fd => wordOf (.core core) t 0x18 7 (vd ++ va ++ 0#4 ++ fa ++ 0#4 ++ fd)
  | .vcmp core t vd va vb fa fb fd => wordOf (.core core) t 0x19 0 (vd ++ va ++ vb ++ fa ++ fb ++ fd)
  | .vand core t vd va vb => wordOf (.core core) t 0x19 1 (vd ++ va ++ vb ++ 0#12)
  | .vor core t vd va vb => wordOf (.core core) t 0x19 2 (vd ++ va ++ vb ++ 0#12)
  | .vxor core t vd va vb => wordOf (.core core) t 0x19 3 (vd ++ va ++ vb ++ 0#12)
  | .vsel core t vd va vb fd => wordOf (.core core) t 0x19 4 (vd ++ va ++ vb ++ 0#8 ++ fd)
  | .vpopc core t vd va fd => wordOf (.core core) t 0x19 5 (vd ++ va ++ 0#12 ++ fd)
  | .vrsum core t vd va fa fd => wordOf (.core core) t 0x1A 0 (vd ++ va ++ 0#4 ++ fa ++ 0#4 ++ fd)
  | .vrmax core t vd va fa fd => wordOf (.core core) t 0x1A 1 (vd ++ va ++ 0#4 ++ fa ++ 0#4 ++ fd)
  | .vrmin core t vd va fa fd => wordOf (.core core) t 0x1A 2 (vd ++ va ++ 0#4 ++ fa ++ 0#4 ++ fd)
  | .vrdot core t vd va vb fa fb fd => wordOf (.core core) t 0x1A 3 (vd ++ va ++ vb ++ fa ++ fb ++ fd)
  | .vperm core t vd va vb fa => wordOf (.core core) t 0x1A 4 (vd ++ va ++ vb ++ fa ++ 0#8)
  | .vsplat core t vd fd => wordOf (.core core) t 0x1A 5 (vd ++ 0#16 ++ fd)
  | .vget core t va fa => wordOf (.core core) t 0x1A 6 (0#4 ++ va ++ 0#4 ++ fa ++ 0#8)
  | .vcvt core t vd va fa fb fd => wordOf (.core core) t 0x1A 7 (vd ++ va ++ 0#4 ++ fa ++ fb ++ fd)
  | .vld core t v h x off => wordOf (.core core) t 0x1B 0 (v ++ h ++ bit1 x ++ off)
  | .vst core t v h x off => wordOf (.core core) t 0x1B 1 (v ++ h ++ bit1 x ++ off)
  | .mma core t a x y => wordOf (.core core) t 0x1C 0 (x ++ y ++ a ++ 0#16)
  | .tzero core t a half => wordOf (.core core) t 0x1C 1 (0#6 ++ a ++ bit1 half ++ 0#15)
  | .taccTile core t x a half dp => wordOf (.core core) t 0x1C 2 (x ++ 0#3 ++ a ++ bit1 half ++ dp ++ 0#11)
  | .tupd core t x a half dp k => wordOf (.core core) t 0x1C 3 (x ++ 0#3 ++ a ++ bit1 half ++ dp ++ 0#3 ++ k)
  | .tlsum core t x a half dp k => wordOf (.core core) t 0x1C 3 (x ++ 0#3 ++ a ++ bit1 half ++ dp ++ 1#1 ++ 0#2 ++ k)
  | .tld core t x h r off fs g => wordOf (.core core) t 0x1D 0 (x ++ bit1 g ++ fs ++ h ++ bit1 r ++ off)
  | .tst core t x h r off fs g => wordOf (.core core) t 0x1D 1 (x ++ bit1 g ++ fs ++ h ++ bit1 r ++ off)
  | .tlds core t x h r off => wordOf (.core core) t 0x1D 2 (x ++ 0#5 ++ h ++ bit1 r ++ off)
  | .tsts core t x h r off => wordOf (.core core) t 0x1D 3 (x ++ 0#5 ++ h ++ bit1 r ++ off)
  | .taccMem core t a h r off fs g => wordOf (.core core) t 0x1D 4 (0#1 ++ a ++ bit1 g ++ fs ++ h ++ bit1 r ++ off)
  | .tfence core t => wordOf (.core core) t 0x1E 0 0
  | _ => none

end Machine
end Sys2Proof
end

