-- ==== Sys2Proof/Machine/Bits.lean ====
section
/-! DEFINITION. Bit fields, sign extension and byte order (R11): the helpers every other file of the machine uses. -/
namespace Sys2Proof.Machine

/-- The field of `n` bits from bit `lo` up. -/
def bits {w : Nat} (x : BitVec w) (lo n : Nat) : BitVec n := x.extractLsb' lo n

/-- Bit `i` of `x`. -/
def bitOf {w : Nat} (x : BitVec w) (i : Nat) : Bool := x.getLsbD i

/-- `x` with the field at `lo` replaced by `v`. -/
def setBits {w n : Nat} (x : BitVec w) (lo : Nat) (v : BitVec n) : BitVec w :=
  (x &&& ~~~((BitVec.allOnes n).setWidth w <<< lo)) ||| (v.setWidth w <<< lo)

/-- One or zero, as a word of any width. -/
def ofBool (w : Nat) (b : Bool) : BitVec w := if b then 1 else 0

/-- Bit `n` alone. -/
def oneAt (w n : Nat) : BitVec w := 1#w <<< n

/-- Sign-extension to a word. -/
def sext {w : Nat} (x : BitVec w) : Word := x.signExtend 32

/-- Zero-extension to a word. -/
def zext {w : Nat} (x : BitVec w) : Word := x.setWidth 32

/-- The number that little-endian bytes spell (R11). -/
def leNat : List Byte → Nat
  | [] => 0
  | b :: bs => b.toNat + 256 * leNat bs

/-- The number that big-endian bytes spell. -/
def beNat (bs : List Byte) : Nat := leNat bs.reverse

/-- The `n` little-endian bytes of a number (R11). -/
def leBytes : Nat → Nat → List Byte
  | 0, _ => []
  | n + 1, v => BitVec.ofNat 8 v :: leBytes n (v / 256)

/-- The `n` big-endian bytes of a number. -/
def beBytes (n v : Nat) : List Byte := (leBytes n v).reverse

/-- The little-endian word of four bytes. -/
def leWord (bs : List Byte) : Word := BitVec.ofNat 32 (leNat bs)

/-- The first `n` bytes from offset `i`, reading zero beyond the end. -/
def slice (bs : List Byte) (i n : Nat) : List Byte :=
  let part := (bs.drop i).take n
  part ++ List.replicate (n - part.length) 0

/-- Little-endian field of `n` bytes at offset `i` of a byte string. -/
def leAt (bs : List Byte) (i n : Nat) : Nat := leNat (slice bs i n)

/-- Every value from `a`, `n` of them. -/
def upFrom : Nat → Nat → List Nat
  | _, 0 => []
  | a, n + 1 => a :: upFrom (a + 1) n

/-- A count that stops at `top`. -/
def addCap (top x n : Nat) : Nat := min top (x + n)

end Sys2Proof.Machine
end

