-- ==== Sys2Proof/Machine/Crypto.lean ====
section
/-! DEFINITION. The cryptography that the spec names and leaves to its standards: SHA-384 (FIPS 180-4), HMAC (FIPS 198-1),
HKDF (RFC 5869), AES-256 (FIPS 197) with GCM (SP 800-38D) and XTS (IEEE 1619), and ECDSA over brainpoolP384r1 (RFC 5639)
with the per-message secret of RFC 6979. PRESUMED from those standards (assumption log 11). -/
namespace Sys2Proof.Machine

/-! ### SHA-384 -/

/-- The round constants: fractional parts of the cube roots of the first 80 primes. -/
def shaK : List (BitVec 64) :=
  [0x428A2F98D728AE22, 0x7137449123EF65CD, 0xB5C0FBCFEC4D3B2F, 0xE9B5DBA58189DBBC,
   0x3956C25BF348B538, 0x59F111F1B605D019, 0x923F82A4AF194F9B, 0xAB1C5ED5DA6D8118,
   0xD807AA98A3030242, 0x12835B0145706FBE, 0x243185BE4EE4B28C, 0x550C7DC3D5FFB4E2,
   0x72BE5D74F27B896F, 0x80DEB1FE3B1696B1, 0x9BDC06A725C71235, 0xC19BF174CF692694] ++
  [0xE49B69C19EF14AD2, 0xEFBE4786384F25E3, 0x0FC19DC68B8CD5B5, 0x240CA1CC77AC9C65,
   0x2DE92C6F592B0275, 0x4A7484AA6EA6E483, 0x5CB0A9DCBD41FBD4, 0x76F988DA831153B5,
   0x983E5152EE66DFAB, 0xA831C66D2DB43210, 0xB00327C898FB213F, 0xBF597FC7BEEF0EE4,
   0xC6E00BF33DA88FC2, 0xD5A79147930AA725, 0x06CA6351E003826F, 0x142929670A0E6E70] ++
  [0x27B70A8546D22FFC, 0x2E1B21385C26C926, 0x4D2C6DFC5AC42AED, 0x53380D139D95B3DF,
   0x650A73548BAF63DE, 0x766A0ABB3C77B2A8, 0x81C2C92E47EDAEE6, 0x92722C851482353B,
   0xA2BFE8A14CF10364, 0xA81A664BBC423001, 0xC24B8B70D0F89791, 0xC76C51A30654BE30,
   0xD192E819D6EF5218, 0xD69906245565A910, 0xF40E35855771202A, 0x106AA07032BBD1B8] ++
  [0x19A4C116B8D2D0C8, 0x1E376C085141AB53, 0x2748774CDF8EEB99, 0x34B0BCB5E19B48A8,
   0x391C0CB3C5C95A63, 0x4ED8AA4AE3418ACB, 0x5B9CCA4F7763E373, 0x682E6FF3D6B2B8A3,
   0x748F82EE5DEFB2FC, 0x78A5636F43172F60, 0x84C87814A1F0AB72, 0x8CC702081A6439EC,
   0x90BEFFFA23631E28, 0xA4506CEBDE82BDE9, 0xBEF9A3F7B2C67915, 0xC67178F2E372532B] ++
  [0xCA273ECEEA26619C, 0xD186B8C721C0C207, 0xEADA7DD6CDE0EB1E, 0xF57D4F7FEE6ED178,
   0x06F067AA72176FBA, 0x0A637DC5A2C898A6, 0x113F9804BEF90DAE, 0x1B710B35131C471B,
   0x28DB77F523047D84, 0x32CAAB7B40C72493, 0x3C9EBE0A15C9BEBC, 0x431D67C49C100D4C,
   0x4CC5D4BECB3E42B6, 0x597F299CFC657E2A, 0x5FCB6FAB3AD6FAEC, 0x6C44198C4A475817]

/-- The initial value of SHA-384: fractional parts of the square roots of the ninth to sixteenth primes. -/
def shaInit : List (BitVec 64) :=
  [0xCBBB9D5DC1059ED8, 0x629A292A367CD507, 0x9159015A3070DD17, 0x152FECD8F70E5939,
   0x67332667FFC00B31, 0x8EB44A8768581511, 0xDB0C2E0D64F98FA7, 0x47B5481DBEFA4FA4]

/-- The eight working words of the hash. -/
structure Sha where
  a : BitVec 64
  b : BitVec 64
  c : BitVec 64
  d : BitVec 64
  e : BitVec 64
  f : BitVec 64
  g : BitVec 64
  h : BitVec 64

/-- One round with schedule word `w` and constant `k`. -/
def shaRound (x : Sha) (w k : BitVec 64) : Sha :=
  let s1 := x.e.rotateRight 14 ^^^ x.e.rotateRight 18 ^^^ x.e.rotateRight 41
  let ch := (x.e &&& x.f) ^^^ (~~~x.e &&& x.g)
  let t1 := x.h + s1 + ch + k + w
  let s0 := x.a.rotateRight 28 ^^^ x.a.rotateRight 34 ^^^ x.a.rotateRight 39
  let maj := (x.a &&& x.b) ^^^ (x.a &&& x.c) ^^^ (x.b &&& x.c)
  ⟨t1 + (s0 + maj), x.a, x.b, x.c, x.d + t1, x.e, x.f, x.g⟩

/-- The next schedule word from the last sixteen. -/
def shaNext (w : List (BitVec 64)) : BitVec 64 :=
  let at_ (i : Nat) : BitVec 64 := w.getD i 0
  let x := at_ 1
  let y := at_ 14
  let s0 := x.rotateRight 1 ^^^ x.rotateRight 8 ^^^ (x >>> 7)
  let s1 := y.rotateRight 19 ^^^ y.rotateRight 61 ^^^ (y >>> 6)
  at_ 0 + s0 + at_ 9 + s1

/-- The rounds over the constants that are left, with the window of sixteen schedule words. -/
def shaRounds : List (BitVec 64) → List (BitVec 64) → Sha → Sha
  | [], _, x => x
  | k :: ks, w, x => shaRounds ks (w.drop 1 ++ [shaNext w]) (shaRound x (w.headD 0) k)

/-- The big-endian words of a 128-byte block. -/
def shaWords (blk : List Byte) : List (BitVec 64) :=
  (upFrom 0 16).map (fun i => BitVec.ofNat 64 (beNat (slice blk (8 * i) 8)))

/-- One block enters the hash. -/
def shaBlock (x : Sha) (blk : List Byte) : Sha :=
  let y := shaRounds shaK (shaWords blk) x
  ⟨x.a + y.a, x.b + y.b, x.c + y.c, x.d + y.d, x.e + y.e, x.f + y.f, x.g + y.g, x.h + y.h⟩

/-- `n` blocks of the padded message. -/
def shaBlocks : Nat → List Byte → Sha → Sha
  | 0, _, x => x
  | n + 1, m, x => shaBlocks n (m.drop 128) (shaBlock x (m.take 128))

/-- The SHA-384 digest of a message: 48 bytes. -/
def sha384 (m : List Byte) : List Byte :=
  let n := m.length
  let zeros := (239 - n % 128) % 128
  let padded := m ++ [0x80] ++ List.replicate zeros 0 ++ beBytes 16 (8 * n)
  let i (k : Nat) : BitVec 64 := shaInit.getD k 0
  let x := shaBlocks (padded.length / 128) padded ⟨i 0, i 1, i 2, i 3, i 4, i 5, i 6, i 7⟩
  [x.a, x.b, x.c, x.d, x.e, x.f].flatMap (fun w => beBytes 8 w.toNat)

/-! ### HMAC and HKDF -/

/-- Bytes combined one by one. -/
def xorBytes (a b : List Byte) : List Byte := List.zipWith (· ^^^ ·) a b

/-- HMAC-SHA-384. -/
def hmac384 (key m : List Byte) : List Byte :=
  let k := if 128 < key.length then sha384 key else key
  let k := k ++ List.replicate (128 - k.length) 0
  sha384 (k.map (· ^^^ 0x5C) ++ sha384 (k.map (· ^^^ 0x36) ++ m))

/-- The expansion of HKDF: `n` blocks from number `i`. -/
def hkdfBlocks (prk info : List Byte) : Nat → Nat → List Byte → List Byte
  | 0, _, _ => []
  | n + 1, i, prev =>
    let t := hmac384 prk (prev ++ info ++ [BitVec.ofNat 8 i])
    t ++ hkdfBlocks prk info n (i + 1) t

/-- HKDF-SHA-384 with an output of `len` bytes. -/
def hkdf384 (ikm salt info : List Byte) (len : Nat) : List Byte :=
  (hkdfBlocks (hmac384 salt ikm) info ((len + 47) / 48) 1 []).take len

/-! ### AES-256 -/

/-- Multiplication by x in the field of AES. -/
def xtime (b : Byte) : Byte := if bitOf b 7 then (b <<< 1) ^^^ 0x1B else b <<< 1

/-- Multiplication in the field of AES, over the low `n` bits of `b`. -/
def gfMul : Nat → Byte → Byte → Byte
  | 0, _, _ => 0
  | n + 1, a, b => (if bitOf b 0 then a else 0) ^^^ gfMul n (xtime a) (b >>> 1)

/-- `a` to the power 2^n − 2, which for n = 8 is its inverse. -/
def gfInv (a : Byte) : Byte :=
  let sq (x : Byte) := gfMul 8 x x
  let a2 := sq a
  let a4 := sq a2
  let a8 := sq a4
  let a16 := sq a8
  let a32 := sq a16
  let a64 := sq a32
  let a128 := sq a64
  gfMul 8 a2 (gfMul 8 a4 (gfMul 8 a8 (gfMul 8 a16 (gfMul 8 a32 (gfMul 8 a64 a128)))))

/-- SubBytes of one byte, and its inverse. -/
def sbox (b : Byte) : Byte :=
  let x := gfInv b
  x ^^^ x.rotateLeft 1 ^^^ x.rotateLeft 2 ^^^ x.rotateLeft 3 ^^^ x.rotateLeft 4 ^^^ 0x63

def sboxInv (b : Byte) : Byte := gfInv (b.rotateLeft 1 ^^^ b.rotateLeft 3 ^^^ b.rotateLeft 6 ^^^ 0x05)

/-- The next eight words of the key schedule from the last eight; each word is four bytes. -/
def keyStep (w : List (List Byte)) (rcon : Byte) : List (List Byte) :=
  let at_ (i : Nat) : List Byte := w.getD i []
  let rot (x : List Byte) : List Byte := x.drop 1 ++ x.take 1
  let first := xorBytes (xorBytes (at_ 0) ((rot (at_ 7)).map sbox)) [rcon, 0, 0, 0]
  let b := xorBytes (at_ 1) first
  let c := xorBytes (at_ 2) b
  let d := xorBytes (at_ 3) c
  let e := xorBytes (at_ 4) (d.map sbox)
  let f := xorBytes (at_ 5) e
  let g := xorBytes (at_ 6) f
  [first, b, c, d, e, f, g, xorBytes (at_ 7) g]

def keyWords : Nat → List (List Byte) → Byte → List (List Byte)
  | 0, w, _ => w
  | n + 1, w, rcon => w ++ keyWords n (keyStep w rcon) (xtime rcon)

/-- The fifteen round keys of a 32-byte key. -/
def aesKeys (key : List Byte) : List (List Byte) :=
  let ws := keyWords 7 ((upFrom 0 8).map (fun i => slice key (4 * i) 4)) 1
  (upFrom 0 15).map (fun r => (ws.drop (4 * r)).take 4 |>.flatten)

/-- ShiftRows: byte 4c + r of the state comes from column c + r, and its inverse. -/
def shiftRows (s : List Byte) : List Byte := (upFrom 0 16).map (fun i => s.getD ((i + 4 * (i % 4)) % 16) 0)
def shiftRowsInv (s : List Byte) : List Byte := (upFrom 0 16).map (fun i => s.getD ((i + 12 * (i % 4)) % 16) 0)

/-- A column multiplied by the circulant matrix of the four coefficients. -/
def mixColumn (m : List Byte) (col : List Byte) : List Byte :=
  (upFrom 0 4).map (fun r =>
    (upFrom 0 4).foldl (fun acc j => acc ^^^ gfMul 8 (col.getD j 0) (m.getD ((j + 4 - r) % 4) 0)) 0)

def mixColumns (m s : List Byte) : List Byte := (upFrom 0 4).flatMap (fun c => mixColumn m (slice s (4 * c) 4))

/-- The inner rounds of encryption over the keys that are left; the last one mixes no columns. -/
def aesRounds : List (List Byte) → List Byte → List Byte
  | [], s => s
  | [k], s => xorBytes (shiftRows (s.map sbox)) k
  | k :: ks, s => aesRounds ks (xorBytes (mixColumns [2, 3, 1, 1] (shiftRows (s.map sbox))) k)

/-- Encryption of a 16-byte block under expanded keys. -/
def aesEnc (keys : List (List Byte)) (blk : List Byte) : List Byte :=
  aesRounds (keys.drop 1) (xorBytes blk (keys.headD []))

/-- The inner rounds of decryption, over the keys in reverse order. -/
def aesRoundsInv : List (List Byte) → List Byte → List Byte
  | [], s => s
  | [k], s => xorBytes ((shiftRowsInv s).map sboxInv) k
  | k :: ks, s => aesRoundsInv ks (mixColumns [14, 11, 13, 9] (xorBytes ((shiftRowsInv s).map sboxInv) k))

/-- Decryption of a 16-byte block under expanded keys. -/
def aesDec (keys : List (List Byte)) (blk : List Byte) : List Byte :=
  let r := keys.reverse
  aesRoundsInv (r.drop 1) (xorBytes blk (r.headD []))

/-! ### GCM -/

/-- Multiplication in the field of GHASH, over the bits of `x` from the most significant. -/
def ghMul : Nat → BitVec 128 → BitVec 128 → BitVec 128
  | 0, _, _ => 0
  | n + 1, x, v =>
    (if bitOf x 127 then v else 0) ^^^
      ghMul n (x <<< 1) (if bitOf v 0 then (v >>> 1) ^^^ (0xE1#8 ++ 0#120) else v >>> 1)

/-- The bytes in pieces of 16, the last one padded with zeros. -/
def blocks16 (bs : List Byte) : List (List Byte) := (upFrom 0 ((bs.length + 15) / 16)).map (fun i => slice bs (16 * i) 16)

/-- GHASH of additional data and ciphertext. -/
def ghash (h : BitVec 128) (aad ct : List Byte) : BitVec 128 :=
  (blocks16 aad ++ blocks16 ct ++ [beBytes 8 (8 * aad.length) ++ beBytes 8 (8 * ct.length)]).foldl
    (fun y b => ghMul 128 (y ^^^ BitVec.ofNat 128 (beNat b)) h) 0

/-- Counter block `i` under a 12-byte nonce. -/
def gcmCounter (nonce : List Byte) (i : Nat) : List Byte := slice nonce 0 12 ++ beBytes 4 i

/-- Counter-mode bytes of block `i` of a message: the message block combined with the key stream. -/
def gcmBlock (keys : List (List Byte)) (nonce : List Byte) (i : Nat) (blk : List Byte) : List Byte :=
  xorBytes blk (aesEnc keys (gcmCounter nonce (i + 2)))

/-- Encryption or decryption of a message from its block `i` on. -/
def gcmCrypt (keys : List (List Byte)) (nonce : List Byte) (i : Nat) (m : List Byte) : List Byte :=
  ((upFrom 0 ((m.length + 15) / 16)).flatMap (fun j => gcmBlock keys nonce (i + j) ((m.drop (16 * j)).take 16)))

/-- The tag of a ciphertext with its additional data. -/
def gcmTag (key nonce aad ct : List Byte) : List Byte :=
  let keys := aesKeys key
  let h := BitVec.ofNat 128 (beNat (aesEnc keys (List.replicate 16 0)))
  xorBytes (beBytes 16 (ghash h aad ct).toNat) (aesEnc keys (gcmCounter nonce 1))

/-! ### XTS -/

/-- The tweak of the next block. -/
def xtsNext (t : BitVec 128) : BitVec 128 := if bitOf t 127 then (t <<< 1) ^^^ 0x87 else t <<< 1

def xtsTweak : Nat → BitVec 128 → BitVec 128
  | 0, t => t
  | n + 1, t => xtsTweak n (xtsNext t)

/-- Decryption of whole 16-byte blocks of data unit `unit`, from its block `i` on, under a 64-byte key. -/
def xtsDecrypt (key : List Byte) (unit i : Nat) (ct : List Byte) : List Byte :=
  let k1 := aesKeys (key.take 32)
  let t0 := BitVec.ofNat 128 (leNat (aesEnc (aesKeys (key.drop 32)) (leBytes 16 unit)))
  (upFrom 0 (ct.length / 16)).flatMap (fun j =>
    let t := leBytes 16 (xtsTweak (i + j) t0).toNat
    xorBytes (aesDec k1 (xorBytes (slice ct (16 * j) 16) t)) t)

/-! ### brainpoolP384r1 -/

def bpP : Nat := 0x8CB91E82A3386D280F5D6F7E50E641DF152F7109ED5456B412B1DA197FB71123ACD3A729901D1A71874700133107EC53
def bpA : Nat := 0x7BC382C63D8C150C3C72080ACE05AFA0C2BEA28E4FB22787139165EFBA91F90F8AA5814A503AD4EB04A8C7DD22CE2826
def bpB : Nat := 0x04A8C7DD22CE28268B39B55416F0447C2FB77DE107DCD2A62E880EA53EEB62D57CB4390295DBC9943AB78696FA504C11
def bpN : Nat := 0x8CB91E82A3386D280F5D6F7E50E641DF152F7109ED5456B31F166E6CAC0425A7CF3AB6AF6B7FC3103B883202E9046565

/-- A point: none is the point at infinity. -/
abbrev Point := Option (Nat × Nat)

def bpG : Point := some
  (0x1D1C64F068CF45FFA2A63A81B7C13F6B8847A3E77EF14FE3DB7FCAFE0CBD10E8E826E03436D646AAEF87B2E247D4AF1E,
   0x8ABE1D7520F9C2A45CB1EB8E95CFD55262B70B29FEEC5864E19C054FF99129280E4646217791811142820341263C5315)

/-- `b` to the power `e` modulo `m`, over `n` bits of `e`. -/
def powMod (m : Nat) : Nat → Nat → Nat → Nat
  | 0, _, _ => 1 % m
  | n + 1, b, e => (if e % 2 = 1 then b else 1) * powMod m n (b * b % m) (e / 2) % m

/-- The inverse modulo a prime. -/
def invMod (m a : Nat) : Nat := powMod m 384 (a % m) (m - 2)

/-- The sum of two points of the curve. -/
def pointAdd (p q : Point) : Point :=
  match p, q with
  | none, q => q
  | p, none => p
  | some (x1, y1), some (x2, y2) =>
    if x1 = x2 ∧ (y1 + y2) % bpP = 0 then none
    else
      let l := if x1 = x2 then (3 * x1 * x1 + bpA) * invMod bpP (2 * y1) % bpP
        else (y2 + bpP - y1) * invMod bpP (x2 + bpP - x1) % bpP
      let x := (l * l + 2 * bpP - x1 - x2) % bpP
      some (x, (l * (x1 + bpP - x) + bpP - y1) % bpP)

/-- `k` times a point, over `n` bits of `k`. -/
def pointMulBits : Nat → Nat → Point → Point
  | 0, _, _ => none
  | n + 1, k, p => pointAdd (if k % 2 = 1 then p else none) (pointMulBits n (k / 2) (pointAdd p p))

def pointMul (k : Nat) (p : Point) : Point := pointMulBits 384 k p

/-- The 97 bytes 0x04 ‖ X ‖ Y of a point. -/
def encodePoint (p : Point) : List Byte :=
  match p with
  | some (x, y) => [0x04] ++ beBytes 48 x ++ beBytes 48 y
  | none => [0x00]

/-- The point that 97 bytes spell, if they spell one of the curve. -/
def decodePoint (bs : List Byte) : Point :=
  let x := beNat (slice bs 1 48)
  let y := beNat (slice bs 49 48)
  if bs.length = 97 ∧ bs.headD 0 = 0x04 ∧ x < bpP ∧ y < bpP ∧ y * y % bpP = (x * x * x + bpA * x + bpB) % bpP then some (x, y)
  else none

/-- The candidates of RFC 6979 until one lies between 1 and n − 1. -/
def ecdsaSecret : Nat → List Byte → List Byte → Nat
  | 0, _, _ => 1
  | n + 1, k, v =>
    let v := hmac384 k v
    let c := beNat v
    if 1 ≤ c ∧ c < bpN then c
    else
      let k := hmac384 k (v ++ [0])
      ecdsaSecret n k (hmac384 k v)

/-- The signature r ‖ s of a message under a private scalar; `d` lies between 1 and n − 1. -/
def ecdsaSign (d : Nat) (m : List Byte) : List Byte :=
  let h := sha384 m
  let z := beNat h
  let seed := beBytes 48 d ++ beBytes 48 (z % bpN)
  let k0 := List.replicate 48 (0 : Byte)
  let v0 := List.replicate 48 (1 : Byte)
  let k1 := hmac384 k0 (v0 ++ [0] ++ seed)
  let v1 := hmac384 k1 v0
  let k2 := hmac384 k1 (v1 ++ [1] ++ seed)
  let k := ecdsaSecret 256 k2 (hmac384 k2 v1)
  let r := match pointMul k bpG with
    | some (x, _) => x % bpN
    | none => 0
  beBytes 48 r ++ beBytes 48 (invMod bpN k * (z + r * d) % bpN)

/-- The signature verifies under a public key. -/
def ecdsaVerify (pub : Point) (m sig : List Byte) : Bool :=
  let r := beNat (slice sig 0 48)
  let s := beNat (slice sig 48 48)
  if r = 0 ∨ bpN ≤ r ∨ s = 0 ∨ bpN ≤ s ∨ pub = none then false
  else
    let w := invMod bpN s
    let z := beNat (sha384 m)
    match pointAdd (pointMul (z * w % bpN) bpG) (pointMul (r * w % bpN) pub) with
    | some (x, _) => x % bpN == r
    | none => false

end Sys2Proof.Machine
end

