-- ==== Sys2Proof/Config.lean ====
section
/-! DEFINITION. What an implementation fixes and the spec leaves open, and what a part's fuses and flash hold at manufacture:
constants with no body, so that no proof can see their value (each named in the assumption log). -/
namespace Sys2Proof

/-- CURSOR of DDC and of C1 at the start of an escalation handler, which R107 does not give. -/
opaque Config.escDdcCursor : Word
opaque Config.escC1Cursor : Word

/-- The fuse map of sites (R20, R253): 0 ENABLED, 1 SPARE, 2 DISABLED, 3 HOLE; and the ordered grade (R605): true for
FV2-512-LQ. -/
opaque Config.siteFuse : Nat → BitVec 2
opaque Config.grade512 : Bool

/-- The serial number and the certificate chain that IDENTIFY returns (R478, R503). -/
opaque Config.serial : BitVec 128
opaque Config.chain : List (BitVec 8)

/-- The fuse secret UDS (R478), the fused digest of the firmware key and the fused minimum SVN of each kind (R482). -/
opaque Config.uds : BitVec 384
opaque Config.signerDigest : BitVec 384
opaque Config.minSvn : Nat → Word

/-- The boot ROM of the control cores (R485). -/
opaque Config.bootRom : Nat → Byte

/-- What flash holds at manufacture: the image of slot A (0) and B (1) that passes R482, if it does, as VERSION, SVN and
measurement; the Night Mail image; and the restart epoch (R434, R539, R579). -/
opaque Config.flashImage : Nat → Option (Word × Word × BitVec 384)
opaque Config.nightMailImage : Word × Word × BitVec 384
opaque Config.flashEpoch : BitVec 16

/-- The Franking die at manufacture: its running image as VERSION, SVN and FR_ID, and the Feruntus key it holds (R555,
R557). -/
opaque Config.frankingImage : Word × Word × BitVec 384
opaque Config.frankingKey : BitVec 776

/-- Choices that the spec leaves to firmware or to the implementation, applied to the counter `fresh` of the state, which
rises with each use: where firmware places a buffer or a model (R503, R504), in units of 64 bytes; the way a cache replaces
(R484); the words of a NIGHT_MAIL event that has no input (R545); the memories that a tick places in self-refresh (R380);
whether a mean code rounds up (R561); the outcome of the link check of an LPDDR5X transfer (R383). -/
opaque Config.place : Nat → Nat
opaque Config.victim : Nat → Nat
opaque Config.eventWords : Nat → BitVec 32
opaque Config.selfRefresh : Nat → BitVec 32
opaque Config.roundUp : Nat → Bool
opaque Config.lpLink : Nat → BitVec 2

/-- Firmware resumes a thread of a stage that route 0 has stopped (R506), by the counter `fresh`: the spec leaves it to
firmware. -/
opaque Config.resumesStopped : Nat → Bool

/-- The plaintext block that a data unit numbered 2^64 or above decrypts to, which R455 excludes: by data-unit number and
block. -/
opaque Config.xtsBeyond : Nat → Nat → BitVec 512

/-- Bytes that the spec leaves open, by the counter `fresh`: the nonce of an attestation whose read fails (R480), and the nonce
under which a key is wrapped for its slot (R465). -/
opaque Config.openBytes : Nat → BitVec 384

/-- The event TYPE under which a stack that fails training at bring-up is reported, which R541 does not give. -/
opaque Config.trainFailEvent : BitVec 16

/-- How far a transmitter tap moves below and above its preset, in steps (R403): the spec gives the taps no range. -/
opaque Config.tapRange : Nat → Nat × Nat

end Sys2Proof
end

