-- ==== Sys2Proof/Machine/Tab.lean ====
section
/-! DEFINITION. Sparse tables: the one representation of everything the spec indexes by a number (memory bytes,
registers of a page, flags, cores). A table lists only what differs from a default, sorted by key, so that equal
contents are equal data. -/
namespace Sys2Proof.Machine

/-- A sparse table: the listed keys, strictly rising, with their values. -/
abbrev Tab (α : Type) := List (Nat × α)

/-- The entry of key `k`; an unlisted key holds its default `d k`. -/
def tget {α : Type} (d : Nat → α) : Tab α → Nat → α
  | [], k => d k
  | (k', v) :: rest, k => if k = k' then v else tget d rest k

/-- The table without its entry of key `k`. -/
def tdrop {α : Type} : Tab α → Nat → Tab α
  | [], _ => []
  | (k', v) :: rest, k => if k = k' then tdrop rest k else (k', v) :: tdrop rest k

/-- Entry `k` placed before the first larger key. -/
def tplace {α : Type} : Tab α → Nat → α → Tab α
  | [], k, v => [(k, v)]
  | (k', v') :: rest, k, v =>
    if k < k' then (k, v) :: (k', v') :: rest else (k', v') :: tplace rest k v

/-- Key `k` now holds `v`; writing the default removes the entry, which keeps the form canonical. -/
def tset {α : Type} [DecidableEq α] (d : Nat → α) (m : Tab α) (k : Nat) (v : α) : Tab α :=
  if v = d k then tdrop m k else tplace (tdrop m k) k v

/-- Every listed key lies above `b` and the keys rise strictly. -/
def tsorted {α : Type} : Tab α → Option Nat → Bool
  | [], _ => true
  | (k, _) :: rest, none => tsorted rest (some k)
  | (k, _) :: rest, some b => decide (b < k) && tsorted rest (some k)

/-- No entry equals the default of its key. -/
def tlean {α : Type} [DecidableEq α] (d : Nat → α) : Tab α → Bool
  | [] => true
  | (k, v) :: rest => (!decide (v = d k)) && tlean d rest

/-- The canonical form: keys strictly rising, no entry equal to its default. -/
def twf {α : Type} [DecidableEq α] (d : Nat → α) (m : Tab α) : Bool := tsorted m none && tlean d m

end Sys2Proof.Machine
end

