-- ==== Sys2Proof/Machine/StateCore.lean ====
section
/-! DEFINITION. The state of one scalar core: its threads, capabilities, gates, memory and the queues and tables of
its CSR pages (R33, R79 to R145, R238 to R347). Plain data; the reset values stand in the `reset` definitions. -/
namespace Sys2Proof.Machine

/-- A capability (R79): the hidden tag, and the fields of its 128 bits. Bits [3:0] are reserved and held nowhere. -/
structure Cap where
  tag : Bool
  cursor : Word
  base : Word
  length : Word
  perms : BitVec 16
  otype : BitVec 12
deriving DecidableEq, Repr

/-- The null capability (R81). -/
def Cap.null : Cap := ⟨false, 0, 0, 0, 0, 0⟩

/-- The state of the check bits of a protected word (R266, R267): good, one correctable error (the word's bytes
hold the corrected value), an uncorrectable error that no read has met yet, or poison. -/
inductive Check where
  | good | single | double | poison
deriving DecidableEq, Repr

/-- A memory: its bytes by address, the check state of each protected word by word number, and the tag of each
16-byte granule by granule number (R85, R266). `split` are the granules of whose three tag copies one differs (R271). An
unlisted byte reads as zero, an unlisted word is good, an unlisted tag is clear, and its copies agree. -/
structure Mem where
  bytes : Tab Byte
  check : Tab Check
  tags : Tab Bool
  split : Tab Bool
deriving DecidableEq, Repr

def Mem.empty : Mem := ⟨[], [], [], []⟩

/-- The states of a thread (R112). -/
inductive TState where
  | notRunning | running | waiting | stoppedFault | stoppedDebug | escalation | halted
deriving DecidableEq, Repr

/-- What a WAITING thread waits for (R124, R336, R340). -/
inductive WaitFor where
  | event
  | flag (f : BitVec 6)
  | barrier (n : BitVec 4)
deriving DecidableEq, Repr

/-- A doorbell whose checks are made and whose handles are resolved (R304): the channel, the words its registers take from
CSRC to CNOTIFY, and the ringing core with the address of its command block. -/
structure Doorbell where
  ch : Nat
  words : List Word
  core : Nat
  addr : Nat
deriving DecidableEq, Repr

/-- The words a fault leaves in its frame (R103): cause code, FADDR and INFO. -/
structure FaultInfo where
  code : BitVec 8
  faddr : Word
  info : Word
deriving DecidableEq, Repr

/-- What the instruction that rang a doorbell does as it completes: what it adds to IX and IY (R37), and what an exchange
puts into ACC (R51). -/
structure DoorEnd where
  ix : Word
  iy : Word
  acc : Option Word
deriving DecidableEq, Repr

/-- What keeps a RUNNING thread from issuing across commands: the data of a shared-SRAM access (R68), of which a
multiply-accumulate may hold an operand already (R58; of an operand Y that faults, it holds the fault until X has returned), a change of the numeric settings (R180), of the tile configuration
(R211) or of the vector scales (R202), a rebind (R262), the result-ready cycle of a vector or tile instruction under
NANTRAP (R170), a courier channel that is not IDLE (R304), or lines that cache maintenance
writes back to other devices (R488, R489). -/
inductive Block where
  | sram (i : Instr)
  | operands (i : Instr) (x : Option Word) (y : Option (FaultInfo ⊕ Word))
  | settings
  | tileCfg
  | vscale
  | rebind
  | nanWait
  | tfence
  | door (d : Doorbell) (last : DoorEnd)
  | cmo
deriving DecidableEq, Repr

/-- A store to shared SRAM that has not been acknowledged (R363): the slice, the offset in global space 0x2, the
bytes, the tag an STK sets, and whether its bytes have reached the slice. -/
structure PendStore where
  slice : Nat
  off : Nat
  bytes : List Byte
  tag : Bool
  applied : Bool
deriving DecidableEq, Repr

/-- The draws an abandoned LSUM instruction keeps (R176): the instruction and its PC, and the generator state its
first draw starts from. -/
structure KeptDraws where
  pc : Word
  instr : Instr
  start : BitVec 64
deriving DecidableEq, Repr

/-- One hardware thread (R33 and the chapters cited at each group of fields). `flags` holds the RW and W1C fields
of R35; RSDEPTH is the length of `rs`, oldest entry first. `glink` is the gate-link stack, oldest first (R96).
`closeEnd` is the last closed cluster cycle (R98). `recvd` is the receive register, `staged` the post staging
words (R316). `stopReq` is a debug stop not yet taken, `stepping` a STEP whose one instruction has not issued
(R138, R140). `pend` holds the unacknowledged stores in issue order (R363). -/
structure Thread where
  acc : Word
  acg : BitVec 8
  ix : Word
  iy : Word
  flags : Word
  pc : Word
  rs : List Word
  pcc : Cap
  ddc : Cap
  c1 : Cap
  c2 : Cap
  c3 : Cap
  c4 : Cap
  c5 : Cap
  c6 : Cap
  sfc : Cap
  glink : List (Cap × Cap)
  closeEnd : Option Nat
  st : TState
  ev : Bool
  cause : BitVec 8
  wait : Option WaitFor
  waitFrom : Nat
  block : Option Block
  staged : List Word
  recvd : BitVec 128
  stopReq : Bool
  stepping : Bool
  kept : Option KeptDraws
  pend : List PendStore
deriving DecidableEq, Repr

/-- The root PCC of R84: LOAD, EXEC, LOADCAP, GATE, CLOSE, POST, FLAG, COURIER, STREAM, TILE and DEBUG. -/
def rootPcc : Cap := ⟨true, 0, 0, 0x00080000, 0xFD8D, 0⟩
/-- The root DDC of R84: LOAD, STORE, LOADCAP, STORECAP and CSR. -/
def rootDdc : Cap := ⟨true, 0, 0, 0x0010A000, 0x021B, 0⟩
/-- The root C1 of R84: LOAD, STORE, LOADCAP and STORECAP over shared SRAM. -/
def rootC1 : Cap := ⟨true, 0x40000000, 0x40000000, 0x30000000, 0x001B, 0⟩
/-- The root C2 of R84: SEAL and UNSEAL over the object types. -/
def rootC2 : Cap := ⟨true, 1, 0, 0x1000, 0x0060, 0⟩

/-- A thread after core reset (R33, R84, R113). -/
def Thread.reset : Thread where
  acc := 0
  acg := 0
  ix := 0
  iy := 0
  flags := 0
  pc := 0
  rs := []
  pcc := rootPcc
  ddc := rootDdc
  c1 := rootC1
  c2 := rootC2
  c3 := Cap.null
  c4 := Cap.null
  c5 := Cap.null
  c6 := Cap.null
  sfc := Cap.null
  glink := []
  closeEnd := none
  st := .notRunning
  ev := false
  cause := 0
  wait := none
  waitFrom := 0
  block := none
  staged := []
  recvd := 0
  stopReq := false
  stepping := false
  kept := none
  pend := []

/-- T0 of a control core after its reset (R486): the roots of the control cores, waiting for its release. -/
def Thread.resetSo : Thread :=
  { Thread.reset with
    pcc := ⟨true, 0, 0, 0x10400000, 0x818D, 0⟩
    ddc := ⟨true, 0, 0, 0xFFFFFFFF, 0x021B, 0⟩
    c1 := Cap.null }

/-- A vector instruction that has issued and not reached its result-ready cycle (R185 to R187): what it writes and
counts at retirement. `vd` is the register it writes, `scale` the scale bytes it writes
(register, first block, codes), `nanEl` its lowest NaN lane, `trap`
the value of NANTRAP at issue (R170). -/
structure VecOp where
  t : Fin 4
  pc : Word
  vd : Option (BitVec 4 × BitVec 512)
  scale : Option (BitVec 4 × Nat × List Nat)
  cls : Nat
  sat : Nat
  flush : Nat
  nan : Nat
  flags : BitVec 5
  nanEl : Option Nat
  trap : Bool
  kept : Option KeptDraws
deriving DecidableEq, Repr

/-- A tile instruction that has issued and not retired (R212 to R217): its pipe, issue cycle, occupancy and latency,
the tiles it reads and writes, the memory range it covers, and what it writes and counts at retirement. Operand tiles
are numbered 0 to 7 and accumulators 8 to 11 in `reads` and `writes`. `poison` is the image address if
the image held poison, `fences` the threads whose TFENCE waits for it. -/
structure TileOp where
  t : Fin 4
  pc : Word
  isMatrix : Bool
  issued : Nat
  occ : Nat
  lat : Nat
  reads : List Nat
  writes : List Nat
  isMma : Option Nat
  span : Option (Nat × Nat)
  spanWrite : Bool
  ttw : List (Nat × Byte)
  scw : List (Nat × Byte)
  atw : List (Nat × Word)
  atType : Option (Nat × Bool)
  memw : List Byte
  cls : Nat
  sat : Nat
  flush : Nat
  nan : Nat
  flags : BitVec 5
  nanEl : Option Nat
  trap : Bool
  poison : Option Word
  kept : Option KeptDraws
  fences : List (Fin 4)
deriving DecidableEq, Repr

/-- A store to a setting that waits for in-flight instructions to drain: who stored, the CSR offset, the value, and how
many instructions issued before it are still in flight (R180, R202, R211); for the seed the value is `hi` over the held
low word. -/
structure PendSet where
  who : Requester
  off : Nat
  value : BitVec 64
  ahead : Nat
deriving DecidableEq, Repr

/-- A rebind in progress (R262): who stored, the handles from `first`, their descriptors, the local address of the
descriptors, and the cycle in which it completes. -/
structure Rebind where
  who : Requester
  pc : Word
  first : Nat
  addr : Nat
  descs : List (BitVec 128)
  due : Nat
deriving DecidableEq, Repr

/-- A level of a stream program's loop stack (R283). -/
structure SLoop where
  level : Nat
  idx : Nat
  cnt : Nat
  top : Nat
deriving DecidableEq, Repr

/-- The states of a stream unit (R301 SSTAT.STATE). -/
inductive SState where
  | idle | run | waitRing | waitData | layer | fault
deriving DecidableEq, Repr

/-- 64 bytes in flight with a poison bit per word. -/
structure Unit64 where
  data : BitVec 512
  poison : BitVec 16
deriving DecidableEq, Repr

/-- What an IN unit has asked for (R283, R284): the blank of a SKIP, a unit of this device, or a unit of another device under
its operation number, with what its answer has brought. -/
inductive SWhat where
  | blank
  | here (space : BitVec 4) (off : Nat)
  | far (id : Nat) (got : Option (Option Unit64))
deriving DecidableEq, Repr

/-- A move of an IN unit whose data have not arrived: its program word and its far byte offset. -/
structure SMove where
  spc : Nat
  off : Nat
  what : SWhat
deriving DecidableEq, Repr

/-- What the sequencer has met after the moves asked for (R282, R283): a boundary, the end, or a fault with its program
word. -/
inductive SEnd where
  | mark
  | finish
  | fault (reason spc : Nat) (faddr : Word)
deriving DecidableEq, Repr

/-- An OUT write of a stream unit that is not acknowledged (R287): its operation number, the ring half it was taken from, its
program word and far byte offset, and, for a write on this device, whether the memory answered with an error. -/
structure SWrite where
  id : Nat
  half : Bool
  spc : Nat
  off : Nat
  err : Option Bool
deriving DecidableEq, Repr

/-- One stream unit (R281 to R301). `ringBase` and `ringLen` are the ring resolved at START; `pc` to `far` are the
sequencer's registers of R283, `done` the moves of the current XFER or SKIP already made; `asked` are the moves of an IN unit
whose data have not arrived, in order, and `met` what the sequencer met after them; `pos` is the ring position in
units of 64 bytes, `filled` the units in the half being filled, `rows` the rows that have arrived and wait for a grant;
`left` the handed-over units of each half still to be read, each half under the number of its hand-over, `writes` the
unacknowledged OUT writes; `held` the halves the program owns, `count0` and `count1` the units of each half that O_u counts
(R292), `nextHalf` SSTAT.NEXT, `last` SSTAT.LAST; `ending` says that the layer which closes is the last (END), `stopping`
that a STOP waits for acknowledgements; `fault` holds FADDR and INFO of the runtime faults not yet delivered, oldest
first. -/
structure StreamUnit where
  st : SState
  ringBase : Nat
  ringLen : Nat
  pc : Nat
  loops : List SLoop
  a : Nat
  win : Nat
  strides : Tab (BitVec 22)
  far : Option (BitVec 128)
  done : Nat
  asked : List SMove
  met : Option SEnd
  pos : Nat
  filled : Nat
  rows : List (List Unit64)
  left : List (Nat × Nat)
  writes : List SWrite
  held : BitVec 2
  count0 : Nat
  count1 : Nat
  nextHalf : Bool
  last : Nat
  ending : Bool
  stopping : Bool
  err : Bool
  fault : List (Word × Word)
deriving DecidableEq, Repr

/-- A stream unit after core reset (R301). -/
def StreamUnit.reset : StreamUnit where
  st := .idle
  ringBase := 0
  ringLen := 0
  pc := 0
  loops := []
  a := 0
  win := 0
  strides := []
  far := none
  done := 0
  asked := []
  met := none
  pos := 0
  filled := 0
  rows := []
  left := []
  writes := []
  held := 0
  count0 := 0
  count1 := 0
  nextHalf := false
  last := 0
  ending := false
  stopping := false
  err := false
  fault := []

/-- A far read that has been sent (R312): its operation number, its resolved source, the local address it writes, and its signal. -/
structure FarRead where
  id : Nat
  space : BitVec 4
  dev : BitVec 16
  off : Nat
  dst : Nat
  sig : Bool
  flag : BitVec 6
deriving DecidableEq, Repr

/-- The sender of a post or signal, to whom a credit or a dead letter returns (R318, R333, R436): a core of this device
with its channel entry and the binding of that entry, or another device with the VC and ESEQ of the unit. -/
inductive Org where
  | here (core entry gen : Nat)
  | far (dev : BitVec 16) (vc : BitVec 3) (eseq : BitVec 16)
deriving DecidableEq, Repr

/-- A descriptor in a receive queue (R325) with its sender; a reduction result (R276) has none. -/
structure QEntry where
  desc : BitVec 128
  org : Option Org
deriving DecidableEq, Repr

/-- An entry of the dead-letter queue (R333, R346). -/
structure DeadLetter where
  words : BitVec 128
  status : BitVec 8
  kind : BitVec 2
  origin : BitVec 6
deriving DecidableEq, Repr

/-- The dispatch shadow (R328). -/
structure Shadow where
  acc : Word
  acg : BitVec 8
  ix : Word
  iy : Word
  flags : Word
deriving DecidableEq, Repr

/-- A notification for the supervisor (R128): a thread's stop with its cause and frame address, or an orphan wait with the
threads that were WAITING; and the cluster cycle from which it is pending. -/
inductive Note where
  | stopped (k : Fin 4) (code : BitVec 8) (frame : Word) (due : Nat)
  | orphan (mask : BitVec 4) (due : Nat)
deriving DecidableEq, Repr

/-- A transfer of the frame path that is not over (R583): the cycle in which it became due, its thread, and its last cycle. -/
structure FrameMove where
  due : Nat
  t : Fin 4
  last : Nat
deriving DecidableEq, Repr

/-- One scalar core with its units. `held` is the reset hold of R491, `cycBase` the cluster cycle at the release of
reset (R127). `csr` holds the words of the CSR pages that have no field of their own, by offset from 0x0010_0000;
`slotPend` the SLOT writes not yet in effect (R120). `at` is keyed by 1024 a + 32 row + column, `tt` by 2048 n + 64 row +
byte, `tscale` by 128 n + 4 row + block. `pdThread` is the thread that was dispatched (R328, R329). `frames` holds the transfers of the frame path in their order (R583). `gen` counts the bindings of each channel entry (R318). -/
structure Core where
  held : Bool
  cycBase : Nat
  th : Vector Thread 4
  gates : Tab (Option (Cap × Cap))
  mem : Mem
  csr : Tab Word
  slotPend : List (Nat × Word)
  notes : List Note
  frames : List FrameMove
  orphanRaised : Bool
  escActive : Bool
  halted : Bool
  escThread : Fin 4
  escCause : BitVec 8
  escOrig : BitVec 8
  jtag : Bool
  selErr : Bool
  seed : BitVec 64
  seedLo : Word
  numPend : List PendSet
  vregs : Tab (BitVec 512)
  vq : List VecOp
  vscalePend : List PendSet
  tt : Tab Byte
  tscale : Tab Byte
  accTiles : Tab Word
  accTypes : BitVec 4
  tq : List TileOp
  tcfgPend : List PendSet
  handles : Tab (BitVec 128)
  rebinds : BitVec 16
  rebind : Option Rebind
  su : Vector StreamUnit 4
  far : List FarRead
  queues : Vector (List QEntry) 4
  pdActive : Bool
  pdThread : Fin 4
  pdQueue : BitVec 2
  shadow : Shadow
  dlq : List DeadLetter
  credit : Tab (BitVec 5)
  chClosed : Tab Bool
  gen : Tab Nat
  flags : Tab Byte
  barArr : BitVec 16
deriving DecidableEq, Repr

/-- A core after core reset (R33, R84, R113 and the Reset columns of its CSR pages), held in reset (R491). -/
def Core.reset : Core where
  held := true
  cycBase := 0
  th := Vector.replicate 4 Thread.reset
  gates := []
  mem := Mem.empty
  csr := []
  slotPend := []
  notes := []
  frames := []
  orphanRaised := false
  escActive := false
  halted := false
  escThread := 0
  escCause := 0
  escOrig := 0
  jtag := false
  selErr := false
  seed := 0x9E3779B97F4A7C15
  seedLo := 0x7F4A7C15
  numPend := []
  vregs := []
  vq := []
  vscalePend := []
  tt := []
  tscale := []
  accTiles := []
  accTypes := 0
  tq := []
  tcfgPend := []
  handles := []
  rebinds := 0
  rebind := none
  su := Vector.replicate 4 StreamUnit.reset
  far := []
  queues := Vector.replicate 4 []
  pdActive := false
  pdThread := 0
  pdQueue := 0
  shadow := ⟨0, 0, 0, 0, 0⟩
  dlq := []
  credit := []
  chClosed := []
  gen := []
  flags := []
  barArr := 0

/-- A control core after its reset (R484, R486): one thread, T0, with the control cores' roots. -/
def Core.resetSo : Core :=
  { Core.reset with th := Core.reset.th.set 0 Thread.resetSo }

/-- The reset contents of core slot `s`: 0 to 575 are the sites, 576 to 579 the control cores. -/
def coreDefault (slot : Nat) : Core := if slot < 576 then Core.reset else Core.resetSo

end Sys2Proof.Machine
end

