-- ==== Sys2Proof/Machine/Memory.lean ====
section
/-! DEFINITION. The protected memories (R85, R86, R266 to R271): reads that correct and poison, stores that clear tags,
and the poison of words. `u` is the size in bytes of the protected word: 4 on chip (R266), 32 for an HBM group (R381) and
8 for LPDDR5X (R382). -/
namespace Sys2Proof.Machine

/-- The default of the byte table: an unlisted byte reads as zero. -/
def byteDefault (_ : Nat) : Byte := 0
/-- The default of the check table: an unlisted word is good. -/
def checkDefault (_ : Nat) : Check := .good
/-- The default of the tag table: an unlisted granule's tag is clear. -/
def tagDefault (_ : Nat) : Bool := false

/-- The canonical form of a memory: in each of its tables the keys rise strictly and no entry equals what an unlisted
key reads as, so that equal contents are equal data. -/
def Memory.wf (m : Mem) : Bool :=
  twf byteDefault m.bytes && twf checkDefault m.check && twf tagDefault m.tags && twf tagDefault m.split

/-- The byte at `a`. -/
def memByte (m : Mem) (a : Nat) : Byte := tget byteDefault m.bytes a

/-- The check state of word `w`. -/
def memCheck (m : Mem) (w : Nat) : Check := tget checkDefault m.check w

/-- The tag of granule `g` (R85). -/
def memTag (m : Mem) (g : Nat) : Bool := tget tagDefault m.tags g

/-- One of the three tag copies of granule `g` differs from the other two, which give the tag (R271). -/
def memSplit (m : Mem) (g : Nat) : Bool := tget tagDefault m.split g

/-- The byte at `a` becomes `v`; nothing else changes. -/
def memSetByte (m : Mem) (a : Nat) (v : Byte) : Mem := { m with bytes := tset byteDefault m.bytes a v }

def memSetCheck (m : Mem) (w : Nat) (c : Check) : Mem := { m with check := tset checkDefault m.check w c }

/-- The tag of granule `g` is written: all three copies hold `b`. -/
def memSetTag (m : Mem) (g : Nat) (b : Bool) : Mem :=
  { m with tags := tset tagDefault m.tags g b, split := tset tagDefault m.split g false }

/-- The bytes from `a`, `n` of them. -/
def memBytes (m : Mem) (a n : Nat) : List Byte := (upFrom a n).map (memByte m)

/-- The bytes `bs` stand from `a` on. -/
def memPutBytes (m : Mem) (a : Nat) : List Byte → Mem
  | [] => m
  | b :: bs => memPutBytes (memSetByte m a b) (a + 1) bs

/-- The words of `u` bytes that the `n` bytes from `a` touch. -/
def wordsOf (u a n : Nat) : List Nat :=
  if n = 0 then [] else upFrom (a / u) ((a + n - 1) / u + 1 - a / u)

/-- Word `w` is poisoned: its data is zero and its check bits are those of poison (R266). -/
def memPoisonWord (u : Nat) (m : Mem) (w : Nat) : Mem :=
  memSetCheck (memPutBytes m (w * u) (List.replicate u 0)) w .poison

/-- What a read of words leaves (R267): the repaired memory, the number of corrected errors, and the addresses of the
words found uncorrectable, which are now poison. -/
structure Settled where
  mem : Mem
  ce : Nat
  ues : List Nat
deriving DecidableEq, Repr

/-- A read meets each of the words `ws` (R267, R268): a correctable word is rewritten corrected, an uncorrectable one
is rewritten as poison. -/
def settleWords (u : Nat) : Mem → List Nat → Settled
  | m, [] => ⟨m, 0, []⟩
  | m, w :: ws =>
    match memCheck m w with
    | .single => let r := settleWords u (memSetCheck m w .good) ws; { r with ce := r.ce + 1 }
    | .double => let r := settleWords u (memPoisonWord u m w) ws; { r with ues := w * u :: r.ues }
    | _ => settleWords u m ws

/-- Any of the words under the `n` bytes at `a` is poison. -/
def memPoisoned (u : Nat) (m : Mem) (a n : Nat) : Bool := (wordsOf u a n).any (fun w => memCheck m w == .poison)

/-- The check state of word `w` after a store covers all of it or part of it (R45, R269, R270). A correction by a
store counts in no register (DESIGN CHOICE, log 162). -/
def checkAfterStore (u : Nat) (m : Mem) (a n w : Nat) : Check :=
  if a ≤ w * u ∧ (w + 1) * u ≤ a + n then .good
  else match memCheck m w with
    | .single => .good
    | c => c

def storeChecks (u : Nat) (a n : Nat) : Mem → List Nat → Mem
  | m, [] => m
  | m, w :: ws => storeChecks u a n (memSetCheck m w (checkAfterStore u m a n w)) ws

/-- The tags of the granules of `gs` become clear (R85). -/
def clearTags : Mem → List Nat → Mem
  | m, [] => m
  | m, g :: gs => clearTags (memSetTag m g false) gs

/-- The tags of the granules `gs` are read (R271): a copy that differs is rewritten. The number of copies rewritten. -/
def mendTags : Mem → List Nat → Mem × Nat
  | m, [] => (m, 0)
  | m, g :: gs =>
    if memSplit m g then
      let r := mendTags { m with split := tset tagDefault m.split g false } gs
      (r.1, r.2 + 1)
    else mendTags m gs

/-- A write that is not of a capability (R45, R85): the bytes land, a wholly covered word becomes good, a partly
covered word keeps its poison, and every touched granule loses its tag. -/
def memStore (u : Nat) (m : Mem) (a : Nat) (bs : List Byte) : Mem :=
  clearTags (storeChecks u a bs.length (memPutBytes m a bs) (wordsOf u a bs.length)) (wordsOf 16 a bs.length)

/-- An STK or a save-frame granule (R85, R102): 16 bytes with fresh check bits, and the granule's tag. -/
def memStoreCap (m : Mem) (a : Nat) (bs : List Byte) (tag : Bool) : Mem :=
  memSetTag (memStore 4 m a bs) (a / 16) tag

/-- The little-endian number in the `n` bytes at `a` (R11). -/
def memNat (m : Mem) (a n : Nat) : Nat := leNat (memBytes m a n)

/-- The word at `a`. -/
def memWord (m : Mem) (a : Nat) : Word := BitVec.ofNat 32 (memNat m a 4)

/-- The poison of the 4-byte words under a run of bytes, bit `i` for word `i`. -/
def poisonMask (m : Mem) (a n : Nat) : Nat :=
  leNat ((upFrom 0 ((n / 4 + 7) / 8)).map fun b =>
    BitVec.ofNat 8 ((upFrom 0 8).foldl (fun acc j =>
      if 8 * b + j < n / 4 ∧ memCheck m (a / 4 + 8 * b + j) = .poison then acc + 2 ^ j else acc) 0))

/-- Whether word `i` of a mask is set. -/
def maskBit (p i : Nat) : Bool := p / 2 ^ i % 2 == 1

/-- A copy of `n` bytes, four by four, that carries poison (R267, R290): a word whose mask bit is set becomes poison. -/
def memCopyWords (u : Nat) (poison : Nat) : Nat → Nat → Mem → List Byte → Mem
  | 0, _, m, _ => m
  | n + 1, a, m, bs =>
    let m := memStore u m a (bs.take 4)
    let m := if poison % 2 = 1 then memPoisonWord u m (a / u) else m
    memCopyWords u (poison / 2) n (a + 4) m (bs.drop 4)

end Sys2Proof.Machine
end

