-- ==== Sys2Proof/Machine/Regs.lean ====
section
/-! DEFINITION. The registers by number: for every word of the core CSR pages, of a control core's SO page and of
device CSR space that holds state, which of its bits a write sets (RW), which it clears (W1C), and its reset value
(R4, R6, R9). A word that is not listed holds no state: it reads as zero or as a view computed from other state. -/
namespace Sys2Proof.Machine

/-- The access codes of a register's bits (R4) and its reset value. -/
structure RegSpec where
  rw : Word
  w1c : Word
  reset : Word
deriving DecidableEq, Repr

/-- A word that holds no bits of its own (reserved, read-only view, or write-only action). -/
def RegSpec.none : RegSpec := ⟨0, 0, 0⟩

/-- The value a word takes when software writes `v` (R4, R6): RW bits take `v`, a one clears a W1C bit, every other
bit stays. -/
def RegSpec.write (r : RegSpec) (old v : Word) : Word :=
  (old &&& ~~~r.rw &&& ~~~(r.w1c &&& v)) ||| (v &&& r.rw)

/-- As `write`, but a W1C bit that the part has set in this cycle stays set (R5). -/
def RegSpec.writeNow (r : RegSpec) (now old v : Word) : Word := r.write old v ||| (old &&& r.w1c &&& now)

/-- The words of the core CSR pages, by offset from 0x0010_0000 (R111, R126 to R145, R182, R203, R237, R301, R314,
R346, R347, R371). -/
def coreReg (o : Nat) : RegSpec :=
  if o % 4 ≠ 0 then .none
  else if o = 0x0040 then ⟨0x00000001, 0, 0⟩                                 -- MEMORY_CTL
  else if o = 0x1000 then ⟨0x0F000300, 0, 0⟩                                 -- THREAD_CTL
  else if 0x1010 ≤ o ∧ o < 0x1020 then ⟨0xFFFFFFFC, 0, 0⟩                    -- THREAD_START0-3
  else if 0x1020 ≤ o ∧ o < 0x1040 then ⟨0x0000B103, 0, 0⟩                    -- SLOT0-7
  else if 0x1050 ≤ o ∧ o < 0x1060 then ⟨0x0000003F, 0, 0⟩                    -- WAKE_EN0-3
  else if o = 0x1074 then ⟨0xFFFFFFFF, 0, 0xFFFFFFFF⟩                        -- CYC_CMP
  else if 0x2000 ≤ o ∧ o < 0x2010 then ⟨0x00000107, 0, 0⟩                    -- TRAP_CTL0-3
  else if o = 0x2010 then ⟨0x000007FF, 0, 0x400⟩                             -- CLOSE_LIMIT
  else if o = 0x2014 then ⟨0x000000FF, 0, 0⟩                                 -- GATE_LOCK
  else if o = 0x3000 then ⟨0x00000007, 0, 0⟩                                 -- NUMERIC_CTL
  else if o = 0x3004 then ⟨0, 0x00001F1F, 0⟩                                 -- NUM_FLAGS
  else if o = 0x3008 then ⟨0, 0x00000001, 0⟩                                 -- NUM_STAT
  else if 0x3100 ≤ o ∧ o < 0x3180 then
    (if o % 16 = 12 then .none else ⟨0xFFFFFFFF, 0, 0⟩)                      -- NUM_SAT/FLUSH/NAN
  else if 0x4000 ≤ o ∧ o < 0x4020 then ⟨0x8F1FF01F, 0, 0x0000F01F⟩           -- TILE_CFG0-7
  else if o = 0x4020 then ⟨0xBBBBBBBB, 0, 0⟩                                 -- TILE_OWN0
  else if o = 0x4024 then ⟨0x0000BBBB, 0, 0⟩                                 -- TILE_OWN1
  else if o = 0x4030 then ⟨0xFFFFFFFF, 0, 0⟩                                 -- TILE_ABORTS
  else if 0x4C00 ≤ o ∧ o < 0x4C40 then ⟨0xFFFFFFFF, 0, 0x7F7F7F7F⟩           -- VSCALE0-15
  else if o = 0x4C40 then ⟨0x0000FFFF, 0, 0⟩                                 -- VSEN
  else if 0x6000 ≤ o ∧ o < 0x6400 then ⟨0xFFFFFFFF, 0, 0⟩                    -- SPROG
  else if 0x6400 ≤ o ∧ o < 0x6480 then
    (if o % 0x20 = 0 then ⟨0x8C3F3FFF, 0, 0⟩ else .none)                     -- SCTL0-3
  else if o = 0x6484 then ⟨0x00FFFFFF, 0, 0⟩                                 -- SIDLE
  else if 0x6490 ≤ o ∧ o < 0x64B0 then
    (if o % 8 = 0 then ⟨0xFFFFFFFF, 0, 0⟩ else .none)                        -- FOFF0-3
  else if o = 0x7000 then ⟨0x00007F03, 0, 0x3⟩                               -- POST_CTL
  else if 0x7010 ≤ o ∧ o < 0x7020 then ⟨0x80000700, 0, 0⟩                    -- POST_Q0-3
  else if o = 0x7044 then ⟨0xFFFFFFFF, 0, 0⟩                                 -- DL_LOST
  else if 0x7100 ≤ o ∧ o < 0x7200 then
    (if o % 8 = 0 then ⟨0xFFFF03FF, 0, 0⟩ else ⟨0xB030001F, 0, 0⟩)           -- CHT_LO, CHT_HI
  else if 0x8040 ≤ o ∧ o < 0x8060 then ⟨0x77777777, 0, 0x11111111⟩           -- FSCOPE0-7
  else if o = 0x8060 then ⟨0xFFFFFFFF, 0, 0⟩                                 -- FSAT
  else if o = 0x8064 then ⟨0, 0x80000000, 0⟩                                 -- FSAT_LAST
  else if o = 0x8080 then ⟨0x0000FFFF, 0, 0⟩                                 -- BAR_MEMB
  else if o = 0x8088 then ⟨0, 0x80000000, 0⟩                                 -- BAR_STAT
  else if o = 0x9008 then ⟨0x0003FFFF, 0, 0⟩                                 -- DBG_SEL
  else if o = 0x9010 then ⟨0x003F0000, 0, 0⟩                                 -- DBG_FLAG.INDEX
  else if o = 0x9014 then ⟨0x000F0000, 0, 0⟩                                 -- DBG_BARRIER.NET
  else .none

/-- The words of a control core's SO page, by offset (R490). -/
def soReg (o : Nat) : RegSpec :=
  if o % 4 ≠ 0 then .none
  else if o < 0x080 then (if o % 8 = 0 then ⟨0xF8000003, 0, 0⟩ else ⟨0xFFFFFFFF, 0, 0⟩)
  else if o = 0x080 then ⟨0x0000000F, 0, 0⟩                                  -- L2_LOCK
  else if o = 0x090 then ⟨0xFFFFFFFF, 0, 0⟩                                  -- CMO_ADDR
  else if o = 0x094 then ⟨0xFFFFFFFF, 0, 0⟩                                  -- CMO_LEN
  else .none

/-- The words of a courier channel, by offset within it (R314). CSTAT holds STATUS, and CRES its word. -/
def courierReg (o : Nat) : RegSpec :=
  if o < 0x18 then ⟨0xFFFFFFFF, 0, 0⟩                                        -- CSRC, CDST, CCOUNT, CFILL
  else if o = 0x18 then ⟨0x8F030000, 0, 0⟩                                   -- CCTL
  else if o = 0x1C then ⟨0x83FF003F, 0, 0⟩                                   -- CNOTIFY
  else if o = 0x28 then ⟨0x800003FF, 0, 0⟩                                   -- CHOWN
  else .none

/-- The words of the Routes block, by offset within it (R279, R450). -/
def routesReg (o : Nat) : RegSpec :=
  if o = 0x000 then ⟨0x0000FFFF, 0, 0xFFFF⟩                                  -- FAB_DEV
  else if o = 0x004 then ⟨0x000FFFFF, 0, 0xC0000⟩                            -- FAB_CTL
  else if o = 0x008 then ⟨0x8000FFFF, 0, 0⟩                                  -- FAB_MGMT
  else if o = 0x010 then ⟨0xFFFFFFFF, 0, 0⟩                                  -- E2E_CNT0
  else if o = 0x014 then ⟨0xFFFFFFFF, 0, 0⟩                                  -- E2E_CNT1
  else if o = 0x018 then ⟨0xFFFF0000, 0, 0⟩                                  -- E2E_CNT2
  else if 0x1000 ≤ o ∧ o < 0x1A00 then ⟨0xC00000FF, 0, 0⟩                    -- GROUP, MEMBER
  else if 0x2000 ≤ o ∧ o < 0x2400 then
    (let r := o % 0x40
     if r = 0x00 then ⟨0xF03F001F, 0, 0⟩                                     -- FT_CTL
     else if r = 0x04 then ⟨0x0000FFFF, 0, 0⟩                                -- FT_PARENT
     else if r < 0x28 then ⟨0xFFFFFFFF, 0, 0⟩                                -- FT_CHILD
     else if r = 0x28 then ⟨0xFFF01FFF, 0, 0⟩                                -- FT_DEST
     else if r = 0x2C then ⟨0, 0xF0000000, 0⟩                                -- FT_STAT
     else .none)
  else if 0x8000 ≤ o ∧ o < 0x8400 then
    (let r := o % 16
     if r = 0 then ⟨0xEF3F03FF, 0, 0⟩                                        -- MR_CTL
     else if r = 4 then ⟨0x03FF03FF, 0, 0⟩                                   -- MR_MEMB
     else if r = 8 then ⟨0x3007FFFF, 0, 0⟩                                   -- MR_DEST
     else ⟨0x3FFFFFFF, 0xC0000000, 0⟩)                                       -- MR_STAT
  else .none

/-- The words of a port, by offset within it (R421). -/
def portReg (o : Nat) : RegSpec :=
  if o = 0x000 then ⟨0xF000FFFF, 0, 0⟩                                       -- PORT_CFG
  else if o = 0x010 then ⟨0xFFFFFFFF, 0, 0⟩                                  -- PORT_CNT0
  else if o = 0x014 then ⟨0xFFFFFFFF, 0, 0⟩                                  -- PORT_CNT1
  else if o = 0x018 then ⟨0xFFFF0000, 0, 0⟩                                  -- PORT_CNT2
  else if 0x020 ≤ o ∧ o < 0x040 then ⟨0x00FFFFFF, 0, 0⟩                      -- PORT_LANE0-7
  else .none

/-- The words of the HBM and LPDDR5X blocks, by offset within them (R394, R395). -/
def extMemReg (lp : Bool) (o : Nat) : RegSpec :=
  if o = 0x018 then ⟨0, 0x80000000, 0⟩                                       -- UE_LOC
  else if 0x100 ≤ o ∧ o < 0x140 then (if lp then ⟨0x7FFFFFFF, 0, 0⟩ else ⟨0x3FFFFFFF, 0, 0⟩)
  else .none

/-- The words of the block "Clusters and power" that hold bits of their own (R272, R491, R542). -/
def clusterReg (o : Nat) : RegSpec :=
  if o < 0x800 then
    (let r := o % 0x100
     if r = 0x08 then ⟨0x03FFFFFF, 0, 0⟩                                     -- CL_CSRA
     else if r = 0x40 then ⟨0x00000003, 0, 0x2⟩                              -- CL_PWR NAPOK, OFFOK
     else if r = 0x48 then ⟨0xFFFFFFFF, 0, 0⟩                                -- CL_PWRCNT
     else .none)
  else if o < 0x880 then
    (let r := o % 0x10
     if r = 0 then ⟨0xFFFFFFFF, 0, 0⟩                                        -- SRAM_ERR
     else if r = 4 then ⟨0, 0x80000000, 0⟩                                   -- SRAM_UE_LOC
     else if r = 0xC then ⟨0x0000FFFF, 0, 0⟩                                 -- TAG_FIX
     else .none)
  else .none

/-- The words of the ingest and sealing block, by offset within it (R483). -/
def ingestReg (o : Nat) : RegSpec :=
  if o = 0x000 then ⟨0xFFFFFFFF, 0, 0⟩                                       -- INGEST_IDLE_LIMIT
  else if o = 0x008 then ⟨0, 0x80000000, 0⟩                                  -- KS_STAT.KSPOIS
  else if o = 0x00C then ⟨0, 0x80000000, 0⟩                                  -- SEAL_STAT.FULL
  else if o = 0x018 then ⟨0x07FFFFFF, 0, 0x040005B9⟩                         -- BATCH_CTL
  else if o = 0x028 ∨ o = 0x02C then ⟨0xFFFFFFFF, 0, 0⟩                      -- RCPT_BASE
  else if o = 0x030 then ⟨0xFFFFFFFF, 0, 0⟩                                  -- RCPT_ACK
  else if o = 0x038 ∨ o = 0x03C then ⟨0xFFFFFFFF, 0, 0⟩                      -- KS_ADDR
  else if o = 0x048 ∨ o = 0x04C then ⟨0xFFFFFFFF, 0, 0⟩                      -- ATT_ADDR
  else if o = 0x058 ∨ o = 0x05C then ⟨0xFFFFFFFF, 0, 0⟩                      -- FW_ADDR
  else if 0x100 ≤ o ∧ o < 0x120 then ⟨0xFFFFFFFF, 0, 0⟩                      -- ING_OUT
  else if 0x200 ≤ o ∧ o < 0x280 then ⟨0xFFFFFFFF, 0, 0⟩                      -- PT_W
  else if o = 0x284 then ⟨0, 0x80000000, 0⟩                                  -- PT_STAT.ERR
  else .none

/-- The words of device CSR space 0x6, by offset (R25). -/
def devReg (o : Nat) : RegSpec :=
  if o % 4 ≠ 0 then .none
  else if 0x10000 ≤ o ∧ o < 0x20000 then clusterReg (o - 0x10000)
  else if 0x20000 ≤ o ∧ o < 0x30000 then
    (if o % 0x2000 < 0x400 then courierReg (o % 0x40) else .none)
  else if 0x40000 ≤ o ∧ o < 0x50000 then extMemReg false (o - 0x40000)
  else if 0x50000 ≤ o ∧ o < 0x60000 then extMemReg true (o - 0x50000)
  else if 0x60000 ≤ o ∧ o < 0x70000 then portReg (o % 0x1000)
  else if 0x70000 ≤ o ∧ o < 0x80000 then routesReg (o - 0x70000)
  else if 0x80000 ≤ o ∧ o < 0x90000 then ingestReg (o - 0x80000)
  else .none

end Sys2Proof.Machine
end

