-- ==== Sys2Proof/Machine/StateDev.lean ====
section
/-! DEFINITION. The state of the device outside its cores: sites and clusters, shared SRAM, the mesh planes, mesh
routes, barriers and couriers (R15 to R32, R242 to R279, R302 to R345, R491, R527 to R543). -/
namespace Sys2Proof.Machine

/-- The states of a site in the fuse map (R253). -/
inductive SiteState where
  | enabled | spare | disabled | hole
deriving DecidableEq, Repr

/-- The power states of a cluster (R530); `waking` is the time between a wake cause and RUN. -/
inductive PState where
  | run | idle | nap | off
deriving DecidableEq, Repr

/-- The service states of CL_STAT.SERVICE (R491). -/
inductive Service where
  | inService | draining | drained | unavailable
deriving DecidableEq, Repr

/-- A unit on the message plane (R252, R332, R345): a post or a signal with its sender and its word 3, a signal of a
mesh route, a returned credit, and a returned dead letter. -/
inductive Msg where
  | post (org : Org) (dst : Nat) (queue : BitVec 2) (desc : BitVec 128)
  | signal (org : Org) (dst : Nat) (f : BitVec 6) (word3 : Word)
  | routed (dst : Nat) (f : BitVec 6)
  | credit (dst entry gen : Nat)
  | dead (dst : Nat) (letter : DeadLetter)
deriving DecidableEq, Repr

/-- A unit that waits for a sleeping cluster to reach RUN (R532): a message-plane unit, a barrier release or a reduction
result. -/
inductive HeldUnit where
  | msg (m : Msg)
  | barrier (net : BitVec 4)
  | reduction (r : BitVec 6)
deriving DecidableEq, Repr

/-- One cluster (R491, R527 to R533, R542). `cyc` counts its clock cycles; `stopUntil` is the mesh cycle before which
its clock is stopped (R528); `effOld` and `raiseOld` are the effective point and the raising that waited at the end of the
mesh cycle before `effAt`, the last in which that point changed (R527); `raise` is a raising that waits, with the mesh cycle
from which its wait counts; `ceilNow` says that a ceiling has a part in what changed in mesh cycle `effAt`, and `ceilOld` that one
has a part in the change that waited before it (R529); `napOrder`
and `offOrder` are Night Mail orders on their way, `wakeSeen` a wake cause since they were decided; `waking` the state it
leaves when a wake cause has reached it; `held` the units that wait for RUN (R532); `quietTicks` and `drainTicks` count
the ticks of R533. -/
structure Cluster where
  cyc : Nat
  run : BitVec 2
  req : BitVec 2
  ceil : BitVec 2
  eff : BitVec 2
  effOld : BitVec 2
  raiseOld : Option Nat
  effAt : Option Nat
  power : PState
  waking : Bool
  service : Service
  csrErr : Bool
  stopUntil : Nat
  raise : Option Nat
  ceilOld : Bool
  ceilNow : Bool
  napOrder : Bool
  offOrder : Bool
  wakeSeen : Bool
  quietTicks : Nat
  drainTicks : Nat
  heldUnits : List HeldUnit
deriving DecidableEq, Repr

/-- A cluster after reset: P2 requested and running, OFF, unavailable (R491, R540, R542). -/
def Cluster.reset : Cluster where
  cyc := 0
  run := 2
  req := 2
  ceil := 0
  eff := 2
  effOld := 2
  raiseOld := none
  effAt := none
  power := .off
  waking := false
  service := .unavailable
  csrErr := false
  stopUntil := 0
  raise := none
  ceilOld := false
  ceilNow := false
  napOrder := false
  offOrder := false
  wakeSeen := false
  quietTicks := 0
  drainTicks := 0
  heldUnits := []

/-- An open or closed round of a mesh route (R274): each member that has contributed, with its elements as FP32 or
INT32 words, and whether any of them was poisoned. -/
structure Round where
  parts : List (Nat × List Word)
  poison : Bool
deriving DecidableEq, Repr

/-- The states of a courier channel (R314 CSTAT.STATE). -/
inductive CState where
  | idle | active | pausing | paused
deriving DecidableEq, Repr

/-- The reads of one unit of a channel (R305, R306): its far byte offset, and what each operand's read has brought; a read of
another device is under its operation number. -/
structure CRead where
  off : Nat
  x : Nat × Option (Option Unit64)
  y : Nat × Option (Option Unit64)
deriving DecidableEq, Repr

/-- One courier channel's state beside its registers: the doorbell's core and command block, the bytes already done and
those asked for since its start, the units left of the burst it was granted (R308), its reads without a result in order, the
result that ends it, and whether an ABORT waits for its drain (R304 to R311). -/
structure Channel where
  st : CState
  block : Option (Nat × Nat)
  doneBytes : Nat
  total : Nat
  issued : Nat
  burst : Nat
  reads : List CRead
  result : Option (BitVec 8 × Nat)
  aborting : Bool
deriving DecidableEq, Repr

def Channel.reset : Channel := ⟨.idle, none, 0, 0, 0, 0, [], none, false⟩

/-- What leaves the module, in the order in which it left: an MSI-X message of a vector (R495), a flit that fills a slot of a port (R405), the PAM4 levels of
each lane for a unit whose slots are filled (R400), a training frame (R403), the answer to a
management I3C read (R596), a meter readout (R560), the word that a register read returns (R141, R492), the answer
to a unit that an external memory has served (R376), a report, a START frame and an update image on the report link (R552, R557), and an in-band interrupt of the
management target (R596). -/
inductive Output where
  | msi (vector : Nat)
  | flit (port : Nat) (f : BitVec 640)
  | lanes (port : Nat) (levels : List (List (BitVec 2)))
  | frame (port : Nat) (bytes : List Byte)
  | i3c (bytes : List Byte)
  | mtr (bytes : List Byte)
  | word (value : Word)
  | report (f : ReportFrame)
  | hubStart
  | update (image : List Byte)
  | ibi
  | answer (err : Bool) (data : BitVec 512) (poison : BitVec 16)
deriving DecidableEq, Repr

end Sys2Proof.Machine
end

