-- ==== Sys2Proof/Machine/StateFab.lean ====
section
/-! DEFINITION. The state of the external memories' controllers, the fabric ports and the fabric memory space
(R372 to R450), beside their registers. -/
namespace Sys2Proof.Machine

/-- The training phases of a port (R403). -/
inductive TPhase where
  | detect | equalise | identify | measure | fecStart | latency
deriving DecidableEq, Repr

/-- One fabric port's link layer (R403 to R420). `cfg` is the PORT_CFG that the last training took. `peerRole` to
`peerSeq` come from the peer's training frames, `sawStart` says that it has sent START and `eqDone` that this side's equalisation has ended, which READY
reports (R403). `coefs` are the taps of each lane's
transmitter, in steps from the preset, by 8 × lane + tap; `coefReq` the requests sent on each lane, `coefStat` what became of
the peer's last request there, and `coefAns` what the peer reports of ours (R403). `expect` is the next LSEQ to
receive, `waiting` that flits are discarded until it arrives (R410), `nakDue` that a NAK is newly due, `ackv` that some
flit has been accepted; `linkDue` and `changed` say that VC0 credit is due and that ACK or CRED has changed (R409).
`nextSeq` numbers sent flits; `replay` holds the unacknowledged ones, oldest first, with the mesh cycle of their first
release, of which the last `resend` are still to be released again; `nakSeq` is a NAK not yet served, `ignore` the flit
whose NAKs are ignored and until when (R411). `slots` counts the slots since the last LINK flit; `unit` are the flits of the
block or round that fills, `roundCtr` the round counter (R399, R401), `badRuns` the consecutive uncorrectable codewords of each
lane (R402); `txq` holds units not yet sent, `resent` those that
recovery has moved here (R446), `rx` units received and not yet applied. `cred` and `sent` are CREDv and
SENTv, `freed` the buffers freed per VC since FEC START (R413). `probes` are the latency values formed, in half cycles,
`proposed` the peer's proposal (R415). `stopTx` says that the peer has quiesced this side, `answer` that PORT_QUIESCED is
owed, `asked` and `quiesced` that this side has asked and been answered (R417). `quiesceThen` says what waits for the
quiesce: 1 a full training, 2 a retirement. `shut` says that a retirement has closed the port to VC1 to VC7 until a loaded
entry names it (R575). `eseq` numbers the units forwarded to an endpoint, `orig` holds the
ESEQ that each such unit of the replay buffer had, by LSEQ, `fwd` those not yet
acknowledged: VC, number there, source and number at the source (R435). `again` says that the training is a retrain. `hole` is the
pigeonhole whose command waits for the port. -/
structure Port where
  cfg : BitVec 32
  phase : TPhase
  fast : Bool
  again : Bool
  serOk : Bool
  peerRole : BitVec 8
  peerDev : BitVec 16
  peerSeq : BitVec 12
  coefs : Tab Int
  coefReq : Tab Byte
  coefStat : Tab Byte
  coefAns : Tab Byte
  sawStart : Bool
  eqDone : Bool
  expect : BitVec 12
  waiting : Bool
  nakDue : Bool
  ackv : Bool
  linkDue : Bool
  changed : Bool
  nextSeq : BitVec 12
  replay : List (BitVec 12 × FUnit × Nat)
  resend : Nat
  nakSeq : Option (BitVec 12)
  ignore : Option (BitVec 12 × Nat)
  replays : Nat
  lastReplay : Option (BitVec 12)
  slots : Nat
  unit : List (BitVec 640)
  badRuns : Tab Nat
  roundCtr : BitVec 16
  lastVc : Nat
  cred : Tab (BitVec 16)
  sent : Tab (BitVec 16)
  freed : Tab (BitVec 16)
  txq : List FUnit
  resent : List FUnit
  rx : List FUnit
  probes : List Nat
  ownLat : Option Nat
  proposed : Option Nat
  stopTx : Bool
  answer : Bool
  asked : Bool
  quiesced : Bool
  quiesceThen : Nat
  shut : Bool
  eseq : Tab (BitVec 16)
  orig : List (BitVec 12 × BitVec 16)
  fwd : List (BitVec 3 × BitVec 16 × BitVec 16 × BitVec 16)
  hole : Option (BitVec 6)
deriving DecidableEq, Repr

def Port.reset : Port where
  cfg := 0
  phase := .detect
  fast := false
  again := false
  serOk := false
  peerRole := 0
  peerDev := 0
  peerSeq := 0
  coefs := []
  coefReq := []
  coefStat := []
  coefAns := []
  sawStart := false
  eqDone := false
  expect := 0
  waiting := false
  nakDue := false
  ackv := false
  linkDue := false
  changed := false
  nextSeq := 0
  replay := []
  resend := 0
  nakSeq := none
  ignore := none
  replays := 0
  lastReplay := none
  slots := 0
  unit := []
  badRuns := []
  roundCtr := 0
  lastVc := 0
  cred := []
  sent := []
  freed := []
  txq := []
  resent := []
  rx := []
  probes := []
  ownLat := none
  proposed := none
  stopTx := false
  answer := false
  asked := false
  quiesced := false
  quiesceThen := 0
  shut := false
  eseq := []
  orig := []
  fwd := []
  hole := none

/-- What a remote operation of this device does when it is answered (R436, R438), or, for a signal, when it comes back
as a dead letter; the engines name their operation by its number. A record of the sealing block, a read of a line by control
core `k`, a line that its cache maintenance writes back (R489), and a write whose answer nobody awaits. -/
inductive Asked where
  | farRead (slot id : Nat)
  | post (core entry gen : Nat)
  | signal (core entry : Nat) (word3 : BitVec 32)
  | streamRead (slot u id : Nat)
  | streamWrite (slot u id : Nat)
  | courierRead (ch id : Nat)
  | courierWrite (ch off : Nat)
  | record
  | soRead (k line : Nat)
  | cmo (k : Nat)
  | plain
deriving DecidableEq, Repr

/-- A remote operation that has no answer yet: its destination, and the TAG of a read or the VC and ESEQ of a write
or post. -/
structure Remote where
  isRead : Bool
  dst : BitVec 16
  tag : Nat
  vc : BitVec 3
  eseq : BitVec 16
  what : Asked
deriving DecidableEq, Repr

/-- A child's part of a round's input (R443): the child, the round's parity, the unit index, the words and their poison. -/
structure TreePart where
  child : BitVec 16
  parity : Bool
  index : Nat
  words : List Word
  pzn : Bool
deriving DecidableEq, Repr

/-- The open round and episode of a fabric tree (R441 to R445): this device's own inputs, the oldest that of the open round,
and each child's; whether the open round's value has gone up, and the parts of the result that have come down; the arrivals
of the open episode; and the parity of the round and of the episode. -/
structure Tree where
  own : List (List Word × Bool)
  parts : List TreePart
  sentUp : Bool
  down : List (Nat × List Word × Bool)
  round : Bool
  ownBar : Bool
  bars : List (BitVec 16)
  episode : Bool
deriving DecidableEq, Repr

def Tree.reset : Tree := ⟨[], [], false, [], false, false, [], false⟩

/-- A unit that waits to leave (R430, R434, R449): one of this device, with what its answer will do, or one that has its number
already and goes on its way under a switching entry. -/
structure WUnit where
  unit : FUnit
  what : Option Asked
  numbered : Bool
deriving DecidableEq, Repr

/-- What waits at the controllers for the end of an LPDDR5X calibration: a unit of the fabric, or an access of the device itself
with its offset, the data of a write and the outcome of the link check (R574). -/
inductive LpWait where
  | unit (u : FUnit)
  | access (off : Nat) (write : Option UnitData) (link : LinkCheck)
deriving DecidableEq, Repr

/-- The external memories and the fabric beside their registers. `hbm` and `lp` are keyed by global offset; `hbmFix` and
`lpFix` are the units whose rewrite waits for a refresh slot (R384), `hbmScrub` the next unit of each pseudo-channel and
`lpScrub` of each channel. `opNo` counts the operations of the engines, the model's own number. `sendCtr` and `expected` are keyed by 8 × device + VC (R431), `store` is the reorder store
with the mesh cycle in which each unit was held, `acked` the destinations that have acknowledged this device's SEQ_RESTART since it last left fabric reset (`out`), and `barred`
those to which it has been sent that have not, `stopped` those that have stopped injection by this device and `stopOwed` those to whom INJECT_STOPPED is
owed, `stoppedBy` those that have reported INJECT_STOPPED (R449), `waiting` the units that wait for these or for a route
entry to switch (R430), in their order of arrival, `lapsed` the operations that timed out, whose answers are late (R438), `behind` the posts and signals held behind bulk writes with the keys of what they wait for (R343),
`answers` the units that this device answers to itself (R437), `recordErrs` the answers to record writes not yet taken,
`resendDue` per failed port the units whose first re-send is not yet logged (R447), `lpHeld` what waits for the
end of an LPDDR5X calibration, in its order of arrival (R574), and `epochs` the last epoch applied per source (R434). -/
structure Fabric where
  hbm : Mem
  lp : Mem
  hbmFix : List Nat
  lpFix : List Nat
  hbmScrub : Tab Nat
  lpScrub : Tab Nat
  slowSlots : Tab Nat
  ports : Tab Port
  remote : List Remote
  lapsed : List Remote
  nextTag : Nat
  opNo : Nat
  sendCtr : Tab (BitVec 16)
  expected : Tab (BitVec 16)
  store : List (FUnit × Nat)
  epochs : Tab (Option (BitVec 16))
  out : Bool
  acked : Tab Bool
  barred : Tab Bool
  stopped : Tab Bool
  stopOwed : List (BitVec 16)
  stoppedBy : Tab Bool
  waiting : List WUnit
  behind : List (FUnit × Option Asked × List Nat)
  answers : List FUnit
  recordErrs : List Bool
  trees : Tab Tree
  routeHold : List (Nat × Word)
  resendDue : List (Nat × FUnit)
  lpHeld : List LpWait
  epoch : BitVec 16
deriving DecidableEq, Repr

def Fabric.reset : Fabric where
  hbm := Mem.empty
  lp := Mem.empty
  hbmFix := []
  lpFix := []
  hbmScrub := []
  lpScrub := []
  slowSlots := []
  ports := []
  remote := []
  lapsed := []
  nextTag := 0
  opNo := 0
  sendCtr := []
  expected := []
  store := []
  epochs := []
  out := false
  acked := []
  barred := []
  stopped := []
  stopOwed := []
  stoppedBy := []
  waiting := []
  behind := []
  answers := []
  recordErrs := []
  trees := []
  routeHold := []
  resendDue := []
  lpHeld := []
  epoch := 0

end Sys2Proof.Machine
end

