-- ==== Sys2Proof/Machine/StateSeal.lean ====
section
/-! DEFINITION. The state of the sealing block on the hub die: parcel table, ingest pipelines, key store, seal queue,
batches, attestation and firmware verification (R451 to R483). -/
namespace Sys2Proof.Machine

/-- The states of a parcel table entry (R456 STATE). -/
inductive EntrySt where
  | free | pending | opened | accepted | rejected
deriving DecidableEq, Repr

/-- A parcel table entry (R456); `object` has 16 bytes, `idig` 48. -/
structure PEntry where
  st : EntrySt
  code : Byte
  account : BitVec 16
  object : List Byte
  buf : BitVec 64
  bufLen : BitVec 64
  ptLen : BitVec 64
  idig : List Byte
deriving DecidableEq, Repr

def PEntry.reset : PEntry := ⟨.free, 0, 0, List.replicate 16 0, 0, 0, 0, List.replicate 48 0⟩

/-- An envelope in a pipeline (R457 to R463): the port and stream it arrives on, the units received so far with their
bytes in order, whether INGEST_LAST has arrived, whether its header has passed its checks, its key slot and key, the entry
it has opened, the plaintext units written, and the chunks whose tag has verified. -/
structure Envelope where
  port : Nat
  stream : BitVec 4
  units : Nat
  bytes : List Byte
  last : Bool
  checked : Bool
  kslot : Nat
  key : List Byte
  entry : Nat
  written : Nat
  verified : Nat
deriving DecidableEq, Repr

/-- The states of a key slot (R465). -/
inductive KeySt where
  | empty | active | retiring
deriving DecidableEq, Repr

/-- A key slot (R465): its state and type, the check value of its key, and the key wrapped by AES-256-GCM under SK, as the
nonce, the ciphertext and the tag that the slot's SRAM holds. -/
structure KSlot where
  st : KeySt
  typ : Byte
  check : List Byte
  nonce : List Byte
  wrapped : List Byte
deriving DecidableEq, Repr

def KSlot.reset : KSlot := ⟨.empty, 0, [], [], []⟩

/-- A command of the key store (R467, R468), with the pigeonhole whose command it serves. An import holds its blob, empty
where it could not be read. -/
inductive KsCmd where
  | importKey (slot : Nat) (blob : List Byte) (hole : Option (BitVec 6))
  | retire (slot : Nat) (hole : Option (BitVec 6))
deriving DecidableEq, Repr

/-- A seal job in the queue (R470): the global address of its descriptor, the descriptor's bytes, the status that ends it
already, if any, and its two keys. -/
structure SealJob where
  addr : Nat
  desc : List Byte
  status : Option Nat
  iKey : List Byte
  tKey : List Byte
deriving DecidableEq, Repr

/-- A batch (R474): its number, its leaf hashes in order, and its destinations. -/
structure Batch where
  num : BitVec 32
  leaves : List (List Byte)
  dests : List (BitVec 16)
deriving DecidableEq, Repr

/-- A closed batch (R476): its number, bytes 0 to 111 of the receipt's body as they stood at the close, and its leaves. -/
structure Receipt where
  num : BitVec 32
  body : List Byte
  leaves : List (List Byte)
deriving DecidableEq, Repr

/-- An attestation report in production (R480): its nonce, the address it is written at, and the pigeonhole it serves. -/
structure AttJob where
  nonce : List Byte
  addr : Option Nat
  hole : Option (BitVec 6)
deriving DecidableEq, Repr

/-- What the part keeps of a firmware image (R481): its VERSION, SVN and measurement. -/
structure Image where
  version : Word
  svn : Word
  digest : List Byte
deriving DecidableEq, Repr

/-- No image: VERSION and SVN zero and a measurement of zeros. -/
def Image.none : Image := ⟨0, 0, List.replicate 48 0⟩

/-- A firmware command of the sealing block (R482), with the pigeonhole whose command it serves. VERIFY holds the image,
empty where it could not be read. -/
inductive FwCmd where
  | verify (kind : Nat) (image : List Byte) (hole : Option (BitVec 6))
  | activate (kind : Nat) (hole : Option (BitVec 6))
deriving DecidableEq, Repr

/-- What firmware learns from a completed seal job (R470, R472): the parcel entry, the status, whether it was the last, and
the record's address and batch. -/
structure SealNote where
  entry : Nat
  status : Nat
  last : Bool
  out : Nat
  batch : BitVec 32
deriving DecidableEq, Repr

/-- The sealing block beside its plain registers. `pipes` are the 32 pipelines, `pt` the parcel table, `ks` the key slots,
`lost` the slots whose storage holds an error that cannot be corrected and that no read has found (R465), `cache` the
key cache, its unwrapped keys by slot, most recently used first, `ksRun` the key commands (the first is running) and `ksRes`
KS_RES.RESULT; `doorLo` the low word of SEAL_DOOR, `jobs` the seal queue, `notes` the completed jobs that firmware has not yet noticed; `batch` the open batch, `closeDue` that its
close is held (R477), `signing` the closed batches not yet signed, `receipts` the signed batches whose receipts wait to be
forwarded (R477); `att` the reports in production (the first is running),
`fw` the firmware commands (the first is running), `fwRes` FW_STAT.RESULT; `lastValid` and `active` are the last valid
and the active image of each kind (R482). -/
structure Seal where
  pipes : Tab (Option Envelope)
  pt : Tab PEntry
  ks : Tab KSlot
  lost : Tab Bool
  cache : List (Nat × List Byte)
  ksRun : List KsCmd
  ksRes : Byte
  doorLo : Word
  jobs : List SealJob
  notes : List SealNote
  batch : Batch
  closeDue : Bool
  signing : List Receipt
  receipts : List (BitVec 32)
  att : List AttJob
  fw : List FwCmd
  fwRes : Byte
  lastValid : Tab (Option Image)
  active : Tab (Option Image)
deriving DecidableEq, Repr

def Seal.reset : Seal where
  pipes := []
  pt := []
  ks := []
  lost := []
  cache := []
  ksRun := []
  ksRes := 0
  doorLo := 0
  jobs := []
  notes := []
  batch := ⟨0, [], []⟩
  closeDue := false
  signing := []
  receipts := []
  att := []
  fw := []
  fwRes := 0
  lastValid := []
  active := []

end Sys2Proof.Machine
end

