-- ==== Sys2Proof/Machine/StateSo.lean ====
section
/-! DEFINITION. The state of the Sorting Office with its caches and firmware, of Night Mail, of the Franking die and of the
module's pins (R484 to R579, R588 to R606), beside their registers. -/
namespace Sys2Proof.Machine

/-! ### The Sorting Office -/

/-- A pigeonhole whose command is in progress, in doorbell order (R498, R500): whether its completion raises no interrupt
(R496), whether the command has begun, and the tickets whose tests start before it (R563). -/
structure Busy where
  hole : BitVec 6
  quiet : Bool
  started : Bool
  after : List Word
deriving DecidableEq, Repr

/-- A run of bytes of this device that firmware has given out: space, offset and length. -/
structure Region where
  space : Nat
  off : Nat
  len : Nat
deriving DecidableEq, Repr

/-- A loaded model (R503 MODEL_LOAD). -/
structure Model where
  id : Word
  digest : List Byte
  place : Region
deriving DecidableEq, Repr

/-- A defined plan (R508): its image and the digest P. -/
structure Plan where
  id : Word
  image : List Byte
  digest : List Byte
deriving DecidableEq, Repr

/-- The states of a parcel (R505, R507). -/
inductive ParcelSt where
  | pending | opened | running | done | rejected | failed | cancelled
deriving DecidableEq, Repr

/-- A parcel (R504 to R509): a number of its own, its bundle, parcel table entry, plan and input buffer; its state and code;
the stage to run or running and whether it has been dispatched; the configuration and weight-set digests
fixed at the first dispatch (R473); the FLAGS of its records; its records with their address, batch and whether the
destination has them; and whether the last one has been sealed. -/
structure Parcel where
  uid : Nat
  bundle : BitVec 16
  entry : Nat
  plan : Word
  buf : Region
  st : ParcelSt
  code : Byte
  stage : Nat
  sent : Bool
  cfg : List Byte
  weights : List Byte
  dbg : Bool
  tevent : Bool
  records : List (Nat × BitVec 32 × Bool)
  lastSealed : Bool
deriving DecidableEq, Repr

/-- A step of a stage's dispatch on a core, from step 2 of R509 on: a CSR record or a word of the seed, NUMERIC_CTL under
NUMMODE, the end of a debug route that no session holds, the start of T0 (R492), and the post. -/
inductive DStep where
  | write (off : Nat) (v : Word)
  | mode (m : Word)
  | detach
  | start (load : Word)
  | post (queue : BitVec 2) (tag : Word)
deriving DecidableEq, Repr

/-- A dispatch that waits at the window (R492, R509): the core, the parcel with its entry and stage, and the steps to come. -/
structure StageJob where
  core : Nat
  uid : Nat
  entry : Nat
  stage : Nat
  steps : List DStep
deriving DecidableEq, Repr

/-- A self-test or calibration (R511, R563): the unit, index and level, and whether it calibrates. -/
structure Test where
  unit : Nat
  index : Nat
  level : Nat
  cal : Bool
deriving DecidableEq, Repr

/-- A line of a Sorting Office cache (R484): the line it holds, by number of 64 bytes, its data, and whether it is dirty. -/
structure CLine where
  line : Nat
  data : Unit64
  dirty : Bool
deriving DecidableEq, Repr

/-- The Sorting Office beside its registers. `busy` are the holes in progress; `ret` the answers that each control core's instruction has had to its remote reads, by line,
an answer without data being an error. `l1` and `l1i`, the data and the instruction caches, are keyed by 512 k + 4 set + way, `l2c` by 16 set + way. `ready`, `dbign` and the session
are MBX_STAT and R500; `svc` the service level, `version` the VERSION of the running image. `code` is keyed by site: the
plan and stage whose code the core holds (R509). `active` lists the stages dispatched and not ended, in order of dispatch:
logical core and parcel number (R509), and `dispatch` those whose dispatch still waits at the window; `parcelCount` numbers parcels, `lastBundle` numbers bundles, `finals` the bundles that are final, oldest
first. `tickets` wait and `running` tests hold their unit, each with its ticket; `tests` were started at once by a hole.
`drains` are the CLUSTER_DRAIN commands with their masks. `marks` are sites found faulty, with the state the next
CLUSTER_RETURN gives them (R568). `hand` is 1 while a hand-over runs and 2 while it reverts (R571, R573), with the cores
that run the staged image, the hole of the command, the core that failed and the cores that still have to revert. `staged`
are the images staged per kind, and `stagedFr` the bytes of the staged Franking image. `migPaused` are the channels paused for the next migration window (R391), `toldHalted` the control
cores of whose halt the others have been told (R486). `doneCopies` are courier completions that firmware has not yet noticed: source address and
success. -/
structure So where
  busy : List Busy
  ret : Tab (List (Nat × Option Unit64))
  l1 : Tab (Option CLine)
  l1i : Tab (Option CLine)
  l2c : Tab (Option CLine)
  ready : Bool
  dbign : BitVec 16
  session : Word
  open_ : Bool
  version : Word
  regions : List Region
  models : List Model
  plans : List Plan
  parcels : List Parcel
  parcelCount : Nat
  active : List (Nat × Nat)
  dispatch : List StageJob
  lastBundle : BitVec 16
  finals : List (BitVec 16)
  code : Tab (Option (Word × Nat))
  nextTicket : Word
  tickets : List (Word × Test)
  running : List (Word × Test)
  tests : List (BitVec 6 × Test)
  drains : List (BitVec 6 × BitVec 8)
  marks : List (Nat × Bool)
  hand : Nat
  switched : BitVec 4
  handHole : Option (BitVec 6)
  handFail : Option Nat
  toRevert : List Nat
  staged : Tab (Option Image)
  stagedFr : List Byte
  hbmHole : Option (BitVec 6)
  migPaused : List Nat
  toldHalted : BitVec 4
  nmHole : Option (BitVec 6)
  frHole : Option (BitVec 6)
  doneCopies : List (Nat × Bool)
  sealing : Seal
deriving DecidableEq, Repr

/-- The Sorting Office at power-up. -/
def So.reset : So where
  busy := []
  ret := []
  l1 := []
  l1i := []
  l2c := []
  ready := false
  dbign := 0
  session := 0
  open_ := false
  version := 0
  regions := []
  models := []
  plans := []
  parcels := []
  parcelCount := 0
  active := []
  dispatch := []
  lastBundle := 0
  finals := []
  code := []
  nextTicket := 0
  tickets := []
  running := []
  tests := []
  drains := []
  marks := []
  hand := 0
  switched := 0
  handHole := none
  handFail := none
  toRevert := []
  staged := []
  stagedFr := []
  hbmHole := none
  migPaused := []
  toldHalted := 0
  nmHole := none
  frHole := none
  doneCopies := []
  sealing := Seal.reset

/-- What the on-module flash holds beyond its contents at manufacture: image slots A (0) and B (1) once written (R570), the
restart epoch once loaded (R434, R579), the retired stack of the calibration record (R388), and the active Night Mail
image once changed. -/
structure Flash where
  slots : Tab (Option Image)
  epoch : Option (BitVec 16)
  retired : Option Nat
  nightMail : Option Image
deriving DecidableEq, Repr

def Flash.reset : Flash := ⟨[], none, none, none⟩

/-! ### Night Mail -/

/-- The modes of Night Mail (R516). -/
inductive NmMode where
  | rom | firmware | reloading
deriving DecidableEq, Repr

/-- Night Mail (R516 to R526, R544). `raw` and `filt` are keyed by input (R517), `taken` counts the samples since the filter
was seeded, no entry before. `params` holds what differs from the defaults of R526, `pend` the accepted records of the next
tick. `held` and `clear` count, per condition, the ticks for which it has held or been clear; `level` is keyed by 8 ×
condition + cluster: the ceiling that the condition keeps the cluster at. `thread` and `sram` are the registers of Night
Mail's one thread and its 64 KiB, which nothing outside reads or writes: what its programs do are the rules themselves (R516;
log 118). `leakOff` says that a leak has turned the pump
off. `image` runs in FIRMWARE mode, `loading` is being loaded. `cause` is the cause of a SHUTDOWN not yet reported (R523):
its input and value, none for one without an input. -/
structure NightMail where
  mode : NmMode
  thread : Thread
  sram : Mem
  pump : BitVec 2
  leak0 : Bool
  leak1 : Bool
  raw : Tab Int
  filt : Tab Int
  taken : Tab Nat
  params : Tab Nat
  pend : List (Nat × Nat)
  held : Tab Nat
  clear : Tab Nat
  level : Tab Nat
  leakOff : Bool
  image : Option Image
  loading : Option Image
  cause : Option (Option (Nat × Int))
deriving DecidableEq, Repr

def NightMail.reset : NightMail where
  mode := .rom
  thread := Thread.reset
  sram := Mem.empty
  pump := 1
  leak0 := false
  leak1 := false
  raw := []
  filt := []
  taken := []
  params := []
  pend := []
  held := []
  clear := []
  level := []
  leakOff := false
  image := none
  loading := none
  cause := none

/-! ### The Franking die -/

/-- The committed part of a rail (R548, R553, R561): energies in mJ, the carried fractions of each sign in 10⁻¹⁵ mJ, and
the range-end samples. -/
structure Rail where
  energy : BitVec 64
  reverse : BitVec 64
  fracUp : Nat
  fracDown : Nat
  ovr : Word
deriving DecidableEq, Repr

def Rail.reset : Rail := ⟨0, 0, 0, 0, 0⟩

/-- What the die commits (R553): its rails, and its account counters keyed by 4 × account + counter (R551). -/
structure Meter where
  rails : Tab Rail
  accounts : Tab (BitVec 64)
deriving DecidableEq, Repr

def Meter.reset : Meter := ⟨[], []⟩

/-- A verified Franking image waiting for the window boundary (R557, R558), or the running one: VERSION, SVN and FR_ID. -/
structure FrImage where
  version : Word
  svn : Word
  frId : List Byte
deriving DecidableEq, Repr

/-- The Franking die (R546 to R561). `live` is in use, `nv` committed. `sums` holds per rail the sum of products, of voltage
and of current codes of the open window and the samples that they sum, `samples` the samples of the window, `ranged` the rails whose OVERRANGE of this window is logged,
`vmean` and `imean` the last window's means. `log` is keyed by ring slot, `logNext` the next sequence number. `lastSeq` is
the last report sequence received since START, `startCopy` that the second copy of a START frame may follow; `incoming` is
the update image that the report link has brought and that is not yet checked (R557). `sel` is the MTR selection. `powered` says that the die is up. -/
structure Franking where
  live : Meter
  nv : Meter
  sums : Tab (Int × Int × Int × Nat)
  samples : Nat
  ranged : List Nat
  vmean : Tab Word
  imean : Tab Word
  fault : BitVec 8
  log : Tab (BitVec 128)
  logNext : Word
  sealCnt : Word
  akey : Option (List Byte)
  image : Option FrImage
  update : Option FrImage
  updSerial : Byte
  updResult : Byte
  lastSeq : Option (BitVec 16)
  startCopy : Bool
  incoming : Option (List Byte)
  linkOk : Bool
  sel : Option (Nat × Nat)
  powered : Bool
deriving DecidableEq, Repr

/-- The Franking die as manufactured. -/
def Franking.reset : Franking where
  live := Meter.reset
  nv := Meter.reset
  sums := []
  samples := 0
  ranged := []
  vmean := []
  imean := []
  fault := 0
  log := []
  logNext := 0
  sealCnt := 0
  akey := none
  image := none
  update := none
  updSerial := 0
  updResult := 0
  lastSeq := none
  startCopy := false
  incoming := none
  linkOk := false
  sel := none
  powered := true

/-! ### The module -/

/-- The module's mode (R535). -/
inductive ModMode where
  | active | dormant | shutdown
deriving DecidableEq, Repr

/-- The module and its pins (R535, R539, R591 to R606). `mrst` is MRST# high; `waitInput` a rising edge that waits for the
48 V input (R592), `held` one that waits for R523; `started` that bring-up has begun. `phase` is the last phase that has ended (R539), `service`
that of R543. `slot` and `refExt` were sampled at the rising edge. `leak0` and `leak1` are the raw traces (R603). `hbmBad` says that a stack failed training (R541). `tevents` counts
timing events (R543). `hubSeq` numbers the report frames (R552). -/
structure Module where
  mrst : Bool
  waitInput : Bool
  held : Bool
  started : Bool
  mode : ModMode
  phase : Nat
  service : Nat
  slot : BitVec 4
  refExt : Bool
  leak0 : Bool
  leak1 : Bool
  hbmBad : Bool
  tevents : Byte
  hubSeq : BitVec 16
deriving DecidableEq, Repr

/-- The module at the release of reset, before phase A; nothing is brought up. -/
def Module.reset : Module where
  mrst := true
  waitInput := false
  held := false
  started := true
  mode := .active
  phase := 0
  service := 0
  slot := 0
  refExt := false
  leak0 := false
  leak1 := false
  hbmBad := false
  tevents := 0
  hubSeq := 0

end Sys2Proof.Machine
end

