-- ==== Sys2Proof/Machine/State.lean ====
section
/-! DEFINITION. The whole state of the block, its reset value, and the reasons for which a step can stop. -/
namespace Sys2Proof.Machine

/-- Reasons for which a command ends in a fault. -/
inductive Fault where
  /-- Raised by no command: every fault the spec describes is an exception that a core takes (R102). Safe. -/
  | unreachable
deriving DecidableEq, Repr

/-- Reasons for which a command has no meaning. -/
inductive Refusal where
  /-- Raised by a command that has no meaning in this model yet. Safe: the machine stops where the part goes on. -/
  | notModelled (mnemonic : String)
deriving DecidableEq, Repr

/-- The state of the block. -/
structure State where
  /-- The commands that wait, first in, first out. The model's own field. -/
  pending : List Instr
  /-- The mesh cycles since reset; the time of the module (R13, R14). -/
  meshCycle : Nat
  /-- The number of free values taken so far: the argument of the next one. The model's own field (log entry 9). -/
  fresh : Nat
  /-- The cores by site number, 0 to 575, and the control cores SO0 to SO3 from 576 (R12, R485). -/
  cores : Tab Core
  /-- The site of each logical core; none before bring-up (R19, R20). -/
  coreSite : Tab (Option Nat)
  /-- The state of each site in the fuse map (R253). -/
  siteState : Tab SiteState
  /-- The 512-compatible mode is in force (R20). -/
  compat512 : Bool
  /-- The enabled cores of a cluster: 68 or 64, 0 before bring-up (R2, R15). -/
  perCluster : Nat
  /-- The eight clusters (R491, R527 to R533). -/
  clusters : Vector Cluster 8
  /-- Shared SRAM, by offset in global space 0x2 (R242, R266). -/
  sram : Mem
  /-- The next word that the scrubber of each SRAM slice reads (R268). -/
  sramScrub : Tab Nat
  /-- The device CSRs that have no field of their own, by offset. -/
  dev : Tab Word
  /-- The W1C bits that the part has set in the present mesh cycle, by the register's place: a device CSR's offset, or
  0x10_0000 × (slot + 1) + the offset of a core's (R5); a counter's place holds what the part has counted in that cycle (R169).
  -/
  setNow : Tab Word
  /-- The units on the message plane (R252, R332), oldest first. -/
  msgs : List Msg
  /-- The open rounds of the mesh routes, by route and round (R274). -/
  rounds : Tab (Option Round)
  /-- The barrier networks whose release is on its way (R340). -/
  barDue : BitVec 16
  /-- The courier channels, by number (R302, R314). -/
  channels : Tab Channel
  /-- The courier channel that each priority level of a cluster granted last, by 4 × cluster + level (R308). -/
  lastGrant : Tab Nat
  /-- The memory behind the control cores' caches: the L2 with its locked ways (R485, R488). -/
  l2 : Mem
  /-- The CSR words of the control cores, by 0x1000 × core + offset (R485 to R494). -/
  soCsr : Tab Word
  /-- The captured high word of a 64-bit register, per requester (R8). -/
  shadows : Tab (Option Word)
  /-- The mailbox SRAM behind BAR0: the control page and the pigeonholes (R494, R495, R497). -/
  mbx : Mem
  /-- The logical cores whose halt (true) or whose stop of a thread under route 0 (false) firmware has not yet noticed (R107,
  R506, R507). -/
  soNotes : List (Nat × Bool)
  /-- The posts to core 1023, with the second word of each and its sender, for the firmware (R509). -/
  stageQ : List (Nat × Word × Org)
  /-- The clusters with a debug session open (R136). -/
  dbgSession : BitVec 8
  /-- The pending bits of the MSI-X vectors (R495). -/
  pba : BitVec 64
  /-- The event ring, by slot (R496, R501). -/
  evtRing : Tab (BitVec 128)
  /-- EVT_PROD, the next entry the part writes (R496, R501). -/
  evtProd : BitVec 9
  /-- EVT_LOST, the events that found the ring full (R496, R501). -/
  evtLost : Word
  /-- The events raised, the sequence number of the next (R501). -/
  evtCount : Word
  /-- The external memories and the fabric (R372 to R450). -/
  fab : Fabric
  /-- The Sorting Office and the sealing block (R451 to R515). -/
  so : So
  /-- What the flash holds beyond its manufacture (R388, R434, R570). -/
  flash : Flash
  /-- Night Mail (R516 to R526, R544). -/
  nm : NightMail
  /-- The Franking die (R546 to R561). -/
  fr : Franking
  /-- The module and its pins (R535, R539, R591 to R606). -/
  mod : Module
  /-- The message-plane flows between two cores whose route a CLUSTER_RETURN has changed, each with the units sent before the
  change and not yet delivered (R257). -/
  rerouted : List (Nat × Nat × Nat)
  /-- What has left the module, oldest first. The model's record of the outputs. -/
  outbox : List Output
deriving DecidableEq, Repr

/-- The block right after reset. -/
def State.reset : State where
  pending := []
  meshCycle := 0
  fresh := 0
  cores := []
  coreSite := []
  siteState := []
  compat512 := false
  perCluster := 0
  clusters := Vector.replicate 8 Cluster.reset
  sram := Mem.empty
  sramScrub := []
  dev := []
  setNow := []
  msgs := []
  rounds := []
  barDue := 0
  channels := []
  lastGrant := []
  l2 := Mem.empty
  soCsr := []
  shadows := []
  mbx := ⟨(upFrom 0 64).map (fun v => (16 * v + 12, 1)), [], [], []⟩
  soNotes := []
  stageQ := []
  dbgSession := 0
  pba := 0
  evtRing := []
  evtProd := 0
  evtLost := 0
  evtCount := 0
  fab := Fabric.reset
  so := So.reset
  flash := Flash.reset
  nm := NightMail.reset
  fr := Franking.reset
  mod := Module.reset
  rerouted := []
  outbox := []

end Sys2Proof.Machine
end

