-- ==== Sys2Proof/Machine/Ops.lean ====
section
/-! DEFINITION. The named operations over cores, threads and memory, and taking an exception: R38 to R45, R102 to R109,
R112, R123, R128, R335 to R337, R501. -/
namespace Sys2Proof.Machine

/-! ### The module off -/

/-- The module is held in reset, or all of it but Night Mail, its pins and the Franking die is powered off: the commands of what is
off have no effect (R523, R535, R592). -/
def dark (s : State) : Bool := !s.mod.mrst || s.mod.mode != .active

/-! ### Causes and outcomes of an instruction -/

/-- How the body of an instruction ends: with a new value, with a fault (R43: nothing changes), with a fault in a state
in which memory has settled the words that were read (R267), or without issuing, because something it needs is not ready
(R64). -/
inductive Res (α : Type) where
  | ok (a : α)
  | fault (f : FaultInfo)
  | after (s : State) (f : FaultInfo)
  | stall
deriving DecidableEq, Repr

/-- Continue after a success. -/
def Res.andThen {α β : Type} (r : Res α) (f : α → Res β) : Res β :=
  match r with
  | .ok a => f a
  | .fault i => .fault i
  | .after s i => .after s i
  | .stall => .stall

/-- A fault if the check found one. -/
def Res.check {α : Type} (c : Option FaultInfo) (k : Res α) : Res α :=
  match c with
  | some f => .fault f
  | none => k

/-- The cause codes (R110). -/
def cILLEGAL : BitVec 8 := 0x01
def cCAP_TAG : BitVec 8 := 0x02
def cCAP_BOUNDS : BitVec 8 := 0x03
def cCAP_PERM : BitVec 8 := 0x04
def cCAP_SEALED : BitVec 8 := 0x05
def cALIGN : BitVec 8 := 0x06
def cRS_OVERFLOW : BitVec 8 := 0x07
def cRS_UNDERFLOW : BitVec 8 := 0x08
def cGATE : BitVec 8 := 0x09
def cCLOSURE_OVERRUN : BitVec 8 := 0x0A
def cSAVE_FRAME : BitVec 8 := 0x0B
def cTILE_SHAPE : BitVec 8 := 0x10
def cTILE_ACCESS : BitVec 8 := 0x11
def cNAN_TRAP : BitVec 8 := 0x12
def cPOISON_CONSUMED : BitVec 8 := 0x18
def cHANDLE : BitVec 8 := 0x19
def cSTREAM_PROGRAM : BitVec 8 := 0x1A
def cHANDLER_BLOCKING_POST : BitVec 8 := 0x21
def cORPHAN_WAIT : BitVec 8 := 0x28
def cSCOPE_MISMATCH : BitVec 8 := 0x29
def cDEBUG_STOP : BitVec 8 := 0x30
def cESCALATION : BitVec 8 := 0x3F

/-- The codes that a fault of an instruction or engine can carry (R110), as against DEBUG_STOP and ESCALATION. -/
def faultCodes : List (BitVec 8) :=
  [0x01, 0x02, 0x03, 0x04, 0x05, 0x06, 0x07, 0x08, 0x09, 0x0A, 0x0B, 0x10, 0x11, 0x12, 0x18, 0x19, 0x1A, 0x21, 0x29]

/-- A fault with no address and no information word. -/
def plainFault (c : BitVec 8) : FaultInfo := ⟨c, 0, 0⟩
/-- A fault at an address. -/
def addrFault (c : BitVec 8) (a : Nat) : FaultInfo := ⟨c, BitVec.ofNat 32 a, 0⟩

/-! ### Permissions (R82): bit numbers within PERMS -/

def pLOAD : BitVec 16 := 0x0001
def pSTORE : BitVec 16 := 0x0002
def pEXEC : BitVec 16 := 0x0004
def pLOADCAP : BitVec 16 := 0x0008
def pSTORECAP : BitVec 16 := 0x0010
def pSEAL : BitVec 16 := 0x0020
def pUNSEAL : BitVec 16 := 0x0040
def pGATE : BitVec 16 := 0x0080
def pCLOSE : BitVec 16 := 0x0100
def pCSR : BitVec 16 := 0x0200
def pPOST : BitVec 16 := 0x0400
def pFLAG : BitVec 16 := 0x0800
def pCOURIER : BitVec 16 := 0x1000
def pSTREAM : BitVec 16 := 0x2000
def pTILE : BitVec 16 := 0x4000
def pDEBUG : BitVec 16 := 0x8000

/-- The capability carries every permission of `need`. -/
def capHas (c : Cap) (need : BitVec 16) : Bool := c.perms &&& need == need

/-- The capability is sealed (R79). -/
def capSealed (c : Cap) : Bool := c.otype != 0

/-- An access of `n` bytes at `a` lies within the capability (R80, sums in 33 bits). -/
def capCovers (c : Cap) (a n : Nat) : Bool :=
  decide (c.base.toNat ≤ a ∧ a + n ≤ c.base.toNat + c.length.toNat)

/-- The checks of an access under a capability in the order of R42: tag, seal, permissions, bounds. -/
def capCheck (c : Cap) (a n : Nat) (need : BitVec 16) : Option FaultInfo :=
  if !c.tag then some (addrFault cCAP_TAG a)
  else if capSealed c then some (addrFault cCAP_SEALED a)
  else if !capHas c need then some (addrFault cCAP_PERM a)
  else if !capCovers c a n then some (addrFault cCAP_BOUNDS a)
  else none

/-- The sixteen bytes of a capability in memory (R79). -/
def capBytes (c : Cap) : List Byte :=
  leBytes 4 (c.otype.toNat * 16 + c.perms.toNat * 65536) ++ leBytes 4 c.length.toNat ++
    leBytes 4 c.base.toNat ++ leBytes 4 c.cursor.toNat

/-- The capability that sixteen bytes and a tag spell (R79; the reserved bits [3:0] read zero, R6). -/
def capOfBytes (bs : List Byte) (tag : Bool) : Cap where
  tag := tag
  otype := bits (leWord (slice bs 0 4)) 4 12
  perms := bits (leWord (slice bs 0 4)) 16 16
  length := leWord (slice bs 4 4)
  base := leWord (slice bs 8 4)
  cursor := leWord (slice bs 12 4)

/-! ### Cores and threads -/

/-- The core in slot `i`: sites 0 to 575, control cores 576 to 579. -/
def getCore (s : State) (i : Nat) : Core := tget coreDefault s.cores i

def setCore (s : State) (i : Nat) (c : Core) : State := { s with cores := tset coreDefault s.cores i c }

/-- The core in slot `i` changes by `f`. -/
def modCore (s : State) (i : Nat) (f : Core → Core) : State := setCore s i (f (getCore s i))

/-- The Sorting Office changes by `f`. -/
def modSo (s : State) (f : So → So) : State := { s with so := f s.so }

/-- A choice that the spec leaves open: the next number of the counter, and the state in which it has risen. -/
def freshNat (s : State) : Nat × State := (s.fresh, { s with fresh := s.fresh + 1 })

def getTh (s : State) (i : Nat) (t : Fin 4) : Thread := (getCore s i).th[t]

/-- Thread `t` of the core changes by `f`. -/
def coreModTh (c : Core) (t : Fin 4) (f : Thread → Thread) : Core := { c with th := c.th.set t (f c.th[t]) }

def modTh (s : State) (i : Nat) (t : Fin 4) (f : Thread → Thread) : State :=
  modCore s i (fun c => coreModTh c t f)

/-- The slot of a control core (R484). -/
def isSo (slot : Nat) : Bool := decide (576 ≤ slot)

def soNum (slot : Nat) : Nat := slot - 576

/-- The default of the map of logical cores: no site. -/
def noSite (_ : Nat) : Option Nat := none

/-- The site that holds logical core `n` (R24). -/
def siteOf (s : State) (n : Nat) : Option Nat := tget noSite s.coreSite n

/-- The slot of a core named by a command. -/
def slotOf (s : State) : Cpu → Option Nat
  | .core n => siteOf s n
  | .so k => some (576 + k.val)

/-- The logical core that a site holds, if any (R18). -/
def logicalOf (s : State) (site : Nat) : Option Nat :=
  (s.coreSite.find? (fun p => p.2 == some site)).map (·.1)

/-- The cluster of a site (R17). -/
def clusterOf (site : Nat) : Fin 8 := Fin.ofNat 8 (site / 72)

def getCl (s : State) (c : Fin 8) : Cluster := s.clusters[c]

def modCl (s : State) (c : Fin 8) (f : Cluster → Cluster) : State :=
  { s with clusters := s.clusters.set c (f s.clusters[c]) }

/-- The core's clock runs: its cluster is in RUN and not stopped for a change of point (R528, R530). -/
def clocked (s : State) (slot : Nat) : Bool :=
  isSo slot ||
    (let c := getCl s (clusterOf slot)
     c.power == .run && !c.waking && decide (c.stopUntil ≤ s.meshCycle))

/-- The cluster cycle count of the core's clock; a control core's clock has half the mesh rate (R484, R536). -/
def clockOf (s : State) (slot : Nat) : Nat :=
  if isSo slot then s.meshCycle / 2 else (getCl s (clusterOf slot)).cyc

/-- CYCLE (R127). -/
def cycleReg (s : State) (slot : Nat) : Word := BitVec.ofNat 32 (clockOf s slot - (getCore s slot).cycBase)

/-- The core takes part: out of reset and not halted, in a cluster that is neither drained nor unavailable (R326). -/
def coreServes (s : State) (slot : Nat) : Bool :=
  let c := getCore s slot
  !c.held && !c.halted &&
    (isSo slot ||
      (match (getCl s (clusterOf slot)).service with
       | .inService | .draining => true
       | _ => false))

/-! ### Core CSR words -/

/-- The reset value of a core CSR word. -/
def csrDefault (o : Nat) : Word := (coreReg o).reset

/-- The stored word of a core CSR. -/
def csrGet (c : Core) (o : Nat) : Word := tget csrDefault c.csr o

def csrSet (c : Core) (o : Nat) (v : Word) : Core := { c with csr := tset csrDefault c.csr o v }

/-- A counter register that stops at all ones (R169, R335, R332). -/
def csrCount (c : Core) (o n : Nat) : Core :=
  csrSet c o (BitVec.ofNat 32 (addCap 0xFFFFFFFF (csrGet c o).toNat n))

/-- THREAD_CTL.SUPER (R128); a control core's one thread is its own supervisor (R486). -/
def superOf (s : State) (slot : Nat) : Fin 4 :=
  if isSo slot then 0 else Fin.ofNat 4 (bits (csrGet (getCore s slot) 0x1000) 8 2).toNat

/-- POST_CTL.HTHREAD (R346). -/
def handlerOf (c : Core) : Fin 4 := Fin.ofNat 4 (bits (csrGet c 0x7000) 0 2).toNat

def gateDefault (_ : Nat) : Option (Cap × Cap) := none

/-- Gate register Gn, none while it is empty (R95). -/
def gateGet (c : Core) (n : Nat) : Option (Cap × Cap) := tget gateDefault c.gates n

def unsealCap (c : Cap) : Cap := { c with otype := 0 }

/-! ### Events for the host (R495, R501) -/

def mbxDefault : Mem := Mem.empty

/-- Raise MSI-X vector `v`: sent, or pending while its table entry is masked (R495). -/
def raiseMsi (s : State) (v : Nat) : State :=
  if bitOf (memByte s.mbx (16 * v + 12)) 0 then { s with pba := s.pba ||| oneAt 64 v }
  else { s with outbox := s.outbox ++ [.msi v] }

def ringDefault (_ : Nat) : BitVec 128 := 0

/-- An event is added to the ring at EVT_PROD, or dropped and counted when the ring is full (R501). -/
def pushEvent (s : State) (typ source : BitVec 16) (data : BitVec 64) : State :=
  let count := s.evtCount
  let s := { s with evtCount := s.evtCount + 1 }
  if s.evtProd + 1 = bits (memWord s.mbx 0x804) 0 9 then
    { s with evtLost := BitVec.ofNat 32 (addCap 0xFFFFFFFF s.evtLost.toNat 1) }
  else
    let entry : BitVec 128 := data ++ count ++ source ++ typ
    let s := { s with evtRing := tset ringDefault s.evtRing s.evtProd.toNat entry, evtProd := s.evtProd + 1 }
    let cfg := memWord s.mbx 0x808
    if bitOf cfg 31 then raiseMsi s (bits cfg 0 6).toNat else s

/-! ### Memory of a core, with its error log (R266 to R272) -/

/-- The reset value of a stored device CSR word. -/
def devDefault (o : Nat) : Word := (devReg o).reset

/-- The stored word of a device CSR. -/
def devGet (s : State) (o : Nat) : Word := tget devDefault s.dev o

def devSet (s : State) (o : Nat) (v : Word) : State := { s with dev := tset devDefault s.dev o v }

/-- The offset of a cluster's registers (R491). -/
def clBase (c : Fin 8) : Nat := 0x10000 + 0x100 * c.val

/-- The place of a core's CSR among all registers. -/
def corePlace (slot o : Nat) : Nat := 0x100000 * (slot + 1) + o

def nowDefault (_ : Nat) : Word := 0

/-- The bits of a register that the part has set in this mesh cycle (R5). -/
def setBitsNow (s : State) (place : Nat) : Word := tget nowDefault s.setNow place

/-- The part sets W1C bits of a register in this mesh cycle (R5). -/
def noteSet (s : State) (place : Nat) (m : Word) : State :=
  { s with setNow := tset nowDefault s.setNow place (setBitsNow s place ||| m) }

/-- The part sets W1C bits of a device CSR. -/
def devOr (s : State) (o : Nat) (m : Word) : State := noteSet (devSet s o (devGet s o ||| m)) o m

/-- A write of a device CSR that has no behaviour of its own (R4 to R6). -/
def devPlain (s : State) (o : Nat) (v : Word) : State :=
  devSet s o ((devReg o).writeNow (setBitsNow s o) (devGet s o) v)

/-- A numeric counter (R169), of which the entry in `setNow` holds what this mesh cycle has added. -/
def isCounter (o : Nat) : Bool := decide (0x3100 ≤ o ∧ o < 0x3180 ∧ o % 16 ≠ 12)

/-- A write of a core's CSR that has no behaviour of its own (R4 to R6); one of a numeric counter takes effect before the counts
of the same cycle (R169). -/
def csrPlain (s : State) (slot o : Nat) (v : Word) : State :=
  let now := setBitsNow s (corePlace slot o)
  modCore s slot (fun c =>
    if isCounter o then csrCount (csrSet c o ((coreReg o).write (csrGet c o) v)) o now.toNat
    else csrSet c o ((coreReg o).writeNow now (csrGet c o) v))

/-- The SRAM error registers of cluster `c` count `ce` corrected and `ues` uncorrectable words (R267, R272); the first
uncorrectable one after VALID was clear is logged and reported to the host (R501). -/
def logSram (s : State) (c : Fin 8) (isLocal : Bool) (place : Nat) (ce : Nat) (ues : List Nat) : State :=
  if ce = 0 ∧ ues = [] then s
  else
    let o := 0x10800 + 0x10 * c.val
    let e := devGet s o
    let ue' := addCap 0xFFFF (e.toNat / 65536) ues.length
    let ce' := addCap 0xFFFF (e.toNat % 65536) ce
    let s := devSet s o (BitVec.ofNat 32 (ue' * 65536 + ce'))
    match ues with
    | [] => s
    | a :: _ =>
      if bitOf (devGet s (o + 4)) 31 then s
      else
        let loc : Word := 0x80000000 ||| (if isLocal then 0x40000000 else 0) ||| BitVec.ofNat 32 place
        let addr : Word := BitVec.ofNat 32 a
        let s := noteSet (devSet (devSet s (o + 4) loc) (o + 8) addr) (o + 4) 0x80000000
        pushEvent s 0x0010 (BitVec.ofNat 16 c.val) (loc ++ addr)

/-- A read meets the words under the `n` bytes at `a` of the core's local memory (R267). -/
def settleLocal (s : State) (slot a n : Nat) : State :=
  let r := settleWords 4 (getCore s slot).mem (wordsOf 4 a n)
  logSram (modCore s slot (fun c => { c with mem := r.mem })) (clusterOf slot) true slot r.ce r.ues

/-- The slice of an offset of shared SRAM, and its cluster (R242). -/
def sramCluster (off : Nat) : Fin 8 := Fin.ofNat 8 (off / 0x06000000)
def sramSlice (off : Nat) : Nat := off % 0x06000000 / 0x00200000
/-- All slices numbered through: 48 per cluster. -/
def sliceId (off : Nat) : Nat := off / 0x00200000

/-- A read meets the words under the `n` bytes at offset `off` of shared SRAM (R267). -/
def settleSram (s : State) (off n : Nat) : State :=
  let r := settleWords 4 s.sram (wordsOf 4 off n)
  logSram { s with sram := r.mem } (sramCluster off) false (sramSlice off) r.ce (r.ues.map (· + 0x40000000))

/-- TAG_FIX of cluster `c` counts `n` tag copies rewritten (R271, R272). -/
def countTags (s : State) (c : Fin 8) (n : Nat) : State :=
  if n = 0 then s
  else
    let o := 0x1080C + 0x10 * c.val
    devSet s o (BitVec.ofNat 32 (addCap 0xFFFF (devGet s o).toNat n))

/-- The tags of the granules under the `n` bytes at `a` of the core's local memory are read (R271). -/
def readTags (s : State) (slot a n : Nat) : State :=
  let r := mendTags (getCore s slot).mem (wordsOf 16 a n)
  countTags (modCore s slot (fun c => { c with mem := r.1 })) (clusterOf slot) r.2

/-- The same in shared SRAM, counted in the slice's cluster. -/
def readSramTags (s : State) (off n : Nat) : State :=
  let r := mendTags s.sram (wordsOf 16 off n)
  countTags { s with sram := r.1 } (sramCluster off) r.2

/-- The same in the locked L2 ways, which no cluster counts. -/
def readL2Tags (s : State) (a n : Nat) : State := { s with l2 := (mendTags s.l2 (wordsOf 16 a n)).1 }

/-- A store into the core's local memory (R45, R85). -/
def storeLocal (s : State) (slot a : Nat) (bs : List Byte) : State :=
  modCore s slot (fun c => { c with mem := memStore 4 c.mem a bs })

def storeSram (s : State) (off : Nat) (bs : List Byte) : State := { s with sram := memStore 4 s.sram off bs }

/-! ### Where an address leads (R40, R242, R485) -/

/-- What an address of a core names. Offsets count from the start of each range. -/
inductive Place where
  | loc (a : Nat)
  | csr (off : Nat)
  | sram (off : Nat)
  | rom (a : Nat)
  | soPage (off : Nat)
  | lockedL2 (off : Nat)
  | mailbox (off : Nat)
  | devCsr (off : Nat)
  | window (n x : Nat)
  | absent
deriving DecidableEq, Repr

def soCsrDefault (o : Nat) : Word := (soReg (o % 0x1000)).reset

/-- The stored word of a control core's SO page: control core `k`, offset `o`. -/
def soGet (s : State) (k o : Nat) : Word := tget soCsrDefault s.soCsr (0x1000 * k + o)

def soSet (s : State) (k o : Nat) (v : Word) : State :=
  { s with soCsr := tset soCsrDefault s.soCsr (0x1000 * k + o) v }

/-- The locked L2 ways (R488); the register is shared by the four control cores, which share the L2. -/
def lockedWays (s : State) : Nat := (bits (soGet s 0 0x080) 0 4).toNat

/-- What the `n` bytes at `a` are for a core of a cluster (R40) or a control core (R485). -/
def placeOf (s : State) (slot a n : Nat) : Place :=
  if isSo slot then
    if a + n ≤ 0x00020000 then .rom a
    else if 0x00100000 ≤ a ∧ a + n ≤ 0x00101000 then .soPage (a - 0x00100000)
    else if 0x10000000 ≤ a ∧ a + n ≤ 0x10000000 + 0x80000 * lockedWays s then .lockedL2 (a - 0x10000000)
    else if 0x20000000 ≤ a ∧ a + n ≤ 0x20040000 then .mailbox (a - 0x20000000)
    else if 0x30000000 ≤ a ∧ a + n ≤ 0x30100000 then .devCsr (a - 0x30000000)
    else if 0x80000000 ≤ a ∧ a + n ≤ 0x100000000 then
      .window ((a - 0x80000000) / 0x08000000) ((a - 0x80000000) % 0x08000000)
    else .absent
  else if a + n ≤ 0x00080000 then .loc a
  else if 0x00100000 ≤ a ∧ a + n ≤ 0x0010A000 then .csr (a - 0x00100000)
  else if 0x40000000 ≤ a ∧ a + n ≤ 0x70000000 then .sram (a - 0x40000000)
  else .absent

/-- The address lies in the pages that need the CSR permission (R38, R486). -/
def needsCsr (slot a : Nat) : Bool :=
  if isSo slot then
    decide ((0x00100000 ≤ a ∧ a < 0x00101000) ∨ (0x30000000 ≤ a ∧ a < 0x30100000))
  else decide (0x00100000 ≤ a ∧ a < 0x0010A000)

/-- The checks of a data access in the order of R42: the capability (R38), alignment (R39, R7), and whether anything
is there (R40). -/
def checkAccess (s : State) (slot : Nat) (c : Cap) (a n : Nat) (need : BitVec 16) : Res Place :=
  let csr := needsCsr slot a
  Res.check (capCheck c a n (if csr then need ||| pCSR else need))
    (if a % n ≠ 0 ∨ (csr ∧ n ≠ 4) then .fault (addrFault cALIGN a)
     else match placeOf s slot a n with
       | .absent => .fault (addrFault cILLEGAL a)
       | p => .ok p)

/-! ### The memory that holds a core's frames: local memory, or locked L2 for a control core (R102, R486) -/

/-- The address of the first byte of the frame memory. -/
def frameBase (slot : Nat) : Nat := if isSo slot then 0x10000000 else 0

def frameMem (s : State) (slot : Nat) : Mem := if isSo slot then s.l2 else (getCore s slot).mem

def setFrameMem (s : State) (slot : Nat) (m : Mem) : State :=
  if isSo slot then { s with l2 := m } else modCore s slot (fun c => { c with mem := m })

/-- The address of the escalation frame (R107, R486). -/
def escFrame (slot : Nat) : Nat := frameBase slot + 0x7FE80

/-- SFC passes step 1 of R102 for a frame at `a`. -/
def sfcOk (s : State) (slot : Nat) (c : Cap) (a : Nat) : Bool :=
  c.tag && !capSealed c && capHas c (pLOAD ||| pSTORE ||| pLOADCAP ||| pSTORECAP) && decide (a % 16 = 0) &&
    capCovers c a 0x180 &&
    (if isSo slot then
      decide (0x10000000 ≤ a ∧ a + 0x180 ≤ 0x10000000 + 0x80000 * lockedWays s ∧
        (a + 0x180 ≤ 0x1007F800 ∨ 0x10080000 ≤ a))
     else decide (a + 0x180 ≤ 0x7F000))

/-- The bits of FLAGS that hold state: RSLOST, SAT, MV, V, C, N, Z (R35). -/
def flagsMask : Word := 0x0100011F

/-- FLAGS as an instruction or a frame sees it, with RSDEPTH (R35). -/
def flagsView (th : Thread) : Word := (th.flags &&& flagsMask) ||| (BitVec.ofNat 32 th.rs.length <<< 16)

/-- Sixteen bytes of four words. -/
def quad (a b c d : Word) : List Byte :=
  leBytes 4 a.toNat ++ leBytes 4 b.toNat ++ leBytes 4 c.toNat ++ leBytes 4 d.toNat

/-- Entry `i` of a list of words, zero beyond it. -/
def wordAt (l : List Word) (i : Nat) : Word := l.getD i 0

/-- The 24 granules of a save frame with their tags (R103). `sfcWas` is SFC before entry, for an escalation frame. -/
def frameGranules (th : Thread) (pc cause faddr info : Word) (sfcWas : Option Cap) : List (List Byte × Bool) :=
  let cap (c : Cap) := (capBytes c, c.tag)
  let link (i : Nat) : List (List Byte × Bool) :=
    match th.glink[i]? with
    | some (p, d) => [cap p, cap d]
    | none => [cap Cap.null, cap Cap.null]
  [(quad pc cause faddr info, false),
   (quad th.acc (zext th.acg) th.ix th.iy, false),
   (quad (flagsView th) (BitVec.ofNat 32 th.glink.length) 0 0, false),
   (match sfcWas with
    | some c => cap c
    | none => (quad 0 0 0 0, false))] ++
  (upFrom 0 4).map (fun i => (quad (wordAt th.rs (4 * i)) (wordAt th.rs (4 * i + 1)) (wordAt th.rs (4 * i + 2))
    (wordAt th.rs (4 * i + 3)), false)) ++
  [cap { th.pcc with cursor := pc }, cap th.ddc, cap th.c1, cap th.c2, cap th.c3, cap th.c4, cap th.c5, cap th.c6] ++
  link 0 ++ link 1 ++ link 2 ++ link 3

/-- The granules are written from `a` on (R102 step 3). -/
def putGranules (m : Mem) (a : Nat) : List (List Byte × Bool) → Mem
  | [] => m
  | (bs, tag) :: rest => putGranules (memStoreCap m a bs tag) (a + 16) rest

/-- The CAUSE word (R103). -/
def causeWord (t : Fin 4) (orig code : BitVec 8) : Word :=
  BitVec.ofNat 32 (t.val * 65536 + orig.toNat * 256 + code.toNat)

/-- Whenever ACC is written by other than a multiply-accumulate, ACG follows its sign (R34). -/
def setAcc (th : Thread) (v : Word) : Thread := { th with acc := v, acg := if bitOf v 31 then 0xFF else 0 }

/-! ### Notifications for the supervisor (R128, R130) -/

/-- The cluster cycle from which a notification is pending. -/
def Note.since : Note → Nat
  | .stopped _ _ _ d => d
  | .orphan _ d => d

/-- The place of a notification among those that become pending in one cycle: thread stops by thread number, then the orphan
wait (R130). -/
def Note.rank : Note → Nat
  | .stopped k _ _ _ => k.val
  | .orphan _ _ => 4

/-- A notification takes its place in the order in which they become pending (R130). -/
def addNote (c : Core) (n : Note) : Core :=
  let first (m : Note) : Bool := decide (m.since < n.since ∨ (m.since = n.since ∧ m.rank ≤ n.rank))
  { c with notes := c.notes.takeWhile first ++ n :: c.notes.dropWhile first }

/-! ### The frame path (R583) -/

/-- Of the transfers not over in cluster cycle `now`, those that come before one of thread `k` that becomes due in it, and those
that come after: in one cycle the threads go in ascending order. -/
def frameQueue (c : Core) (now : Nat) (k : Fin 4) : List FrameMove × List FrameMove :=
  (c.frames.filter (fun m => decide (now < m.last))).partition (fun m => decide (m.due < now ∨ m.t ≤ k))

/-- The last cycle of a transfer of 24 cycles that becomes due in cycle `now`. -/
def frameLast (c : Core) (now : Nat) (k : Fin 4) : Nat :=
  (frameQueue c now k).1.foldl (fun e m => max e m.last) now + 24

/-- The thread stops whose frames move back by one transfer become pending so much later (R128). -/
def delayNotes (c : Core) (moved : List FrameMove) : Core :=
  let late (n : Note) : Bool := match n with
    | .stopped j _ _ d => moved.any (fun m => m.t == j && m.last + 1 == d)
    | .orphan _ _ => false
  let shift (n : Note) : Note := match n with
    | .stopped j code frame d => .stopped j code frame (d + 24)
    | n => n
  ((c.notes.filter late).map shift).foldl addNote { c with notes := c.notes.filter (fun n => !late n) }

/-- A frame transfer of thread `k` takes its place on the path. -/
def takePath (c : Core) (now : Nat) (k : Fin 4) : Core :=
  let (first, moved) := frameQueue c now k
  delayNotes { c with
    frames := first ++ ⟨now, k, frameLast c now k⟩ :: moved.map (fun m => { m with last := m.last + 24 }) } moved

/-- A frame of thread `k` is written or restored, beginning in the present cycle. -/
def useFramePath (s : State) (slot : Nat) (k : Fin 4) : State :=
  let now := clockOf s slot
  modCore s slot (fun c => takePath c now k)

/-! ### Halt, escalation and exception entry (R102, R107, R109) -/

/-- A fault of thread `k` during escalation halts the core (R109); firmware is told of a logical core, and the other control
cores of a control core (R486). -/
def haltCore (s : State) (slot : Nat) (k : Fin 4) (code : BitVec 8) : State :=
  let orig := (getCore s slot).escOrig
  let s := modCore s slot (fun c =>
    { c with
      th := c.th.map (fun th => { th with st := .halted }),
      halted := true, escActive := false, escThread := k, escCause := code })
  match logicalOf s slot with
  | some n =>
    pushEvent { s with soNotes := s.soNotes ++ [(n, true)] } 0x0018 (BitVec.ofNat 16 n)
      (BitVec.ofNat 64 (k.val + 256 * code.toNat + 65536 * orig.toNat))
  | none => if isSo slot then modSo s (fun o => { o with toldHalted := o.toldHalted ||| oneAt 4 (slot - 576) }) else s

/-- The registers of an escalation handler (R107). -/
def escThreadState (slot : Nat) (th : Thread) (cause : Word) : Thread :=
  let fr : Word := BitVec.ofNat 32 (escFrame slot)
  let hb : Word := if isSo slot then 0x0001F000 else 0x0007F000
  let db : Word := if isSo slot then 0x1007F800 else 0x0007F800
  { setAcc th cause with
    pc := hb
    pcc := ⟨true, hb, hb, 0x0800, pLOAD ||| pEXEC, 0⟩
    ddc := ⟨true, Config.escDdcCursor, db, 0x0800, pLOAD ||| pSTORE ||| pLOADCAP ||| pSTORECAP, 0⟩
    c1 := ⟨true, Config.escC1Cursor, 0x00100000, if isSo slot then 0x1000 else 0xA000, pLOAD ||| pSTORE ||| pCSR, 0⟩
    c2 := Cap.null
    c3 := Cap.null
    c4 := Cap.null
    c5 := Cap.null
    c6 := Cap.null
    sfc := Cap.null
    ix := fr
    iy := fr
    rs := []
    glink := []
    closeEnd := none
    st := .escalation
    wait := none
    block := none }

/-- An escalation of thread `k` (R107): `code` is SAVE_FRAME or GATE, `orig` the code of the event whose entry
escalated, and `faddr`, `info`, `pc` what that event's frame would have held. A control core without a locked way
halts (R486). -/
def escalate (s : State) (slot : Nat) (k : Fin 4) (code orig : BitVec 8) (faddr info pc : Word) : State :=
  let th := getTh s slot k
  if (getCore s slot).escActive then haltCore s slot k code
  else
  let s := modCore s slot (fun c => { c with escOrig := orig })
  if isSo slot ∧ lockedWays s = 0 then haltCore s slot k code
  else
    let cause := causeWord k orig code
    let s := setFrameMem (useFramePath s slot k) slot
      (putGranules (frameMem s slot) (escFrame slot - frameBase slot) (frameGranules th pc cause faddr info (some th.sfc)))
    let s := modTh s slot k (fun th => escThreadState slot th cause)
    modCore s slot (fun c =>
      { c with escActive := true, escThread := k, escCause := if orig = 0 then code else orig })

/-- TRAP_CTLk.ROUTE and TGATE (R111); fixed for a control core (R486). -/
def routeOf (s : State) (slot : Nat) (k : Fin 4) : Bool :=
  isSo slot || k == superOf s slot || bitOf (csrGet (getCore s slot) (0x2000 + 4 * k.val)) 8

def tgateOf (s : State) (slot : Nat) (k : Fin 4) : Nat :=
  if isSo slot then 0 else (bits (csrGet (getCore s slot) (0x2000 + 4 * k.val)) 0 3).toNat

/-- Exception entry on thread `k` of an event with the given frame words (R102): `atGate` forces route 1 (R129), and
`cause` is the CAUSE word of the frame. -/
def enterException (s : State) (slot : Nat) (k : Fin 4) (atGate : Bool) (pc cause : Word) (code : BitVec 8)
    (faddr info : Word) : State :=
  let th := getTh s slot k
  let fa := th.sfc.cursor.toNat
  if !sfcOk s slot th.sfc fa then escalate s slot k cSAVE_FRAME code faddr info pc
  else
    let gate := gateGet (getCore s slot) (tgateOf s slot k)
    let route := atGate || routeOf s slot k
    if route ∧ gate = none then escalate s slot k cGATE code faddr info pc
    else
      let due := frameLast (getCore s slot) (clockOf s slot) k + 1
      let s := setFrameMem (useFramePath s slot k) slot
        (putGranules (frameMem s slot) (fa - frameBase slot) (frameGranules th pc cause faddr info none))
      let s := modTh s slot k (fun th =>
        { th with sfc := { th.sfc with cursor := th.sfc.cursor + 0x180 }, closeEnd := none, wait := none, block := none })
      match route, gate with
      | true, some (cc, dd) =>
        modTh s slot k (fun th =>
          { setAcc th cause with
            pcc := unsealCap cc, ddc := unsealCap dd, pc := cc.cursor, ix := BitVec.ofNat 32 fa, rs := [], glink := [],
            st := .running })
      | _, _ =>
        let s := modTh s slot k (fun th => { th with st := .stoppedFault, cause := code })
        let s := modCore s slot (fun c => addNote c (.stopped k code (BitVec.ofNat 32 fa) due))
        match logicalOf s slot with
        | some n => { s with soNotes := s.soNotes ++ [(n, false)] }
        | none => s

/-- A STEP whose instruction stopped the thread or halted the core is over; no debug stop follows it (R140). -/
def endStep (th : Thread) : Thread :=
  if th.stepping ∧ (th.st = .stoppedFault ∨ th.st = .halted) then { th with stepping := false, stopReq := false } else th

/-- A fault of an instruction of thread `k` (R102, R109): the frame records the instruction's own PC. While any thread of
the core is in escalation a fault of any kind halts the core, and on a halted core there is nothing left to fault. -/
def takeFault (s : State) (slot : Nat) (k : Fin 4) (f : FaultInfo) : State :=
  let c := getCore s slot
  if c.halted then s
  else if c.escActive ∨ c.th[k].st = .escalation then haltCore s slot k f.code
  else modTh (enterException s slot k false c.th[k].pc (causeWord k 0 f.code) f.code f.faddr f.info) slot k endStep

/-! ### Return from an exception (R105, R108) -/

/-- The capability in the frame's granule at `a`; a clear tag restores as null. -/
def frameCap (m : Mem) (a : Nat) : Cap :=
  if memTag m (a / 16) then capOfBytes (memBytes m a 16) true else Cap.null

/-- The state a frame at `a` restores (R103, R105), SFC aside. -/
def restoreFrame (th : Thread) (m : Mem) (a : Nat) : Thread :=
  let pc := memWord m a
  let fl := memWord m (a + 0x20)
  let depth := min 16 (bits fl 16 5).toNat
  let gl := min 4 (bits (memWord m (a + 0x24)) 0 3).toNat
  { th with
    pc := pc
    acc := memWord m (a + 0x10)
    acg := bits (memWord m (a + 0x14)) 0 8
    ix := memWord m (a + 0x18)
    iy := memWord m (a + 0x1C)
    flags := fl &&& flagsMask
    rs := (upFrom 0 depth).map (fun i => memWord m (a + 0x40 + 4 * i))
    pcc := { frameCap m (a + 0x80) with cursor := pc }
    ddc := frameCap m (a + 0x90)
    c1 := frameCap m (a + 0xA0)
    c2 := frameCap m (a + 0xB0)
    c3 := frameCap m (a + 0xC0)
    c4 := frameCap m (a + 0xD0)
    c5 := frameCap m (a + 0xE0)
    c6 := frameCap m (a + 0xF0)
    glink := (upFrom 0 gl).map (fun i => (frameCap m (a + 0x100 + 32 * i), frameCap m (a + 0x110 + 32 * i)))
    closeEnd := none
    st := .running }

/-- Any word that a return restores is poisoned (R103, R105). -/
def framePoisoned (m : Mem) (a : Nat) : Bool :=
  memPoisoned 4 m a 4 || memPoisoned 4 m (a + 0x10) 0x18 || memPoisoned 4 m (a + 0x40) 0x140

/-- The words of a frame are read, and corrected or poisoned as R267 says, and so are the tags of its capabilities (R271). -/
def settleFrame (s : State) (slot a : Nat) : State :=
  if isSo slot then readL2Tags { s with l2 := (settleWords 4 s.l2 (wordsOf 4 a 0x180)).mem } (a + 0x80) 0x100
  else readTags (settleLocal s slot a 0x180) slot (a + 0x80) 0x100

/-- ERET for thread `k` (R105), also performed by RESUME (R115); `pc` is the PC of the escalation frame if it fails. -/
def doEret (s : State) (slot : Nat) (k : Fin 4) (pc : Word) : State :=
  let th := getTh s slot k
  let fa := (th.sfc.cursor - 0x180).toNat
  if !sfcOk s slot th.sfc fa then escalate s slot k cSAVE_FRAME 0 (BitVec.ofNat 32 fa) 0 pc
  else
    let s := settleFrame s slot (fa - frameBase slot)
    let m := frameMem s slot
    if framePoisoned m (fa - frameBase slot) then escalate s slot k cSAVE_FRAME 0 (BitVec.ofNat 32 fa) 0 pc
    else
      modTh (useFramePath s slot k) slot k (fun th =>
        { restoreFrame th m (fa - frameBase slot) with sfc := { th.sfc with cursor := BitVec.ofNat 32 fa } })

/-- ESCRET (R108): restores the escalation frame, keeps SFC, and releases the other threads. -/
def doEscret (s : State) (slot : Nat) (k : Fin 4) : State :=
  let a := escFrame slot - frameBase slot
  let s := settleFrame s slot a
  let m := frameMem s slot
  if framePoisoned m a then haltCore s slot k cSAVE_FRAME
  else
    let s := modTh (useFramePath s slot k) slot k (fun th => restoreFrame th m a)
    modCore s slot (fun c => { c with escActive := false })

/-! ### The slot table (R116 to R118) -/

/-- SLOTp in effect. -/
def slotEntry (c : Core) (p : Nat) : Word := csrGet c (0x1020 + 4 * p)

/-- The thread that owns position `p`; an entry with IDLE names none (R116). -/
def slotOwner (c : Core) (p : Nat) : Option (Fin 4) :=
  if bitOf (slotEntry c p) 8 then none else some (Fin.ofNat 4 (bits (slotEntry c p) 0 2).toNat)

/-- The thread that issues in position `p` where its owner does not (R118): DTHREAD, if the entry donates and DTHREAD is not
the owner. A position has this one receiver, so a donation does not chain. -/
def slotReceiver (c : Core) (p : Nat) : Option (Fin 4) :=
  let d : Fin 4 := Fin.ofNat 4 (bits (slotEntry c p) 12 2).toNat
  if bitOf (slotEntry c p) 15 && slotOwner c p != some d then some d else none

/-- The thread has a position in which it may issue: one of its own, or one donated to it (R117, R118). In which cycle the
position comes, and whether its owner leaves it, is the sender's business, as all time is. -/
def hasPosition (c : Core) (t : Fin 4) : Bool :=
  (upFrom 0 8).any (fun p => slotOwner c p == some t || slotReceiver c p == some t)

/-! ### Waiting (R112, R124, R337, R341) -/

/-- The thread begins to wait. A thread in ESCALATION leaves that state by ESCRET and halt alone (R112), so it waits in it. -/
def beginWait (w : WaitFor) (now : Nat) (th : Thread) : Thread :=
  { th with st := if th.st = .escalation then .escalation else .waiting, wait := some w, waitFrom := now }

/-- The thread waits for `w`. -/
def waitsFor (th : Thread) (w : WaitFor) : Bool := (th.st == .waiting || th.st == .escalation) && th.wait == some w

/-- A waiting thread's wait ends: the instruction completes (R124, R337, R341). -/
def endWait (th : Thread) : Thread :=
  { th with st := if th.st = .escalation then .escalation else .running, wait := none, pc := th.pc + 4 }

/-- The event bit of the thread is set (R123, R124): a thread waiting in WFE takes it and goes on. -/
def setEvent (s : State) (slot : Nat) (t : Fin 4) : State :=
  modTh s slot t (fun th => if waitsFor th .event then { endWait th with ev := false } else { th with ev := true })

/-! ### Instruction boundaries and deliveries (R99, R100, R125, R138, R187, R217) -/

/-- The thread is closed (R98): its closure has not been ended. -/
def isClosed (th : Thread) : Bool := th.closeEnd.isSome

/-- The commit point of an instruction in flight (R214, R170). -/
def commitAt (o : TileOp) : Nat := o.issued + (if o.trap then o.lat else o.occ)

/-- The tile instruction of thread `t` that has not reached its commit point (R214, R217). -/
def tileBeforeCommit (s : State) (slot : Nat) (t : Fin 4) : Option TileOp :=
  (getCore s slot).tq.find? (fun o => o.t == t && decide (clockOf s slot < commitAt o))

/-- A tile instruction in flight holds an access to `n` bytes at `a` of local memory (R232): any access to bytes of an
image that it writes, until it retires, and a write to bytes of an image that it reads, until its commit point. -/
def tileHolds (s : State) (slot a n : Nat) (write : Bool) : Bool :=
  (getCore s slot).tq.any (fun o => match o.span with
    | some (b, len) =>
      decide (a < b + len ∧ b < a + n) && (o.spanWrite || (write && decide (clockOf s slot < commitAt o)))
    | none => false)

/-- A store to VSEN or VSCALEn takes effect, and its thread goes on (R202). -/
def applyPend (c : Core) (p : PendSet) : Core :=
  let c := csrSet c p.off (bits p.value 0 32)
  match p.who with
  | .thread t => coreModTh c t (fun th => { th with block := none })
  | .window => c

/-- The stores to the tile configuration take effect once no tile instruction is in flight (R211), and a TFENCE ends once
none that it waits for is (R219). -/
def drainTile (c : Core) : Core :=
  let c := if c.tq.isEmpty then c.tcfgPend.foldl applyPend { c with tcfgPend := [] } else c
  let free (t : Fin 4) (th : Thread) : Thread :=
    if th.block = some .tfence ∧ !c.tq.any (fun o => o.fences.contains t) then { th with block := none } else th
  ([0, 1, 2, 3] : List (Fin 4)).foldl (fun c t => coreModTh c t (free t)) c

/-- The draws that an LSUM instruction took are kept for its re-issue; another instruction leaves what is kept (R176). -/
def keepDraws (k : Option KeptDraws) (th : Thread) : Thread := if k.isSome then { th with kept := k } else th

/-- A delivery abandons the thread's tile instruction before its commit point (R217): nothing of it is written,
TILE_ABORTS counts it, and the thread's PC is the instruction's own. -/
def abandonTile (s : State) (slot : Nat) (t : Fin 4) : State :=
  match tileBeforeCommit s slot t with
  | none => s
  | some o =>
    let s := modCore s slot (fun c =>
      drainTile (csrCount { c with tq := c.tq.filter (fun x => !(x.t == t && x.issued == o.issued)) } 0x4030 1))
    modTh s slot t (fun th => keepDraws o.kept { th with pc := o.pc, block := none })

/-- The thread is at an instruction boundary at which a delivery reaches it, or is WAITING (R125). A thread blocked on
shared SRAM, a setting or a rebind has an instruction in progress, which completes first (R67), and so does each of its
vector instructions (R187); a tile instruction before its commit point is abandoned instead (R217). While a thread of the
core is in escalation nothing is delivered (R107). -/
def deliverable (s : State) (slot : Nat) (t : Fin 4) : Bool :=
  let c := getCore s slot
  let th := c.th[t]
  !c.held && !c.halted && !c.escActive && !c.vq.any (fun o => o.t == t) &&
    ((th.st == .running &&
      (th.block.isNone || (th.block == some .nanWait && (tileBeforeCommit s slot t).isSome))) || th.st == .waiting)

/-- The resume point of a delivery (R125): a WFE counts as complete, any other wait re-enters. -/
def resumePc (th : Thread) : Word :=
  if th.st = .waiting ∧ th.wait = some .event then th.pc + 4 else th.pc

/-- The thread leaves its wait for a delivery: it is RUNNING at its resume point. -/
def atBoundary (s : State) (slot : Nat) (t : Fin 4) : State :=
  let s := abandonTile s slot t
  modTh s slot t (fun th => { th with pc := resumePc th, st := .running, wait := none })

/-- POST_Qq.OPEN (R325). -/
def queueOpen (c : Core) (q : Nat) : Bool := bitOf (csrGet c (0x7010 + 4 * q)) 31

/-- The lowest-numbered open queue that holds a descriptor. -/
def nextQueue (c : Core) : Option (Fin 4) :=
  ([0, 1, 2, 3] : List (Fin 4)).find? (fun q => queueOpen c q.val && !c.queues[q].isEmpty)

/-- A stream fault waits for the thread (R299). -/
def streamFaultFor (c : Core) (t : Fin 4) : Option (Fin 4) :=
  ([0, 1, 2, 3] : List (Fin 4)).find? (fun u =>
    !c.su[u].fault.isEmpty && bits (csrGet c (0x6400 + 0x20 * u.val)) 26 2 == BitVec.ofNat 2 t.val)

/-- The notifications that are pending in the present cycle (R128). -/
def pendingNotes (s : State) (slot : Nat) : List Note :=
  (getCore s slot).notes.filter (fun n => decide (n.since ≤ clockOf s slot))

/-- A notification is pending for the supervisor. -/
def noteDue (s : State) (slot : Nat) : Bool := !(pendingNotes s slot).isEmpty

/-- What may reach a thread between two instructions: a debug stop, a notification, the fault of a stream unit, a post. -/
inductive Delivery where
  | stop
  | note
  | streamFault (u : Fin 4)
  | dispatch
deriving DecidableEq, Repr

/-- The delivery that the thread's next instruction boundary brings, in the order of R100 and R299; a closure holds them all
(R99). -/
def nextDelivery (s : State) (slot : Nat) (t : Fin 4) : Option Delivery :=
  let c := getCore s slot
  if isClosed c.th[t] then none
  else if c.th[t].stopReq then some .stop
  else if t == superOf s slot && noteDue s slot then some .note
  else match streamFaultFor c t with
    | some u => some (.streamFault u)
    | none => if t == handlerOf c && !c.pdActive && (nextQueue c).isSome then some .dispatch else none

/-! ### Flags (R335 to R337) -/

def flagDefault (_ : Nat) : Byte := 0

def flagGet (c : Core) (f : Nat) : Byte := tget flagDefault c.flags f

def flagSet (c : Core) (f : Nat) (v : Byte) : Core := { c with flags := tset flagDefault c.flags f v }

/-- The threads waiting for flag `f`, in waiter order: by the cycle in which each began to wait, then by number. -/
def flagWaiters (c : Core) (f : BitVec 6) : List (Fin 4) :=
  let ws := ([0, 1, 2, 3] : List (Fin 4)).filter (fun t => waitsFor c.th[t] (.flag f))
  ws.mergeSort (fun a b => decide (c.th[a].waitFrom ≤ c.th[b].waitFrom))

/-- Waiting threads are released, one per unit of count while count remains (R337 step 3). -/
def releaseWaiters (c : Core) (f : BitVec 6) : List (Fin 4) → Core
  | [] => c
  | t :: ts =>
    if flagGet c f.toNat = 0 then c
    else releaseWaiters (coreModTh (flagSet c f.toNat (flagGet c f.toNat - 1)) t endWait) f ts

/-- One signal reaches flag `f` (R335): it adds one, or is counted in FSAT when the counter stands at 255; then the
waiters are served (R337). -/
def signalFlag (c : Core) (f : BitVec 6) : Core :=
  let c :=
    if flagGet c f.toNat = 255 then
      csrSet (csrCount c 0x8060 1) 0x8064 (0x80000000 ||| zext f)
    else flagSet c f.toNat (flagGet c f.toNat + 1)
  releaseWaiters c f (flagWaiters c f)

/-- A saturation of flag `f` of a core sets FSAT_LAST.VALID (R5, R335). -/
def noteSat (s : State) (slot : Nat) (f : BitVec 6) : State :=
  if flagGet (getCore s slot) f.toNat = 255 then noteSet s (corePlace slot 0x8064) 0x80000000 else s

/-- One signal reaches flag `f` of the core (R335). -/
def signalAt (s : State) (slot : Nat) (f : BitVec 6) : State := modCore (noteSat s slot f) slot (fun c => signalFlag c f)

/-! ### Issue (R64, R112, R138, R140) -/

/-- The thread may issue now: its core is out of reset, not halted and clocked, nothing of the thread is in progress, and
its last tile instruction has reached its commit point (R214). A RUNNING thread needs a position of the slot table (R117,
R118), no thread in escalation (R107), and no delivery due at this boundary (R100, R129, R138); a thread in ESCALATION issues
whatever the table says (R107). -/
def canIssue (s : State) (slot : Nat) (t : Fin 4) : Bool :=
  let c := getCore s slot
  let th := c.th[t]
  !c.held && !c.halted && clocked s slot && th.block.isNone && th.wait.isNone &&
    ((th.st == .running && !c.escActive && hasPosition c t && (nextDelivery s slot t).isNone) || th.st == .escalation) &&
    (tileBeforeCommit s slot t).isNone

/-- Instructions are fetched only from local memory, or from boot ROM and locked L2 by a control core (R41, R486). -/
def fetchable (s : State) (slot a : Nat) : Bool :=
  match placeOf s slot a 4 with
  | .loc _ => true
  | .rom _ => true
  | .lockedL2 _ => true
  | _ => false

/-- The checks of a transfer target or of the word at PC (R63): PCC, alignment, and the range of R41. -/
def checkTarget (s : State) (slot : Nat) (pcc : Cap) (target : Word) : Option FaultInfo :=
  match capCheck pcc target.toNat 4 pEXEC with
  | some f => some f
  | none =>
    if target.toNat % 4 ≠ 0 then some (addrFault cALIGN target.toNat)
    else if !fetchable s slot target.toNat then some (addrFault cILLEGAL target.toNat)
    else none

/-! ### The instruction caches of the control cores (R484, R485) -/

/-- The first line number of the mailbox SRAM, and of the boot ROM. -/
def mbxLines : Nat := 2 ^ 58
def romLines : Nat := mbxLines + 4096

/-- The line of the boot ROM with a number. -/
def romUnit (id : Nat) : Unit64 := ⟨BitVec.ofNat 512 (leNat ((upFrom (64 * (id - romLines)) 64).map Config.bootRom)), 0⟩

def lineDefault (_ : Nat) : Option CLine := none

def holdsLine (x : Option CLine) (id : Nat) : Bool :=
  match x with
  | some l => l.line == id
  | none => false

/-- An entry for a new line: an empty one, else one whose choice is open. -/
def chooseWay (s : State) (ways : List Nat) (free : Nat → Bool) : Nat × State :=
  match ways.find? free with
  | some i => (i, s)
  | none =>
    let (n, s) := freshNat s
    (ways.getD (Config.victim n % ways.length) 0, s)

/-- Control core `k` fetches from the boot ROM at `a`: its line enters the instruction cache of the core, and no other
(DESIGN CHOICE, log 109). -/
def fetchRom (s : State) (k a : Nat) : State :=
  let id := romLines + a / 64
  let ways := upFrom (512 * k + 4 * (id % 128)) 4
  if ways.any (fun i => holdsLine (tget lineDefault s.so.l1i i) id) then s
  else
    let (i, s) := chooseWay s ways (fun i => (tget lineDefault s.so.l1i i).isNone)
    modSo s (fun o => { o with l1i := tset lineDefault o.l1i i (some ⟨id, romUnit id, false⟩) })

/-- The read of the word at PC (R45, R267). -/
def settleFetch (s : State) (slot a : Nat) : State :=
  match placeOf s slot a 4 with
  | .loc a => settleLocal s slot a 4
  | .lockedL2 o => { s with l2 := (settleWords 4 s.l2 (wordsOf 4 o 4)).mem }
  | .rom a => fetchRom s (slot - 576) a
  | _ => s

/-- The word at PC is poisoned. -/
def fetchPoisoned (s : State) (slot a : Nat) : Bool :=
  match placeOf s slot a 4 with
  | .loc a => memPoisoned 4 (getCore s slot).mem a 4
  | .lockedL2 o => memPoisoned 4 s.l2 o 4
  | _ => false

/-- The fault of the fetch at the thread's PC, if any (R41, R45, R63, R106). -/
def fetchFault (s : State) (slot : Nat) (t : Fin 4) : Option FaultInfo :=
  let th := getTh s slot t
  match checkTarget s slot th.pcc th.pc with
  | some f => some f
  | none => if fetchPoisoned s slot th.pc.toNat then some (addrFault cPOISON_CONSUMED th.pc.toNat) else none

/-- After an issue: a STEP has made its one instruction and stops again, once a blocked one has ended (R140) and at the commit
point of a tile instruction (R218); one that ended in STOPPED_FAULT has stopped already (R140). The next orphan episode may begin (R134). -/
def afterIssue (s : State) (slot : Nat) (t : Fin 4) : State :=
  let s := modCore s slot (fun c => { c with orphanRaised := false })
  if (getTh s slot t).stepping then
    let more := (tileBeforeCommit s slot t).isSome || (getTh s slot t).block.isSome
    modTh s slot t (fun th =>
      if th.st = .stoppedFault ∨ th.st = .halted then { th with stepping := false }
      else { th with stepping := more, stopReq := true })
  else s

/-- Thread `t` of `cpu` issues an instruction with the given body. A thread that cannot issue, or whose operands are
not ready, leaves the state as it is (R64, R112); a fetch or instruction fault is taken (R102). -/
def issue (s : State) (cpu : Cpu) (t : Fin 4) (body : Nat → State → Res State) :
    Host.Outcome State Fault Refusal :=
  match slotOf s cpu with
  | none => .next s
  | some slot =>
    if !canIssue s slot t then .next s
    else
      let s' := settleFetch s slot (getTh s slot t).pc.toNat
      match fetchFault s' slot t with
      | some f => .next (afterIssue (takeFault s' slot t f) slot t)
      | none =>
        match body slot s' with
        | .ok s'' => .next (afterIssue s'' slot t)
        | .fault f => .next (afterIssue (takeFault s' slot t f) slot t)
        | .after s'' f => .next (afterIssue (takeFault s'' slot t f) slot t)
        | .stall => .next s

/-- The thread changes by `f` and goes on to the next instruction. -/
def advance (s : State) (slot : Nat) (t : Fin 4) (f : Thread → Thread) : State :=
  modTh s slot t (fun th => { f th with pc := th.pc + 4 })

end Sys2Proof.Machine
end

