-- ==== Sys2Proof/Machine/Send.lean ====
section
/-! DEFINITION. Sending on the fabric: this device's number, routes, sequence numbers, and what becomes of a unit that
finds no route (R422, R423, R428 to R431, R434, R437). -/
namespace Sys2Proof.Machine

/-- The operations of R406. -/
def opREAD : BitVec 8 := 1
def opREAD_RESP : BitVec 8 := 2
def opWRITE : BitVec 8 := 3
def opWRITE_ACK : BitVec 8 := 4
def opPOST : BitVec 8 := 5
def opSIGNAL : BitVec 8 := 6
def opREDUCE : BitVec 8 := 7
def opBARRIER : BitVec 8 := 8
def opDEAD : BitVec 8 := 9
def opINGEST : BitVec 8 := 10
def opINGEST_LAST : BitVec 8 := 11
def opINGEST_STATUS : BitVec 8 := 12
def opMGMT : BitVec 8 := 13

/-- FAB_DEV (R423, R450). -/
def fabDev (s : State) : BitVec 16 := bits (devGet s 0x70000) 0 16

/-- The offset of a port's registers (R421). -/
def portBase (p : Nat) : Nat := 0x60000 + 0x1000 * p

/-- PORT_STAT.STATE: 0 DOWN, 1 TRAINING, 2 ACTIVE, 3 QUIESCED, 4 RETRAINING, 5 FAILED, 6 RETIRED. -/
def portState (s : State) (p : Nat) : Nat := (bits (devGet s (portBase p + 4)) 29 3).toNat

def setPortState (s : State) (p st : Nat) : State :=
  devSet s (portBase p + 4) (setBits (devGet s (portBase p + 4)) 29 (BitVec.ofNat 3 st))

def portDefault (_ : Nat) : Port := Port.reset

def getPort (s : State) (p : Nat) : Port := tget portDefault s.fab.ports p

/-- The PORT_CFG that the port's last training took names fabric, or ingest (R421). -/
def isFabric (s : State) (p : Nat) : Bool := bits (getPort s p).cfg 30 2 == 1
def isIngest (s : State) (p : Nat) : Bool := bits (getPort s p).cfg 30 2 == 2

def modPort (s : State) (p : Nat) (f : Port → Port) : State :=
  { s with fab := { s.fab with ports := tset portDefault s.fab.ports p (f (getPort s p)) } }

/-- A 16-bit count at bit `lo` of device CSR `o` that stops at all ones. -/
def devCount (s : State) (o lo w n : Nat) : State :=
  let old := devGet s o
  let v := addCap (2 ^ w - 1) (old.toNat / 2 ^ lo % 2 ^ w) n
  devSet s o (BitVec.ofNat 32 (old.toNat - (old.toNat / 2 ^ lo % 2 ^ w) * 2 ^ lo + v * 2 ^ lo))

/-- The offset of the route entry for a destination (R428). -/
def routeOff (s : State) (dst : BitVec 16) : Nat :=
  if bits dst 7 9 = bits (fabDev s) 7 9 then 0x71800 + 4 * (bits dst 0 7).toNat else 0x71000 + 4 * (bits dst 7 9).toNat

/-- A port is in service while ACTIVE, QUIESCED or RETRAINING (R428). -/
def inService (s : State) (p : Nat) : Bool :=
  portState s p == 2 || portState s p == 3 || portState s p == 4

/-- The ingest port whose endpoint has the number `dst` (R418). -/
def endpointPort (s : State) (dst : BitVec 16) : Option Nat :=
  (upFrom 0 16).find? (fun p => isIngest s p && bits (getPort s p).cfg 0 16 == dst)

/-- The port carries units of VC1 to VC7 (R428, R575). -/
def carries (s : State) (p : Nat) : Bool := inService s p && !(getPort s p).shut

/-- The egress port of a unit (R428), none where it is unreachable. While FAB_DEV is unset only an endpoint of an own port has a
route, through that port (R418, R423); 0xFFFF is never a destination (R422). -/
def egress (s : State) (dst : BitVec 16) (vc : BitVec 3) : Option Nat :=
  if fabDev s = 0xFFFF then
    (endpointPort s dst).filter (fun p => if vc = 0 then portState s p == 2 else inService s p)
  else if dst = 0xFFFF then none
  else
    let e := devGet s (routeOff s dst)
    let port := (bits e 0 4).toNat
    let alt := (bits e 4 4).toNat
    if vc = 0 then
      if bitOf e 31 && portState s port == 2 then some port
      else if bitOf e 30 && portState s alt == 2 then some alt
      else none
    else if bitOf e 29 then (if bitOf e 30 && carries s alt then some alt else none)
    else if bitOf e 31 && carries s port then some port
    else none

/-- The unit waits at the egress of port `p`. -/
def pushTx (s : State) (p : Nat) (u : FUnit) : State := modPort s p (fun q => { q with txq := q.txq ++ [u] })

/-- A flow's key: the other device and the VC. -/
def flowKey (dev : BitVec 16) (vc : BitVec 3) : Nat := 8 * dev.toNat + vc.toNat

def ctrDefault (_ : Nat) : BitVec 16 := 0

/-- The unit's answer where no route is found (R437): answers, dead letters and tree units have none. -/
def noRouteAnswer (u : FUnit) : Option FUnit :=
  let back : FUnit :=
    { op := 0, vc := 2, src := u.dst, dst := u.src, eseq := 0, space := 1, unit := 0, pzn := false, data := 0 }
  if u.op = opREAD then some { back with op := opREAD_RESP, unit := bits u.data 0 38 }
  else if u.op = opWRITE then
    some { back with op := opWRITE_ACK, unit := (u.vc.setWidth 38 <<< 16) ||| u.eseq.setWidth 38 }
  else if u.op = opPOST then
    some { back with
      op := opDEAD, vc := 3, space := 7, unit := (u.vc.setWidth 38 <<< 16) ||| u.eseq.setWidth 38, data := u.data }
  else if u.op = opSIGNAL then
    some { back with
      op := opDEAD, vc := 3, space := 7, unit := (u.vc.setWidth 38 <<< 16) ||| u.eseq.setWidth 38,
      data := 0x80000000#512 ||| (bits u.unit 0 6).setWidth 512 }
  else none

/-- A tree unit that finds no route marks its tree (R437). -/
def treeUnreach (s : State) (u : FUnit) : State :=
  let o := 0x7202C + 0x40 * (bits u.unit 0 4).toNat
  devOr s o 0x20000000

/-- The unit is a tree unit (R443). -/
def isTreeUnit (u : FUnit) : Bool := u.op == opREDUCE || u.op == opBARRIER

/-- A unit that finds no route is counted and answered at once (R437). -/
def noRoute (s : State) (u : FUnit) : State :=
  let s := devCount s 0x70018 16 16 1
  if isTreeUnit u then treeUnreach s u
  else
    match noRouteAnswer u with
    | some a => { s with fab := { s.fab with answers := s.fab.answers ++ [a] } }
    | none => s

/-- A unit that this device originates takes its sequence number, is remembered if it has an answer, and goes to its
port (R431, R436). A signal is remembered until its number is used again. -/
def release (s : State) (u : FUnit) (what : Option Asked) : State :=
  let key := flowKey u.dst u.vc
  let u := if u.vc = 0 then u else { u with eseq := tget ctrDefault s.fab.sendCtr key }
  let old (r : Remote) : Bool := match r.what with
    | .signal _ _ _ => r.dst == u.dst && r.vc == u.vc && r.eseq == u.eseq
    | _ => false
  let s := match what with
    | some w =>
      { s with fab := { s.fab with
          remote := s.fab.remote.filter (fun r => !old r) ++ [⟨u.op == opREAD, u.dst, (bits u.data 0 38).toNat, u.vc, u.eseq, w⟩] } }
    | none => s
  let s := if u.vc = 0 then s
    else { s with fab := { s.fab with sendCtr := tset ctrDefault s.fab.sendCtr key (u.eseq + 1) } }
  match egress s u.dst u.vc with
  | none => if u.vc = 0 then s else noRoute s u
  | some p => pushTx s p u

def noBool (_ : Nat) : Bool := false

/-- New units to this destination wait: it has not acknowledged SEQ_RESTART (R434), has stopped injection (R449), its
entry is switching (R430), or an earlier unit to it waits. -/
def mustWait (s : State) (dst : BitVec 16) : Bool :=
  tget noBool s.fab.barred dst.toNat || tget noBool s.fab.stopped dst.toNat ||
    s.fab.routeHold.any (fun p => p.1 == routeOff s dst) || s.fab.waiting.any (fun w => !w.numbered && w.unit.dst == dst)

/-- A unit waits to leave. -/
def addWaiting (s : State) (w : WUnit) : State := { s with fab := { s.fab with waiting := s.fab.waiting ++ [w] } }

/-- This device originates a unit (R431): to an endpoint of its own port, or over the fabric. -/
def sendUnit (s : State) (u : FUnit) (what : Option Asked) : State :=
  let u := { u with src := fabDev s }
  if u.vc ≠ 0 ∧ mustWait s u.dst then addWaiting s ⟨u, what, false⟩
  else release s u what

/-- A unit that is not this device's own finds no route: it is answered towards its source (R437). -/
def noRouteFor (s : State) (u : FUnit) : State :=
  if u.src = fabDev s then noRoute s u
  else
    let s := devCount s 0x70018 16 16 1
    if isTreeUnit u then treeUnreach s u
    else match noRouteAnswer u with
    | some a => sendUnit s a none
    | none => s

/-- A unit that has its number passes on, or waits for its route entry to switch (R428, R430, R437). -/
def transit (s : State) (u : FUnit) : State :=
  if u.vc ≠ 0 ∧ s.fab.routeHold.any (fun h => h.1 == routeOff s u.dst) then addWaiting s ⟨u, none, true⟩
  else match egress s u.dst u.vc with
    | some q => pushTx s q u
    | none => if u.vc = 0 then s else noRouteFor s u

/-- Waiting units that no longer have to wait are released, in order. -/
def flushWaiting (s : State) : State :=
  let all := s.fab.waiting
  all.foldl (fun s w => if w.numbered then transit s w.unit else sendUnit s w.unit w.what)
    { s with fab := { s.fab with waiting := [] } }

/-- Units held behind the bulk writes of key `k` (R343) go once nothing is left before them. -/
def clearBehind (s : State) (k : Nat) : State :=
  let all := s.fab.behind.map (fun p => (p.1, p.2.1, p.2.2.filter (· != k)))
  (all.filter (fun p => p.2.2.isEmpty)).foldl (fun s p => sendUnit s p.1 p.2.1)
    { s with fab := { s.fab with behind := all.filter (fun p => !p.2.2.isEmpty) } }

/-- A fresh number for an operation of an engine. -/
def newOp (s : State) : Nat × State := (s.fab.opNo, { s with fab := { s.fab with opNo := s.fab.opNo + 1 } })

/-- A fresh TAG for a READ. -/
def newTag (s : State) : Nat × State :=
  (s.fab.nextTag, { s with fab := { s.fab with nextTag := (s.fab.nextTag + 1) % 2 ^ 38 } })

/-- A READ of one unit of a device's space (R406). -/
def sendRead (s : State) (dst : BitVec 16) (space : BitVec 4) (off : Nat) (what : Asked) : State :=
  let (tag, s) := newTag s
  sendUnit s
    { op := opREAD, vc := 1, src := 0, dst := dst, eseq := 0, space := space, unit := BitVec.ofNat 38 (off / 64), pzn := false,
      data := BitVec.ofNat 512 tag } (some what)

/-- A WRITE of one unit on a VC; any poison poisons the whole unit (R420). -/
def sendWrite (s : State) (vc : BitVec 3) (dst : BitVec 16) (space : BitVec 4) (off : Nat) (d : Unit64) (what : Asked) : State :=
  sendUnit s
    { op := opWRITE, vc := vc, src := 0, dst := dst, eseq := 0, space := space, unit := BitVec.ofNat 38 (off / 64),
      pzn := d.poison != 0, data := d.data } (some what)

end Sys2Proof.Machine
end

