-- ==== Sys2Proof/Machine/Global.lean ====
section
/-! DEFINITION. Global addresses and handles: reading and writing 64-byte units of this device's spaces 0x0 to 0x3
(R243, R373 to R376, R381 to R387, R424), and what a handle names (R258 to R261). -/
namespace Sys2Proof.Machine

/-! ### Clusters that sleep (R530 to R532) -/

/-- The cluster is asleep: idle or in NAP, or stopped on its way to RUN. -/
def asleep (s : State) (c : Fin 8) : Bool :=
  let k := getCl s c
  k.power == .idle || k.power == .nap

/-- A wake cause reaches the cluster (R532). -/
def wakeCause (s : State) (c : Fin 8) : State :=
  modCl s c (fun k => { k with wakeSeen := true, waking := k.waking || k.power == .idle || k.power == .nap })

/-- A unit for a core of a sleeping cluster waits for RUN (R532). -/
def holdUnit (s : State) (c : Fin 8) (u : HeldUnit) : State :=
  modCl (wakeCause s c) c (fun k => { k with heldUnits := k.heldUnits ++ [u] })

/-! ### External memories (R373 to R376, R381 to R387) -/

def hbmEnd : Nat := 0x8700000000
def lpEnd : Nat := 0x7000000000

/-- The stack of an offset of space 0x0 (R373) and its stack address. -/
def hbmStack (o : Nat) : Nat × Nat :=
  let side := if o < 0x4380000000 then 0 else 1
  let g := (o - 0x4380000000 * side) / 4096
  (8 * side + g % 8, g / 8 * 4096 + o % 4096)

/-- HBM_CFG.STATE is not zero and names stack `k`, with the granules already moved (R389, R394). -/
def retiring (s : State) (k : Nat) : Option Nat :=
  let cfg := devGet s 0x40000
  if bits cfg 30 2 ≠ 0 ∧ (bits cfg 0 4).toNat = k then some (bits (devGet s 0x40004) 0 24).toNat else none

/-- The stack that holds an offset now, after the remap of R389. -/
def homeStack (s : State) (o : Nat) : Nat :=
  let (k, a) := hbmStack o
  match retiring s k with
  | none => k
  | some doneJ =>
    let j := a / 4096
    if j < doneJ then (let e := j % 15; if e < k then e else e + 1) else k

/-- The package of an offset of space 0x1 (R374). -/
def lpPackage (o : Nat) : Nat := o / 4096 % 16

/-- LP_CFG.AVAIL (R395). -/
def lpAvail (s : State) : Bool := bitOf (devGet s 0x50000) 31

/-- The first uncorrectable error since VALID was clear is logged and notified (R384, R394, R395, R501). -/
def logExternal (s : State) (base : Nat) (place : Nat) (code : BitVec 16) (off : Nat) : State :=
  if bitOf (devGet s (base + 0x18)) 31 then s
  else
    let s := devSet (devSet s (base + 0x10) (BitVec.ofNat 32 off)) (base + 0x14) (BitVec.ofNat 32 (off / 2 ^ 32))
    let s := noteSet (devSet s (base + 0x18) (0x80000000 ||| BitVec.ofNat 32 place)) (base + 0x18) 0x80000000
    pushEvent s code (BitVec.ofNat 16 place) (BitVec.ofNat 64 off)

/-- A read meets the HBM groups under the unit at `o` (R382): counted, and rewritten in a later refresh slot (R384). -/
def settleHbm (s : State) (o : Nat) : State :=
  (wordsOf 32 o 64).foldl (fun s w =>
    let k := homeStack s (32 * w)
    match memCheck s.fab.hbm w with
    | .single =>
      let s := devCount s (0x40100 + 4 * k) 0 15 1
      { s with fab := { s.fab with hbmFix := if s.fab.hbmFix.contains w then s.fab.hbmFix else s.fab.hbmFix ++ [w] } }
    | .double =>
      let s := devCount s (0x40100 + 4 * k) 15 15 1
      let s := logExternal s 0x40000 k 0x0011 (32 * w)
      { s with fab := { s.fab with hbmFix := if s.fab.hbmFix.contains w then s.fab.hbmFix else s.fab.hbmFix ++ [w] } }
    | _ => s) s

/-- A read meets the LPDDR5X words under the unit at `o` (R382, R383). -/
def settleLp (s : State) (o : Nat) : State :=
  (wordsOf 8 o 64).foldl (fun s w =>
    let k := lpPackage (8 * w)
    match memCheck s.fab.lp w with
    | .single =>
      let s := devCount s (0x50100 + 4 * k) 0 10 1
      { s with fab := { s.fab with lpFix := if s.fab.lpFix.contains w then s.fab.lpFix else s.fab.lpFix ++ [w] } }
    | .double =>
      let s := devCount s (0x50100 + 4 * k) 10 10 1
      let s := logExternal s 0x50000 k 0x0012 (8 * w)
      { s with fab := { s.fab with lpFix := if s.fab.lpFix.contains w then s.fab.lpFix else s.fab.lpFix ++ [w] } }
    | _ => s) s

/-- A word whose value a read returns as poison: poisoned, or uncorrectable and not yet rewritten (R267, R382). -/
def readsPoison (c : Check) : Bool := c == .poison || c == .double

/-- The 64 bytes at `o` of a memory whose protected words are `u` bytes wide, with the poison of each 4-byte word
(R387). -/
def unitOf (u : Nat) (m : Mem) (o : Nat) : Unit64 where
  data := BitVec.ofNat 512 (leNat ((upFrom 0 64).map (fun i =>
    if readsPoison (memCheck m ((o + i) / u)) then 0 else memByte m (o + i))))
  poison := BitVec.ofNat 16 ((upFrom 0 16).foldl (fun acc i =>
    if readsPoison (memCheck m ((o + 4 * i) / u)) then acc + 2 ^ i else acc) 0)

/-- The bytes of a unit. -/
def unitBytes (d : Unit64) : List Byte := leBytes 64 d.data.toNat

/-- Every poisoned 4-byte word of the unit poisons the protected word that holds it (R387). -/
def poisonUnit (u : Nat) (m : Mem) (o : Nat) (p : BitVec 16) : Mem :=
  (upFrom 0 16).foldl (fun m i => if bitOf p i then memPoisonWord u m ((o + 4 * i) / u) else m) m

/-- A unit is written at `o`, with its poison (R86, R387). -/
def writeUnitMem (u : Nat) (m : Mem) (o : Nat) (d : Unit64) : Mem :=
  poisonUnit u (memStore u m o (unitBytes d)) o d.poison

/-! ### Units of this device (R375, R376, R424) -/

/-- IDENT_CORES.LOGICAL (R22): eight clusters of PER_CLUSTER cores. -/
def logicalCount (s : State) : Nat := 8 * s.perCluster

/-- The logical core and local address of an offset of space 0x3. -/
def localOf (off : Nat) : Nat × Nat := (off / 0x80000, off % 0x80000)

/-- The slot of the core that an offset of space 0x3 reaches: the offset is below 2^32, the core is below LOGICAL and its
cluster is in service (R424). -/
def localSlot (s : State) (off : Nat) : Option Nat :=
  if 2 ^ 32 ≤ off ∨ logicalCount s ≤ (localOf off).1 then none
  else match siteOf s (localOf off).1 with
    | none => none
    | some site => if (getCl s (clusterOf site)).service = .inService ∨ (getCl s (clusterOf site)).service = .draining
        then some site else none

/-- A stack or package in self-refresh leaves it for a unit (R380); `o` is its error register. -/
def leaveRefresh (s : State) (o : Nat) : State :=
  if bitOf (devGet s o) 31 then devSet s o (devGet s o &&& 0x7FFFFFFF) else s

/-- A transfer whose link check failed twice (R383): every word of the unit that is not poison is uncorrectable. -/
def failUnit (m : Mem) (o : Nat) : Mem :=
  (wordsOf 8 o 64).foldl (fun m w => if memCheck m w = .poison then m else memSetCheck m w .double) m

/-- The outcome of the link check of a transfer, which the spec leaves to the interface (R383). -/
def linkCheck (s : State) : LinkCheck × State :=
  let (n, s) := freshNat s
  (match (Config.lpLink n).toNat with
    | 0 => .ok
    | 1 => .corrected
    | 2 => .retryOk
    | _ => .retryFail, s)

/-- An LPDDR5X transfer of the unit at `o` meets the link (R383): an error is counted, and after a failed retry the
words are uncorrectable. -/
def linkUnit (s : State) (o : Nat) (link : LinkCheck) : State :=
  let s := if link = .ok then s else devCount s (0x50100 + 4 * lpPackage o) 20 11 1
  if link = .retryFail then { s with fab := { s.fab with lp := failUnit s.fab.lp o } } else s

/-- A corrective rewrite still waiting for its slot is of the old contents: a write of the words drops it. -/
def dropFix (l : List Nat) (u o : Nat) : List Nat := l.filter (fun w => !((wordsOf u o 64).contains w))

/-- A unit of space 0x0 is read (R380 to R382). -/
def readHbm (s : State) (o : Nat) : State × Unit64 :=
  let s := settleHbm (leaveRefresh s (0x40100 + 4 * homeStack s o)) o
  (s, unitOf 32 s.fab.hbm o)

/-- A unit of space 0x0 is written. -/
def writeHbm (s : State) (o : Nat) (d : Unit64) : State :=
  let s := leaveRefresh s (0x40100 + 4 * homeStack s o)
  { s with fab := { s.fab with hbm := writeUnitMem 32 s.fab.hbm o d, hbmFix := dropFix s.fab.hbmFix 32 o } }

/-- A unit of space 0x1 is read, with the outcome of its link check (R380, R382, R383). -/
def readLp (s : State) (o : Nat) (link : LinkCheck) : State × Unit64 :=
  let s := settleLp (linkUnit (leaveRefresh s (0x50100 + 4 * lpPackage o)) o link) o
  (s, unitOf 8 s.fab.lp o)

/-- A unit of space 0x1 is written; after a failed retry its words are stored poisoned (R382, R383). -/
def writeLp (s : State) (o : Nat) (d : Unit64) (link : LinkCheck) : State :=
  let s := leaveRefresh s (0x50100 + 4 * lpPackage o)
  let s := { s with fab := { s.fab with lp := writeUnitMem 8 s.fab.lp o d, lpFix := dropFix s.fab.lpFix 8 o } }
  let s := linkUnit s o link
  if link = .retryFail then settleLp s o else s

/-- A 64-byte read of this device, none where it answers with an error status (R243, R375, R424). -/
def readUnit (s : State) (space : BitVec 4) (off : Nat) : State × Option Unit64 :=
  match space.toNat with
  | 0 => if hbmEnd ≤ off then (s, none) else let r := readHbm s off; (r.1, some r.2)
  | 1 =>
    if lpEnd ≤ off ∨ !lpAvail s then (s, none)
    else
      let (link, s) := linkCheck s
      let r := readLp s off link
      (r.1, some r.2)
  | 2 => if 0x30000000 ≤ off then (s, none) else let s := settleSram s off 64; (s, some (unitOf 4 s.sram off))
  | 3 =>
    match localSlot s off with
    | none => (s, none)
    | some slot =>
      let a := (localOf off).2
      let s := settleLocal (wakeCause s (clusterOf slot)) slot a 64
      (s, some (unitOf 4 (getCore s slot).mem a))
  | _ => (s, none)

/-- A 64-byte write of this device; false where it answers with an error status. -/
def writeUnit (s : State) (space : BitVec 4) (off : Nat) (d : Unit64) : State × Bool :=
  match space.toNat with
  | 0 =>
    if hbmEnd ≤ off then (s, false)
    else (writeHbm s off d, true)
  | 1 =>
    if lpEnd ≤ off ∨ !lpAvail s then (s, false)
    else
      let (link, s) := linkCheck s
      (writeLp s off d link, true)
  | 2 => if 0x30000000 ≤ off then (s, false) else ({ s with sram := writeUnitMem 4 s.sram off d }, true)
  | 3 =>
    match localSlot s off with
    | none => (s, false)
    | some slot =>
      let s := wakeCause s (clusterOf slot)
      (modCore s slot (fun c => { c with mem := writeUnitMem 4 c.mem (localOf off).2 d }), true)
  | _ => (s, false)

/-- A unit of `n` bytes of pattern, or of zeros: good data. -/
def goodUnit (bs : List Byte) : Unit64 := ⟨BitVec.ofNat 512 (leNat bs), 0⟩

/-- A unit whose every word is poison. -/
def poisonedUnit : Unit64 := ⟨0, 0xFFFF⟩

/-! ### Handles (R258 to R261) -/

def handleDefault (_ : Nat) : BitVec 128 := 0

/-- The descriptor that handle `h` holds. -/
def handleGet (c : Core) (h : Nat) : BitVec 128 := tget handleDefault c.handles h

def hBase (d : BitVec 128) : Nat := (bits d 0 32).toNat + (bits d 32 12).toNat * 2 ^ 32
def hSpace (d : BitVec 128) : BitVec 4 := bits d 44 4
def hDevice (d : BitVec 128) : BitVec 16 := bits d 48 16
def hLen (d : BitVec 128) : Nat := (bits d 64 32).toNat
def hWays (d : BitVec 128) : Nat := (bits d 104 6).toNat
def hGran (d : BitVec 128) : Nat := (bits d 116 4).toNat
def hWr (d : BitVec 128) : Bool := bitOf d 125
def hRd (d : BitVec 128) : Bool := bitOf d 126
def hValid (d : BitVec 128) : Bool := bitOf d 127

/-- The bytes of an interleave granule (R258). -/
def granBytes (g : Nat) : Nat :=
  match g with
  | 1 => 0x100
  | 2 => 0x1000
  | 3 => 0x10000
  | _ => 0

/-- The conditions of R260 for an interleaved handle. -/
def interleaveOk (d : BitVec 128) : Bool :=
  let g := granBytes (hGran d)
  let b := hBase d
  let w := hWays d
  let s0 := b % 0x06000000 / 0x00200000
  decide (g ≠ 0 ∧ b < 0x30000000 ∧ b % g = 0 ∧ 1 ≤ w ∧ w ≤ 48 ∧ s0 + w ≤ 48 ∧
    b % 0x00200000 + (hLen d + w * g - 1) / (w * g) * g ≤ 0x00200000)

/-- REASON of an invalid descriptor (R259, R260, R264), none where it is valid. An interleaved one that breaks a condition
of R260 has REASON 0x06, whatever else it breaks. -/
def descBad (d : BitVec 128) : Option Nat :=
  let reserved := bits d 120 5 != 0 || bits d 110 6 != 0 || bits d 96 8 != 0
  if hValid d ∧ hSpace d = 2 ∧ hGran d ≠ 0 ∧ interleaveOk d = false then some 6
  else if reserved then some 5
  else if !hValid d then (if d = 0 then none else some 5)
  else if (!hRd d && !hWr d) || hLen d == 0 || hLen d % 64 != 0 || hBase d % 64 != 0 then some 5
  else match (hSpace d).toNat with
    | 8 =>
      if hDevice d = 0 ∧ hBase d < 0x80000 ∧ hGran d = 0 ∧ hWays d = 0 ∧ hBase d + hLen d ≤ 0x80000 then none else some 5
    | 2 =>
      if hGran d = 0 then (if hWays d = 0 ∧ hBase d + hLen d ≤ 0x30000000 then none else some 5) else none
    | 0 => if hGran d = 0 ∧ hWays d = 0 ∧ hBase d + hLen d ≤ 2 ^ 44 then none else some 5
    | 1 => if hGran d = 0 ∧ hWays d = 0 ∧ hBase d + hLen d ≤ 2 ^ 44 then none else some 5
    | 3 => if hGran d = 0 ∧ hWays d = 0 ∧ hBase d + hLen d ≤ 2 ^ 44 then none else some 5
    | _ => some 5

/-- The offset in its space of byte `o` of the buffer (R260). -/
def handleOff (d : BitVec 128) (o : Nat) : Nat :=
  let g := granBytes (hGran d)
  if g = 0 then hBase d + o
  else
    let k := o / g
    hBase d + k % hWays d * 0x00200000 + k / hWays d * g + o % g

/-- The INFO word of a HANDLE frame (R264). -/
def handleInfo (source reason h : Nat) : Word := BitVec.ofNat 32 (source * 2 ^ 24 + reason * 2 ^ 16 + h)

/-- The resolution of a handle for an access of `n` bytes at offset `o` (R261, R264, R304): the REASON of its failure,
or the descriptor. -/
def resolveFor (c : Core) (h : Nat) (write : Bool) (o n : Nat) : Except Nat (BitVec 128) :=
  let d := handleGet c h
  if !hValid d then .error 1
  else if (if write then !hWr d else !hRd d) then .error 2
  else if hLen d < o + n then .error 4
  else .ok d

/-- The place a handle's byte stands in, with HSPACE 0x8 turned into space 0x3 of this core and this device (R304). -/
structure FarAddr where
  space : BitVec 4
  dev : BitVec 16
  off : Nat
deriving DecidableEq, Repr

/-- The global address that 64 bits spell (R422). -/
def globalOf (v : Nat) : FarAddr := ⟨BitVec.ofNat 4 (v / 2 ^ 44), BitVec.ofNat 16 (v / 2 ^ 48), v % 2 ^ 44⟩

def globalBits (a : FarAddr) : Nat := a.dev.toNat * 2 ^ 48 + a.space.toNat * 2 ^ 44 + a.off

/-- The global address of byte `o` of the buffer of `d`, for a core of logical number `n`. -/
def farOf (s : State) (n : Nat) (d : BitVec 128) (o : Nat) : FarAddr :=
  if hSpace d = 8 then ⟨3, fabDev s, n * 0x80000 + handleOff d o⟩ else ⟨hSpace d, hDevice d, handleOff d o⟩

/-- The address lies on this device (R422). -/
def isHere (s : State) (a : FarAddr) : Bool := a.dev == fabDev s

end Sys2Proof.Machine
end

