-- ==== Sys2Proof/Machine/Caches.lean ====
section
/-! DEFINITION. The caches of the control cores (R366, R369, R484, R485): lines, their memory, coherence, and the lines that
firmware reads and writes for the mailbox. A line is known by its number of 64 bytes in global address space; the lines of
the mailbox SRAM and of the boot ROM have numbers of their own above it. -/
namespace Sys2Proof.Machine

def retDefault (_ : Nat) : List (Nat × Option Unit64) := []

/-- What a read of a line has: its data, an error answer, or it waits for another device. -/
inductive LineGot where
  | got (s : State) (d : Unit64)
  | err (s : State)
  | wait (s : State)

/-! ### Memory behind the caches -/

/-- Control core `k`'s read of a line of another device has not been answered. -/
def soAsked (s : State) (k id : Nat) : Bool :=
  s.fab.remote.any (fun r => r.what == .soRead k id) || s.fab.waiting.any (fun p => p.what == some (.soRead k id))

/-- The answer to control core `k`'s read of a line, and the state without it. -/
def takeAnswer (s : State) (k id : Nat) : Option (State × Option Unit64) :=
  let l := tget retDefault s.so.ret k
  (l.find? (fun p => p.1 == id)).map (fun p =>
    (modSo s (fun o => { o with ret := tset retDefault o.ret k (l.erase p) }), p.2))

/-- A line is read from the memory that holds it, for control core `k`. -/
def memLine (s : State) (k id : Nat) : LineGot :=
  if romLines ≤ id then .got s (romUnit id)
  else if mbxLines ≤ id then
    let o := 64 * (id - mbxLines)
    let s := { s with mbx := (settleWords 4 s.mbx (wordsOf 4 o 64)).mem }
    .got s (unitOf 4 s.mbx o)
  else
    let a := globalOf (64 * id)
    if isHere s a then
      match readUnit s a.space a.off with
      | (s, some d) => .got s d
      | (s, none) => .err s
    else match takeAnswer s k id with
      | some (s, some d) => .got s d
      | some (s, none) => .err s
      | none => if soAsked s k id then .wait s else .wait (sendRead s a.dev a.space a.off (.soRead k id))

/-- A line is written to the memory that holds it; `what` is what the answer of another device does. -/
def writeLine (s : State) (id : Nat) (d : Unit64) (what : Asked) : State :=
  if romLines ≤ id then s
  else if mbxLines ≤ id then { s with mbx := writeUnitMem 4 s.mbx (64 * (id - mbxLines)) d }
  else
    let a := globalOf (64 * id)
    if isHere s a then (writeUnit s a.space a.off d).1 else sendWrite s 1 a.dev a.space a.off d what

/-! ### The caches (R484) -/

def l1Set (id : Nat) : Nat := id % 128
def l2Set (id : Nat) : Nat := id % 8192

def l1Get (s : State) (i : Nat) : Option CLine := tget lineDefault s.so.l1 i
def l2Get (s : State) (i : Nat) : Option CLine := tget lineDefault s.so.l2c i

def l1Put (s : State) (i : Nat) (x : Option CLine) : State := modSo s (fun o => { o with l1 := tset lineDefault o.l1 i x })
def l2Put (s : State) (i : Nat) (x : Option CLine) : State := modSo s (fun o => { o with l2c := tset lineDefault o.l2c i x })

/-- The entries of a set, by key. -/
def l1Ways (k id : Nat) : List Nat := upFrom (512 * k + 4 * l1Set id) 4
def l2Ways (s : State) (id : Nat) : List Nat := upFrom (16 * l2Set id + lockedWays s) (16 - lockedWays s)

/-- The entry of control core `k`'s L1, or of the L2, that holds a line. -/
def l1Find (s : State) (k id : Nat) : Option Nat := (l1Ways k id).find? (fun i => holdsLine (l1Get s i) id)
def l2Find (s : State) (id : Nat) : Option Nat := (l2Ways s id).find? (fun i => holdsLine (l2Get s i) id)

/-- A line enters the L2; a dirty line that has to go is written to memory. -/
def fillL2 (s : State) (id : Nat) (d : Unit64) (dirty : Bool) : State :=
  match l2Find s id with
  | some i =>
    let was := match l2Get s i with
      | some l => l.dirty
      | none => false
    l2Put s i (some ⟨id, d, dirty || was⟩)
  | none =>
    let (i, s) := chooseWay s (l2Ways s id) (fun i => (l2Get s i).isNone)
    let s := match l2Get s i with
      | some l => if l.dirty then writeLine s l.line l.data .plain else s
      | none => s
    l2Put s i (some ⟨id, d, dirty⟩)

/-- A line enters an L1; a dirty line that has to go moves to the L2. -/
def fillL1 (s : State) (k id : Nat) (d : Unit64) (dirty : Bool) : State :=
  let (i, s) := chooseWay s (l1Ways k id) (fun i => (l1Get s i).isNone)
  let s := match l1Get s i with
    | some l => if l.dirty then fillL2 s l.line l.data true else s
    | none => s
  l1Put s i (some ⟨id, d, dirty⟩)

/-- The L1s are kept coherent: a dirty copy of another control core moves to the L2, and before a write every other copy is
dropped. -/
def cohere (s : State) (k id : Nat) (write : Bool) : State :=
  ((upFrom 0 4).filter (· != k)).foldl (fun s j =>
    match l1Find s j id with
    | none => s
    | some i =>
      match l1Get s i with
      | none => s
      | some l =>
        let s := if l.dirty then fillL2 s id l.data true else s
        l1Put s i (if write then none else some { l with dirty := false })) s

/-- A cached read of a line by control core `k`. -/
def readCached (s : State) (k id : Nat) : LineGot :=
  match l1Find s k id with
  | some i =>
    match l1Get s i with
    | some l => .got s l.data
    | none => .err s
  | none =>
    let s := cohere s k id false
    match l2Find s id with
    | some i =>
      match l2Get s i with
      | some l => .got (fillL1 s k id l.data false) l.data
      | none => .err s
    | none =>
      match memLine s k id with
      | .got s d => .got (fillL1 (fillL2 s id d false) k id d false) d
      | r => r

/-- Lines that the maintenance of control core `k` writes back have not been acknowledged (R489). -/
def cmoOpen (s : State) (k : Nat) : Bool :=
  s.fab.remote.any (fun r => r.what == .cmo k) || s.fab.waiting.any (fun p => p.what == some (.cmo k))

/-- The thread of control core `k` is stalled until they have (R488, R489). -/
def waitCmo (s : State) (k : Nat) : State :=
  if cmoOpen s k then modTh s (576 + k) 0 (fun th => { th with block := some .cmo }) else s

/-! ### The mailbox (R369, R498) -/

/-- The control core whose L1 the accesses on behalf of the mailbox go through (DESIGN CHOICE, log 110). -/
def mailCore : Nat := 0

/-- Every cached copy of the `n` lines from `id` on goes, unwritten. -/
def dropLines (s : State) (id n : Nat) : State :=
  let keep (p : Nat × Option CLine) : Bool := match p.2 with
    | some l => !decide (id ≤ l.line ∧ l.line < id + n)
    | none => true
  modSo s (fun o => { o with l1 := o.l1.filter keep, l2c := o.l2c.filter keep })

/-- The lines are read through the caches, with allocation. -/
def fetchLines (s : State) (id n : Nat) : State :=
  (upFrom id n).foldl (fun s i =>
    match readCached s mailCore i with
    | .got s _ => s
    | .err s => s
    | .wait s => s) s

/-- The `n` bytes of the mailbox SRAM at `a` are invalidated, and then fetched (R367, R369). -/
def mailFetch (s : State) (a n : Nat) : State :=
  let id := mbxLines + a / 64
  let k := (a % 64 + n + 63) / 64
  fetchLines (dropLines s id k) id k

/-- The first line of the memory into which firmware reads a command's source from the host. No address of the map reaches it
(DESIGN CHOICE, log 147). -/
def landLines : Nat := romLines + 0x10000

/-- `n` bytes from the host have been read into that memory, which firmware invalidates before it reads (R367, R498). -/
def landHost (s : State) (n : Nat) : State := dropLines s landLines ((n + 63) / 64)

/-- Firmware fetches the bytes from there with allocation (R369). -/
def landFetch (s : State) (bs : List Byte) : State :=
  (upFrom 0 ((bs.length + 63) / 64)).foldl (fun s i =>
    let d := goodUnit ((bs.drop (64 * i)).take 64)
    fillL1 (fillL2 s (landLines + i) d false) mailCore (landLines + i) d false) s

/-- Bytes are written into the mailbox SRAM by the host, past the caches. -/
def barPut (s : State) (a : Nat) (bs : List Byte) : State := { s with mbx := memStore 4 s.mbx a bs }

/-- Firmware writes bytes of the mailbox through its caches, with allocation, and cleans their lines (R366, R369): the
memory and the cached lines hold the same. -/
def mailWrite (s : State) (a : Nat) (bs : List Byte) : State :=
  if bs.isEmpty then s else mailFetch (barPut s a bs) a bs.length

end Sys2Proof.Machine
end

