-- ==== Sys2Proof/Machine/Timing.lean ====
section
/-! DEFINITION. Timing events (R501, R512, R585), and the calibration of an LPDDR5X package, which holds accesses to its
tier (R574). -/
namespace Sys2Proof.Machine

/-- A parcel has a stage dispatched and not yet ended, or an envelope OPEN. -/
def inFlight (s : State) (p : Parcel) : Bool :=
  s.so.active.any (fun a => a.2 == p.uid) ||
    ((p.st == .pending || p.st == .opened) &&
      (tget (fun _ => PEntry.reset) s.so.sealing.pt p.entry).st == .opened)

/-- TIMING_EVENT in the present mesh cycle, for the unit of a code and index of R512 (R585). -/
def logTiming (s : State) (code index : Nat) : State :=
  pushEvent s 0x0028 (BitVec.ofNat 16 (code + 256 * index)) (BitVec.ofNat 64 (s.meshCycle % 2 ^ 32))

/-- A timing event of units 0x04 to 0x06: the parcels in flight carry TEVENT (R585). -/
def timingEvent (s : State) (code index : Nat) : State :=
  let s := logTiming s code index
  { s with so := { s.so with parcels := s.so.parcels.map (fun p => if inFlight s p then { p with tevent := true } else p) } }

/-- An LPDDR5X package is being calibrated. -/
def lpCalibrating (s : State) : Bool :=
  s.so.tests.any (fun t => t.2.unit == 5 && t.2.cal) || s.so.running.any (fun t => t.2.unit == 5 && t.2.cal)

end Sys2Proof.Machine
end

