-- ==== Sys2Proof/Machine/Hole.lean ====
section
/-! DEFINITION. Pigeonholes: their headers, payloads and completion (R497 to R499). -/
namespace Sys2Proof.Machine

/-- The status codes of R499. -/
def stOK : BitVec 16 := 0x0000
def stDEFERRED : BitVec 16 := 0x0001
def stBAD_COMMAND : BitVec 16 := 0x0010
def stBAD_LENGTH : BitVec 16 := 0x0011
def stBAD_FIELD : BitVec 16 := 0x0012
def stNOT_IN_REDUCED : BitVec 16 := 0x0013
def stNO_SESSION : BitVec 16 := 0x0014
def stHOST_READ_ERROR : BitVec 16 := 0x0015
def stNOT_DRAINED : BitVec 16 := 0x0020
def stNOT_FOUND : BitVec 16 := 0x0021
def stEXISTS : BitVec 16 := 0x0022
def stIN_USE : BitVec 16 := 0x0023
def stNO_SPACE : BitVec 16 := 0x0024
def stALREADY_RETIRED : BitVec 16 := 0x0025
def stUNAVAILABLE : BitVec 16 := 0x0026
def stDENIED : BitVec 16 := 0x0028
def stFW_INVALID : BitVec 16 := 0x0040
def stFW_NONE : BitVec 16 := 0x0041
def stTEST_FAILED : BitVec 16 := 0x0050

/-- The offset of a pigeonhole in BAR0 (R493). -/
def holeBase (h : BitVec 6) : Nat := 0x1000 * h.toNat

/-- `n` bytes of BAR0 at offset `a`, as a number. -/
def barNat (s : State) (a n : Nat) : Nat := memNat s.mbx a n

/-- Header fields of a pigeonhole (R497). -/
def holeCmd (s : State) (h : BitVec 6) : Nat := barNat s (holeBase h) 2
def holeFlags (s : State) (h : BitVec 6) : Nat := barNat s (holeBase h + 2) 2
def holeLen (s : State) (h : BitVec 6) : Nat := barNat s (holeBase h + 8) 4
def holeVector (s : State) (h : BitVec 6) : Nat := barNat s (holeBase h + 18) 2

/-- A request payload field: `n` bytes at `o`. -/
def holeArg (s : State) (h : BitVec 6) (o n : Nat) : Nat := barNat s (holeBase h + 64 + o) n

/-- The request payload's first `n` bytes from `o`. -/
def holeBytes (s : State) (h : BitVec 6) (o n : Nat) : List Byte := memBytes s.mbx (holeBase h + 64 + o) n

/-- A command of the hole is in progress (R498). -/
def holeBusy (s : State) (h : BitVec 6) : Bool := s.so.busy.any (fun p => p.hole == h)

/-- The command of the hole completes (R498 step 5): response payload, RLEN, TICKET, DETAIL, STATUS, and its interrupt,
which a reset of the function has made quiet (R496). A hole without a command in progress is left alone. -/
def completeHole (s : State) (h : BitVec 6) (status : BitVec 16) (detail ticket : Word) (resp : List Byte) : State :=
  match s.so.busy.find? (fun p => p.hole == h) with
  | none => s
  | some b =>
    let quiet := b.quiet
    let b := holeBase h
    let irq := holeFlags s h % 2 = 1 ∧ !quiet
    let v := holeVector s h % 64
    let s := mailWrite s (b + 64) resp
    let s := mailWrite s (b + 12) (leBytes 4 resp.length)
    let s := mailWrite s (b + 20) (leBytes 4 ticket.toNat ++ leBytes 4 detail.toNat)
    let s := mailWrite s (b + 16) (leBytes 2 status.toNat)
    let s := { s with so := { s.so with busy := s.so.busy.filter (fun p => p.hole != h) } }
    if irq then raiseMsi s v else s

/-- A command ends with a status and its DETAIL, and no response. -/
def failHole (s : State) (h : BitVec 6) (status : BitVec 16) (detail : Nat) : State :=
  completeHole s h status (BitVec.ofNat 32 detail) 0 []

/-- A command ends OK with its response. -/
def okHole (s : State) (h : BitVec 6) (resp : List Byte) : State := completeHole s h stOK 0 0 resp

end Sys2Proof.Machine
end

