-- ==== Sys2Proof/Machine/Flags.lean ====
section
/-! DEFINITION. The condition flags (R35) and how each class of instruction sets them (R50 to R61). -/
namespace Sys2Proof.Machine

/-- Bit numbers of FLAGS (R35). -/
def fZ : Nat := 0
def fN : Nat := 1
def fC : Nat := 2
def fV : Nat := 3
def fMV : Nat := 4
def fSAT : Nat := 8
def fRSLOST : Nat := 24

/-- FLAGS with bit `i` set to `b`. -/
def putFlag (fl : Word) (i : Nat) (b : Bool) : Word := setBits fl i (ofBool 1 b)

/-- Z and N of a result. -/
def setZN (fl v : Word) : Word := putFlag (putFlag fl fZ (v == 0)) fN (bitOf v 31)

/-- Z, N, C and V. -/
def setNZCV (fl v : Word) (c o : Bool) : Word := putFlag (putFlag (setZN fl v) fC c) fV o

/-- A sum with carry in: the result, carry out of bit 31, and signed overflow (R53). -/
def addWith (a b : Word) (cin : Bool) : Word × Bool × Bool :=
  let r := a + b + ofBool 32 cin
  (r, decide (2 ^ 32 ≤ a.toNat + b.toNat + cin.toNat), bitOf a 31 == bitOf b 31 && bitOf r 31 != bitOf a 31)

/-- A difference with borrow in: the result, unsigned borrow, and signed overflow (R53). -/
def subWith (a b : Word) (bin : Bool) : Word × Bool × Bool :=
  let r := a - b - ofBool 32 bin
  (r, decide (a.toNat < b.toNat + bin.toNat), bitOf a 31 != bitOf b 31 && bitOf r 31 != bitOf a 31)

/-- The thread takes a result in ACC with Z and N (R34). -/
def accZN (th : Thread) (v : Word) : Thread := { setAcc th v with flags := setZN th.flags v }

/-- What the instruction that rang a doorbell does as it completes (R37, R51, R304). -/
def doorEnd (e : DoorEnd) (th : Thread) : Thread :=
  let th := { th with ix := th.ix + e.ix, iy := th.iy + e.iy }
  match e.acc with
  | some v => accZN th v
  | none => th

/-- The thread takes a result in ACC with Z, N, C and V. -/
def accNZCV (th : Thread) (r : Word × Bool × Bool) : Thread :=
  { setAcc th r.1 with flags := setNZCV th.flags r.1 r.2.1 r.2.2 }

/-- The flags of a comparison. -/
def cmpFlags (th : Thread) (a b : Word) : Thread :=
  let r := subWith a b false
  { th with flags := setNZCV th.flags r.1 r.2.1 r.2.2 }

/-- The condition `cond` of a branch holds (R61). -/
def condHolds (fl : Word) (cond : BitVec 4) : Bool :=
  let z := bitOf fl fZ
  let n := bitOf fl fN
  let c := bitOf fl fC
  let v := bitOf fl fV
  match cond.toNat with
  | 0 => z
  | 1 => !z
  | 2 => c
  | 3 => !c
  | 4 => n
  | 5 => !n
  | 6 => v
  | 7 => !v
  | 8 => !c && !z
  | 9 => c || z
  | 10 => n == v
  | 11 => n != v
  | 12 => !z && n == v
  | 13 => z || n != v
  | 14 => true
  | _ => bitOf fl fMV

/-- What SFL leaves in FLAGS (R55): RW fields take ACC's bits, a one clears a W1C field. -/
def sflFlags (fl acc : Word) : Word :=
  let rw : Word := 0x0000010F
  let w1c : Word := 0x01000010
  (fl &&& ~~~rw &&& ~~~(acc &&& w1c)) ||| (acc &&& rw)

end Sys2Proof.Machine
end

