-- ==== Sys2Proof/Machine/Num.lean ====
section
/-! DEFINITION. Number formats and numeric behaviour (R146 to R179): exact values, decoding, the one rounding of a
result, block scales, long-sum rounding, and what is counted and flagged. -/
namespace Sys2Proof.Machine

/-- An exact value: NaN (`inv` when its own operation is invalid, R173), an infinity, or (−1)^neg × num ÷ den × 2^exp
(`den` is 1 except after a division). Zero keeps its sign (R154). -/
inductive FVal where
  | nan (inv : Bool)
  | inf (neg : Bool)
  | fin (neg : Bool) (num den : Nat) (exp : Int)
deriving DecidableEq, Repr

/-- The numeric modes (R172, R179, R182). -/
inductive NMode where
  | fast | strict | guist
deriving DecidableEq, Repr

/-- The mode of a NUMERIC_CTL word: GUIST overrides STRICT (R182). -/
def modeOf (ctl : Word) : NMode := if bitOf ctl 1 then .guist else if bitOf ctl 0 then .strict else .fast

/-! ### Formats (R146) -/

/-- The width of an element in a register or a memory row; FP6 is held one per byte (R149). -/
def fmtWidth (f : BitVec 4) : Nat :=
  match f.toNat with
  | 0 => 32 | 1 => 16 | 2 => 16 | 3 => 8 | 4 => 8 | 5 => 8 | 6 => 8 | 7 => 4 | 8 => 8 | 9 => 4 | 10 => 2 | 11 => 1
  | 12 => 32 | _ => 32

/-- Codes 0xD to 0xF are reserved. -/
def fmtReserved (f : BitVec 4) : Bool := decide (13 ≤ f.toNat)

/-- The float formats 0x0 to 0x7. -/
def fmtFloat (f : BitVec 4) : Bool := decide (f.toNat ≤ 7)

/-- The integer formats without scales (R160). -/
def fmtInt (f : BitVec 4) : Bool := decide (8 ≤ f.toNat)

/-- Formats that may carry block scales (R156). -/
def fmtScalable (f : BitVec 4) : Bool := decide (3 ≤ f.toNat ∧ f.toNat ≤ 8)

/-- The formats of Guist-compatible mode (R179); INT32 only in the vector unit. -/
def fmtGuist (f : BitVec 4) (vec : Bool) : Bool :=
  f.toNat == 0 || f.toNat == 1 || f.toNat == 2 || f.toNat == 3 || f.toNat == 4 || f.toNat == 8 || f.toNat == 9 ||
    (vec && f.toNat == 12)

/-- Elements of a 512-bit register or a 64-byte row (R184, R209). -/
def lanesOf (f : BitVec 4) : Nat := 512 / fmtWidth f

/-- Exponent bits, significand bits and bias of a float format. -/
def fmtShape (f : BitVec 4) : Nat × Nat × Nat :=
  match f.toNat with
  | 0 => (8, 23, 127) | 1 => (8, 7, 127) | 2 => (5, 10, 15) | 3 => (4, 3, 7) | 4 => (5, 2, 15)
  | 5 => (2, 3, 1) | 6 => (3, 2, 3) | _ => (2, 1, 1)

/-- The formats with infinities. -/
def fmtHasInf (f : BitVec 4) : Bool := f.toNat == 0 || f.toNat == 1 || f.toNat == 2 || f.toNat == 4

/-- The formats with NaN. -/
def fmtHasNan (f : BitVec 4) : Bool := fmtHasInf f || f.toNat == 3

/-- The positive canonical NaN (R151). -/
def fmtNan (f : BitVec 4) : Nat :=
  match f.toNat with
  | 0 => 0x7FC00000 | 1 => 0x7FC0 | 2 => 0x7E00 | 3 => 0x7F | 4 => 0x7E | _ => 0

/-- The code of the largest finite magnitude (R146). -/
def fmtMax (f : BitVec 4) : Nat :=
  match f.toNat with
  | 0 => 0x7F7FFFFF | 1 => 0x7F7F | 2 => 0x7BFF | 3 => 0x7E | 4 => 0x7B | 5 => 0x1F | 6 => 0x1F | _ => 0x7

/-- The sign bit's weight: one above exponent and significand (bit 5 of an FP6 byte). -/
def fmtSign (f : BitVec 4) : Nat := let (eb, mb, _) := fmtShape f; 2 ^ (eb + mb)

/-- The exponent of the smallest normal. -/
def fmtEmin (f : BitVec 4) : Int := let (_, _, bias) := fmtShape f; 1 - (bias : Int)

/-- The bits of an integer format. -/
def intWidth (f : BitVec 4) : Nat := fmtWidth f

/-! ### Decoding (R146, R150, R159) -/

/-- A finite value n × 2^e with a sign. -/
def mkFin (neg : Bool) (n : Nat) (e : Int) : FVal := .fin neg n 1 e

/-- The value of a float code (R146). -/
def decodeFloat (f : BitVec 4) (code : Nat) : FVal :=
  let (eb, mb, bias) := fmtShape f
  let neg := code / 2 ^ (eb + mb) % 2 == 1
  let e := code / 2 ^ mb % 2 ^ eb
  let m := code % 2 ^ mb
  if fmtHasInf f ∧ e = 2 ^ eb - 1 then (if m = 0 then .inf neg else .nan false)
  else if f.toNat = 3 ∧ code % 128 = 127 then .nan false
  else if e = 0 then mkFin neg m (1 - (bias : Int) - mb)
  else mkFin neg (2 ^ mb + m) ((e : Int) - bias - mb)

/-- The value of a two's-complement code of `w` bits. -/
def decodeInt (w code : Nat) : FVal :=
  let c := code % 2 ^ w
  if 2 ^ (w - 1) ≤ c then mkFin true (2 ^ w - c) 0 else mkFin false c 0

/-- The value of an element code in a format (R146, R150). -/
def decodeElem (f : BitVec 4) (code : Nat) : FVal :=
  if fmtFloat f then decodeFloat f code
  else if f.toNat = 11 then mkFin (code % 2 == 1) 1 0
  else decodeInt (intWidth f) code

/-- The value is a non-zero one below the smallest normal of the format. -/
def isSubnormal (f : BitVec 4) : FVal → Bool
  | .fin _ n d e =>
    fmtFloat f && n != 0 &&
      (let s := e - fmtEmin f
       if 0 ≤ s then decide (n * 2 ^ s.toNat < d) else decide (n < d * 2 ^ (-s).toNat))
  | _ => false

/-- The same value with magnitude zero. -/
def zeroOf : FVal → FVal
  | .fin neg _ _ _ => mkFin neg 0 0
  | v => v

/-- An element as an operand of the mode: Guist-compatible mode reads a subnormal as zero (R179). -/
def decodeIn (mode : NMode) (f : BitVec 4) (code : Nat) : FVal :=
  let v := decodeElem f code
  if mode = .guist ∧ isSubnormal f v then zeroOf v else v

/-- The value times 2^k, exactly. -/
def scaleBy (k : Int) : FVal → FVal
  | .fin neg n d e => .fin neg n d (e + k)
  | v => v

/-- A scaled element (R155 to R157): the scale's power of two times the element, MXINT8 in steps of 2^−6. -/
def decodeScaled (f : BitVec 4) (scale : Byte) (code : Nat) : FVal :=
  if scale = 0xFF then .nan false
  else scaleBy ((scale.toNat : Int) - 127 - (if f.toNat = 8 then 6 else 0)) (decodeElem f code)

/-! ### Exact arithmetic (R152 to R154) -/

def negF : FVal → FVal
  | .nan i => .nan i
  | .inf n => .inf (!n)
  | .fin neg n d e => .fin (!neg) n d e

def isZeroF : FVal → Bool
  | .fin _ n _ _ => n == 0
  | _ => false

def isNanF : FVal → Bool
  | .nan _ => true
  | _ => false

def isInvF : FVal → Bool
  | .nan i => i
  | _ => false

/-- The sum of two finite values; an exact sum of opposite values is +0 (R154). -/
def addFin (n1 : Bool) (a1 d1 : Nat) (e1 : Int) (n2 : Bool) (a2 d2 : Nat) (e2 : Int) : FVal :=
  let e := min e1 e2
  let m1 := a1 * d2 * 2 ^ (e1 - e).toNat
  let m2 := a2 * d1 * 2 ^ (e2 - e).toNat
  let d := d1 * d2
  if n1 = n2 then .fin n1 (m1 + m2) d e
  else if m1 = m2 then .fin false 0 1 0
  else if m2 < m1 then .fin n1 (m1 - m2) d e
  else .fin n2 (m2 - m1) d e

/-- The exact sum (R152 to R154). -/
def addF : FVal → FVal → FVal
  | .nan i, .nan j => .nan (i || j)
  | .nan i, _ => .nan i
  | _, .nan i => .nan i
  | .inf a, .inf b => if a = b then .inf a else .nan true
  | .inf a, _ => .inf a
  | _, .inf b => .inf b
  | .fin n1 a1 d1 e1, .fin n2 a2 d2 e2 => addFin n1 a1 d1 e1 n2 a2 d2 e2

/-- The exact product; ∞ × 0 is invalid (R152). The sign of a zero product is the exclusive or of the operands' signs for
integers too (DESIGN CHOICE, log 101). -/
def mulF : FVal → FVal → FVal
  | .nan i, .nan j => .nan (i || j)
  | .nan i, _ => .nan i
  | _, .nan i => .nan i
  | .inf a, .inf b => .inf (a != b)
  | .inf a, .fin b n _ _ => if n = 0 then .nan true else .inf (a != b)
  | .fin a n _ _, .inf b => if n = 0 then .nan true else .inf (a != b)
  | .fin a n1 d1 e1, .fin b n2 d2 e2 => .fin (a != b) (n1 * n2) (d1 * d2) (e1 + e2)

/-- The exact quotient; zero by zero and ∞ ÷ ∞ are invalid, a finite non-zero value by zero is an infinity (R153,
R191). The sign of a zero quotient is the exclusive or of the operands' signs for integers too (DESIGN CHOICE, log 101). -/
def divF : FVal → FVal → FVal
  | .nan i, .nan j => .nan (i || j)
  | .nan i, _ => .nan i
  | _, .nan i => .nan i
  | .inf _, .inf _ => .nan true
  | .inf a, .fin b _ _ _ => .inf (a != b)
  | .fin a _ _ _, .inf b => .fin (a != b) 0 1 0
  | .fin a n1 d1 e1, .fin b n2 d2 e2 =>
    if n2 = 0 then (if n1 = 0 then .nan true else .inf (a != b))
    else .fin (a != b) (n1 * d2) (d1 * n2) (e1 - e2)

/-- A division of a finite non-zero value by zero (R173 DZ). -/
def divByZero : FVal → FVal → Bool
  | .fin _ n1 _ _, .fin _ n2 _ _ => n1 != 0 && n2 == 0
  | _, _ => false

/-- The exact sum of a list: a NaN term makes it NaN, and infinities of both signs make it invalid, whatever the
order (R152, R161). Beside a NaN term infinities of both signs are no invalid operation of their own (DESIGN CHOICE,
log 102). -/
def sumF (l : List FVal) : FVal :=
  if l.any isNanF then .nan (l.any isInvF)
  else l.foldl addF (match l with
    | .fin true _ _ _ :: _ => mkFin true 0 0
    | _ => mkFin false 0 0)

/-- |a| ≤ |b| for finite magnitudes. -/
def magLe (n1 d1 : Nat) (e1 : Int) (n2 d2 : Nat) (e2 : Int) : Bool :=
  let e := min e1 e2
  decide (n1 * d2 * 2 ^ (e1 - e).toNat ≤ n2 * d1 * 2 ^ (e2 - e).toNat)

/-- a ≤ b for values that are not NaN; −0 and +0 are equal. -/
def leF : FVal → FVal → Bool
  | .nan _, _ => false
  | _, .nan _ => false
  | .inf true, _ => true
  | _, .inf false => true
  | .inf false, _ => false
  | _, .inf true => false
  | .fin n1 a1 d1 e1, .fin n2 a2 d2 e2 =>
    if a1 = 0 ∧ a2 = 0 then true
    else match n1, n2 with
      | true, false => true
      | false, true => a1 = 0 && a2 = 0
      | false, false => magLe a1 d1 e1 a2 d2 e2
      | true, true => magLe a2 d2 e2 a1 d1 e1

def negSign : FVal → Bool
  | .inf n => n
  | .fin n _ _ _ => n
  | .nan _ => false

/-- The smaller value, −0 below +0, NaN if either is (R189, R152). -/
def minF (a b : FVal) : FVal :=
  if isNanF a || isNanF b then .nan (isInvF a || isInvF b)
  else if leF a b && leF b a then (if negSign a then a else b)
  else if leF a b then a else b

def maxF (a b : FVal) : FVal :=
  if isNanF a || isNanF b then .nan (isInvF a || isInvF b)
  else if leF a b && leF b a then (if negSign a then b else a)
  else if leF a b then b else a

/-! ### Events: what a result element counts and flags (R168, R173) -/

/-- Saturated, flushed, NaN produced, and the exceptions NV, DZ, OF, UF, NX in bits 4 to 0. -/
structure Ev where
  sat : Bool
  flush : Bool
  nan : Bool
  fl : BitVec 5
deriving DecidableEq, Repr

def Ev.none : Ev := ⟨false, false, false, 0⟩

def evOr (a b : Ev) : Ev := ⟨a.sat || b.sat, a.flush || b.flush, a.nan || b.nan, a.fl ||| b.fl⟩

def xNV : BitVec 5 := 16
def xDZ : BitVec 5 := 8
def xOF : BitVec 5 := 4
def xUF : BitVec 5 := 2
def xNX : BitVec 5 := 1

/-! ### Rounding (R164 to R167) -/

/-- ⌊log2 (n ÷ d)⌋ for n, d > 0. -/
def log2Ratio (n d : Nat) : Int :=
  let l : Int := (Nat.log2 n : Int) - (Nat.log2 d : Int)
  if 0 ≤ l then (if d * 2 ^ l.toNat ≤ n then l else l - 1)
  else (if d ≤ n * 2 ^ (-l).toNat then l else l - 1)

/-- n ÷ d × 2^e as an integer part, with the remainder over the divisor. -/
def quotRem (n d : Nat) (e : Int) : Nat × Nat × Nat :=
  let num := if 0 ≤ e then n * 2 ^ e.toNat else n
  let den := if 0 ≤ e then d else d * 2 ^ (-e).toNat
  (num / den, num % den, den)

/-- Round to nearest, ties to even (R164). -/
def roundEven (q r den : Nat) : Nat :=
  if 2 * r < den then q else if den < 2 * r then q + 1 else if q % 2 = 0 then q else q + 1

/-- The code of k × 2^q in a float format, for a value that the format holds. -/
def encodeFloat (f : BitVec 4) (neg : Bool) (k : Nat) (q : Int) : Nat :=
  let (_, mb, bias) := fmtShape f
  let s := if neg then fmtSign f else 0
  if k = 0 then s
  else
    let (k, q) := if 2 ^ (mb + 1) ≤ k then (k / 2, q + 1) else (k, q)
    if k < 2 ^ mb then s + k
    else s + (q + mb + bias).toNat * 2 ^ mb + (k - 2 ^ mb)

/-- The largest finite value of a float format, as k × 2^q. -/
def maxParts (f : BitVec 4) : Nat × Int :=
  let (_, mb, bias) := fmtShape f
  let e := fmtMax f / 2 ^ mb
  (2 ^ mb + fmtMax f % 2 ^ mb, (e : Int) - bias - mb)

/-- |x| ≥ L + u/2 for a float format (R165). -/
def overflows (f : BitVec 4) (n d : Nat) (e : Int) : Bool :=
  let (k, q) := maxParts f
  magLe (2 * k + 1) 1 (q - 1) n d e

/-- |x| > L for a float format (R175). -/
def aboveMax (f : BitVec 4) (n d : Nat) (e : Int) : Bool :=
  let (k, q) := maxParts f
  !magLe n d e k 1 q

/-- The quantum of the format at x: one step of x's binade, or of the subnormals. -/
def quantum (f : BitVec 4) (n d : Nat) (e : Int) : Int :=
  let (_, mb, _) := fmtShape f
  max (log2Ratio n d + e) (fmtEmin f) - mb

/-- Tiny after rounding with unbounded exponent (R173 UF). -/
def tinyAfter (f : BitVec 4) (n d : Nat) (e : Int) : Bool :=
  let (_, mb, _) := fmtShape f
  let q := log2Ratio n d + e - mb
  let (k, r, den) := quotRem n d (e - q)
  let k := roundEven k r den
  let s := fmtEmin f - q
  if 0 ≤ s then decide (k < 2 ^ s.toNat) else false

/-- The code and the events of a result element. -/
structure Rounded where
  code : Nat
  ev : Ev
deriving DecidableEq, Repr

/-- A NaN result in the format (R151, R152, R173). -/
def roundNan (mode : NMode) (f : BitVec 4) (inv : Bool) : Rounded :=
  ⟨fmtNan f, ⟨false, false, true, if mode = .strict ∧ (inv ∨ fmtHasNan f = false) then xNV else 0⟩⟩

/-- An infinite result from an infinite operand or a division by zero (R153). -/
def roundInf (mode : NMode) (f : BitVec 4) (neg : Bool) : Rounded :=
  let s := if neg then fmtSign f else 0
  if fmtHasInf f then ⟨s + (fmtMax f + 1), .none⟩
  else ⟨s + fmtMax f, ⟨true, false, false, if mode = .strict then xOF ||| xNX else 0⟩⟩

/-- What becomes of the rounded float value k × 2^q (R166): a subnormal result is flushed and counted outside strict
mode. -/
def finishFloat (mode : NMode) (f : BitVec 4) (neg : Bool) (k : Nat) (q : Int) (inexact tiny : Bool) : Rounded :=
  let (_, mb, _) := fmtShape f
  let sub := k != 0 && decide (k < 2 ^ mb)
  if sub && mode != .strict then ⟨if neg then fmtSign f else 0, ⟨false, true, false, 0⟩⟩
  else
    ⟨encodeFloat f neg k q,
      ⟨false, false, false,
        if mode = .strict ∧ inexact then (if tiny then xUF ||| xNX else xNX) else 0⟩⟩

/-- Round an exact value into a float format (R164 to R166). -/
def roundFloat (mode : NMode) (f : BitVec 4) : FVal → Rounded
  | .nan i => roundNan mode f i
  | .inf n => roundInf mode f n
  | .fin neg n d e =>
    if n = 0 then ⟨if neg then fmtSign f else 0, .none⟩
    else if overflows f n d e then
      let s := if neg then fmtSign f else 0
      if mode = .strict ∧ fmtHasInf f then ⟨s + (fmtMax f + 1), ⟨false, false, false, xOF ||| xNX⟩⟩
      else ⟨s + fmtMax f, ⟨true, false, false, if mode = .strict then xOF ||| xNX else 0⟩⟩
    else
      let q := quantum f n d e
      let (k, r, den) := quotRem n d (e - q)
      finishFloat mode f neg (roundEven k r den) q (r != 0) (tinyAfter f n d e)

/-- The two's-complement code of a signed magnitude. -/
def encodeInt (w : Nat) (neg : Bool) (k : Nat) : Nat := if neg ∧ k ≠ 0 then (2 ^ w - k) % 2 ^ w else k

/-- Round an exact value into an integer format (R162, R165, R167). -/
def roundInt (mode : NMode) (f : BitVec 4) : FVal → Rounded
  | .nan _ => ⟨0, ⟨false, false, true, if mode = .strict then xNV else 0⟩⟩
  | .inf neg =>
    ⟨if neg then 2 ^ (intWidth f - 1) else 2 ^ (intWidth f - 1) - 1,
      ⟨true, false, false, if mode = .strict then xOF ||| xNX else 0⟩⟩
  | .fin neg n d e =>
    let w := intWidth f
    let top := if neg then 2 ^ (w - 1) else 2 ^ (w - 1) - 1
    let (k, r, den) := quotRem n d e
    if magLe (2 * top + 1) 1 (-1) n d e then
      ⟨encodeInt w neg top, ⟨true, false, false, if mode = .strict then xOF ||| xNX else 0⟩⟩
    else ⟨encodeInt w neg (roundEven k r den), ⟨false, false, false, if mode = .strict ∧ r ≠ 0 then xNX else 0⟩⟩

/-- Round an exact value into BIN1 (R152, R167): −1 below zero, else +1, never counted saturated or flushed. -/
def roundBin (mode : NMode) : FVal → Rounded
  | .nan _ => ⟨0, ⟨false, false, true, if mode = .strict then xNV else 0⟩⟩
  | .inf neg => ⟨if neg then 1 else 0, ⟨false, false, false, if mode = .strict then xNX else 0⟩⟩
  | .fin neg n d e =>
    let one := magLe n d e 1 1 0 && magLe 1 1 0 n d e
    ⟨if neg && n != 0 then 1 else 0, ⟨false, false, false, if mode = .strict ∧ one = false then xNX else 0⟩⟩

/-- Round an exact value into any format (R164 to R167). -/
def roundTo (mode : NMode) (f : BitVec 4) (v : FVal) : Rounded :=
  if fmtFloat f then roundFloat mode f v
  else if f.toNat = 11 then roundBin mode v
  else roundInt mode f v

/-! ### Long-sum rounding (R175, R176) -/

/-- One step of the generator: the new state and its draw (R176). -/
def drawStep (s : BitVec 64) : BitVec 64 :=
  let s := s ^^^ (s <<< 13)
  let s := s ^^^ (s >>> 7)
  s ^^^ (s <<< 17)

def drawOf (s : BitVec 64) : Nat := (bits s 48 16).toNat

/-- Round by a draw (R175). Guist-compatible mode rounds by R164 (R179); BIN1 follows R167. Tininess in strict mode is that
of the drawn result in the format (DESIGN CHOICE, log 103). -/
def roundLsum (mode : NMode) (f : BitVec 4) (draw : Nat) (v : FVal) : Rounded :=
  match v with
  | .fin neg n d e =>
    if mode = .guist ∨ f.toNat = 11 ∨ n = 0 then roundTo mode f v
    else if fmtFloat f then
      let q := quantum f n d e
      let (k, r, den) := quotRem n d (e - q)
      if r = 0 ∨ overflows f n d e then roundTo mode f v
      else if aboveMax f n d e then
        ⟨(if neg then fmtSign f else 0) + fmtMax f, ⟨false, false, false, if mode = .strict then xNX else 0⟩⟩
      else
        let k := if draw < r * 65536 / den then k + 1 else k
        let (_, mb, _) := fmtShape f
        finishFloat mode f neg k q true (decide (k < 2 ^ mb))
    else
      let w := intWidth f
      let top := if neg then 2 ^ (w - 1) else 2 ^ (w - 1) - 1
      let (k, r, den) := quotRem n d e
      if r = 0 ∨ magLe (2 * top + 1) 1 (-1) n d e then roundTo mode f v
      else if top ≤ k then ⟨encodeInt w neg top, ⟨false, false, false, if mode = .strict then xNX else 0⟩⟩
      else
        ⟨encodeInt w neg (if draw < r * 65536 / den then k + 1 else k),
          ⟨false, false, false, if mode = .strict then xNX else 0⟩⟩
  | _ => roundTo mode f v

/-! ### Block scales on a result (R158) -/

/-- emax of the destination. -/
def fmtEmax (f : BitVec 4) : Int :=
  match f.toNat with
  | 3 => 8 | 4 => 15 | 5 => 2 | 6 => 4 | 7 => 2 | _ => 0

/-- ⌊log2⌋ of the largest finite magnitude among the values, none when it is zero. -/
def amaxLog : List FVal → Option Int
  | [] => none
  | .fin _ n d e :: vs =>
    let r := amaxLog vs
    if n = 0 then r
    else
      let l := log2Ratio n d + e
      match r with
      | none => some l
      | some m => some (max l m)
  | _ :: vs => amaxLog vs

/-- The scale of a block: its code and its power of two (R158); −127 too where no element is finite (DESIGN CHOICE, log
156). -/
def blockScale (f : BitVec 4) (vs : List FVal) : Nat × Int :=
  let x : Int := match amaxLog vs with
    | none => -127
    | some l => l - fmtEmax f
  let x := max (-127) (min 127 x)
  ((x + 127).toNat, x)

/-- A written block: its scale code, the element codes and their events (R158, R173): a NaN written into a format without
NaN is invalid, whatever its origin. Where a NaN
makes the scale 0xFF, the other elements are written as 0 and raise no event (DESIGN CHOICE, log 155). `rnd` rounds one element, given its index. -/
def blockWith (mode : NMode) (f : BitVec 4) (rnd : Nat → FVal → Rounded) (vs : List FVal) : Nat × List Rounded :=
  if vs.any isNanF then
    (255, vs.map fun v =>
      ⟨0, if isNanF v then ⟨false, false, true, if mode = .strict ∧ (isInvF v ∨ fmtHasNan f = false) then xNV else 0⟩ else .none⟩)
  else
    let (code, x) := blockScale f vs
    let k : Int := if f.toNat = 8 then 6 else 0
    (code, (upFrom 0 vs.length).zip vs |>.map fun (i, v) => rnd i (scaleBy (k - x) v))

/-! ### Elements of a bit string (R148, R149) -/

/-- The code of element `i` of format `f` in a bit string; FP6 ignores bits [7:6]. -/
def elemOf (f : BitVec 4) (x : Nat) (i : Nat) : Nat :=
  let w := fmtWidth f
  let c := x / 2 ^ (w * i) % 2 ^ w
  if f.toNat = 5 ∨ f.toNat = 6 then c % 64 else c

/-- The bit string of a list of element codes, element 0 lowest. -/
def packElems (f : BitVec 4) : List Nat → Nat
  | [] => 0
  | c :: cs => c % 2 ^ fmtWidth f + 2 ^ fmtWidth f * packElems f cs

/-- Counts of a list of events (R168): saturated, flushed, NaN produced, flags, and the lowest NaN element. -/
structure Tally where
  sat : Nat
  flush : Nat
  nan : Nat
  fl : BitVec 5
  first : Option Nat
deriving DecidableEq, Repr

def tallyOf : Nat → List Ev → Tally
  | _, [] => ⟨0, 0, 0, 0, none⟩
  | i, e :: es =>
    let t := tallyOf (i + 1) es
    ⟨t.sat + e.sat.toNat, t.flush + e.flush.toNat, t.nan + e.nan.toNat, t.fl ||| e.fl,
      if e.nan then some i else t.first⟩

/-- Guist-compatible accumulation (R179): each term added in order, rounded to the accumulation type after every
addition, with the events of every addition. -/
def seqSum (f : BitVec 4) (start : FVal) : List FVal → FVal × Ev
  | [] => (start, .none)
  | v :: vs =>
    let r := roundTo .guist f (addF start v)
    let (out, e) := seqSum f (decodeElem f r.code) vs
    (out, evOr r.ev e)

end Sys2Proof.Machine
end

