-- ==== Sys2Proof/Machine/Operands.lean ====
section
/-! DEFINITION. The operand forms of the scalar core: the 22-bit specifier and its sizes (R36, R37, R44, R47), and
what a word of a scalar format must leave zero (R10, R46). -/
namespace Sys2Proof.Machine

/-- The size in bytes that sz names, none for the reserved value 11 (R47). -/
def szBytes (sz : BitVec 2) : Option Nat :=
  match sz.toNat with
  | 0 => some 1
  | 1 => some 2
  | 2 => some 4
  | _ => none

/-- A decoded operand specifier (R36). -/
inductive EaMode where
  | ixd (d : BitVec 12)
  | iyd (d : BitVec 12)
  | ixInc
  | iyInc
  | ixiy
  | abs (d : BitVec 20)
deriving DecidableEq, Repr

/-- The mode of a specifier, none where R36 or R10 makes it ILLEGAL. -/
def eaMode (m : BitVec 22) : Option EaMode :=
  match (bits m 20 2).toNat with
  | 0 => if bits m 12 8 = 0 then some (.ixd (bits m 0 12)) else none
  | 1 => if bits m 12 8 = 0 then some (.iyd (bits m 0 12)) else none
  | 2 =>
    if bits m 0 18 ≠ 0 then none
    else match (bits m 18 2).toNat with
      | 0 => some .ixInc
      | 1 => some .iyInc
      | 2 => some .ixiy
      | _ => none
  | _ => some (.abs (bits m 0 20))

/-- The effective address (R36, R37). -/
def eaOf (th : Thread) : EaMode → Word
  | .ixd d => th.ix + sext d
  | .iyd d => th.iy + sext d
  | .ixInc => th.ix
  | .iyInc => th.iy
  | .ixiy => th.ix + th.iy
  | .abs d => th.ddc.base + zext d

/-- The post-increment of a mode, by the access size (R37). -/
def postInc (m : EaMode) (n : Nat) (th : Thread) : Thread :=
  match m with
  | .ixInc => { th with ix := th.ix + BitVec.ofNat 32 n }
  | .iyInc => { th with iy := th.iy + BitVec.ofNat 32 n }
  | _ => th

/-- The mode increments an index register. -/
def isInc : EaMode → Bool
  | .ixInc => true
  | .iyInc => true
  | _ => false

/-- A specifier and a size, decoded together; ILLEGAL where either is reserved (R36, R47). -/
def memForm (sz : BitVec 2) (m : BitVec 22) : Res (Nat × EaMode) :=
  match szBytes sz, eaMode m with
  | some n, some e => .ok (n, e)
  | _, _ => .fault (plainFault cILLEGAL)

/-- As `memForm`, where sz must be word (R50, R51). -/
def wordForm (sz : BitVec 2) (m : BitVec 22) : Res EaMode :=
  if sz = 2 then (memForm sz m).andThen (fun p => .ok p.2) else .fault (plainFault cILLEGAL)

/-- Sign-extension of the low `n` bytes. -/
def sextBytes (n : Nat) (v : Word) : Word :=
  match n with
  | 1 => sext (bits v 0 8)
  | 2 => sext (bits v 0 16)
  | _ => v

/-- Zero-extension of the low `n` bytes. -/
def zextBytes (n : Nat) (v : Word) : Word :=
  match n with
  | 1 => zext (bits v 0 8)
  | 2 => zext (bits v 0 16)
  | _ => v

end Sys2Proof.Machine
end

