-- ==== Sys2Proof/Machine/Threads.lean ====
section
/-! DEFINITION. Starting and resuming threads, events and waiting, notifications and the slot table (R112 to R135). -/
namespace Sys2Proof.Machine

/-- The four threads. -/
def allThreads : List (Fin 4) := [0, 1, 2, 3]

/-- THREAD_CMD START for thread `k` (R114, R330). -/
def doStart (s : State) (slot : Nat) (k : Fin 4) : State :=
  let c := getCore s slot
  let th := c.th[k]
  if th.st = .notRunning ∨ th.st = .stoppedFault then
    let a := csrGet c (0x1010 + 4 * k.val)
    let s := modTh s slot k (fun th =>
      { th with
        pc := a, pcc := { th.pcc with cursor := a }, acc := 0, acg := 0, ix := 0, iy := 0, flags := 0, rs := [],
        glink := [], staged := [], ev := false, cause := 0, st := .running, wait := none, block := none,
        closeEnd := none })
    if k = c.pdThread then modCore s slot (fun c => { c with pdActive := false, shadow := ⟨0, 0, 0, 0, 0⟩ }) else s
  else s

/-- THREAD_CMD RESUME for thread `k` (R115): ERET from its own SFC. -/
def doResume (s : State) (slot : Nat) (k : Fin 4) : State :=
  if (getTh s slot k).st = .stoppedFault then doEret s slot k (getTh s slot k).pc else s

/-- The event bits of the threads selected by `p` are set (R123). -/
def setEvents (s : State) (slot : Nat) (p : Fin 4 → Bool) : State :=
  allThreads.foldl (fun s t => if p t then setEvent s slot t else s) s

/-- WAKE_ENk (R126). -/
def wakeEn (c : Core) (k : Fin 4) : Word := csrGet c (0x1050 + 4 * k.val)

/-- Debug attachment (R145 ATTACHED): JTAG selects the core, or a DEBUG_ATTACH session covers its cluster. -/
def attached (s : State) (slot : Nat) : Bool :=
  (getCore s slot).jtag || (!isSo slot && bitOf s.dbgSession (slot / 72))

/-- A WAITING thread counts as armed (R133). -/
def armed (s : State) (slot : Nat) (k : Fin 4) : Bool :=
  let c := getCore s slot
  let th := c.th[k]
  let w := wakeEn c k
  let anyOpen := [0, 1, 2, 3].any (queueOpen c)
  (match th.wait with
   | some .event =>
     [0, 1, 2, 3].any (fun q => bitOf w q && queueOpen c q) || bitOf w 4 || (bitOf w 5 && attached s slot)
   | _ => true) ||
  (k == handlerOf c && anyOpen)

/-- The conditions of an orphan episode (R134). -/
def orphaned (s : State) (slot : Nat) : Bool :=
  let c := getCore s slot
  let waits := allThreads.filter (fun k => c.th[k].st == .waiting)
  !c.held && !waits.isEmpty && waits.all (fun k => !armed s slot k) &&
    allThreads.all (fun k => c.th[k].st != .running && c.th[k].st != .escalation)

/-- The threads that are WAITING, as the mask of an orphan wait's INFO word (R129). -/
def waitingMask (c : Core) : BitVec 4 :=
  BitVec.ofNat 4 (allThreads.foldl (fun acc k => if c.th[k].st == .waiting then acc + 2 ^ k.val else acc) 0)

/-- A notification is pending, and may be delivered to the supervisor (R129): it is not closed, no debug stop comes first (R100), and it is
RUNNING or WAITING. -/
def notifiable (s : State) (slot : Nat) : Bool :=
  let th := getTh s slot (superOf s slot)
  deliverable s slot (superOf s slot) && !isClosed th && !th.stopReq && noteDue s slot

/-- A notification is delivered to the supervisor (R129). -/
def deliverNote (s : State) (slot : Nat) : State :=
  match (getCore s slot).notes with
  | [] => s
  | n :: rest =>
    let k := superOf s slot
    let s := modCore s slot (fun c => { c with notes := rest })
    let s := atBoundary s slot k
    let pc := (getTh s slot k).pc
    match n with
    | .stopped j code frame _ => enterException s slot k true pc (causeWord j 0 code) code frame 0
    | .orphan mask _ => enterException s slot k true pc (causeWord 0 0 cORPHAN_WAIT) cORPHAN_WAIT 0 (zext mask)

/-- A division runs to its end before a delivery (R67). -/
def isDivision : Instr → Bool
  | .div .. => true
  | .divu .. => true
  | .rem .. => true
  | .remu .. => true
  | _ => false

/-- A thread blocked on a shared-SRAM operand, a division's aside, stops there, and its instruction has taken nothing
(R138, R139); so does one whose doorbell waits for its channel. -/
def stopsBlocked (th : Thread) : Bool :=
  match th.block with
  | some (.sram i) => !isDivision i
  | some (.operands _ _ _) => true
  | some (.door _ _) => true
  | _ => false

/-- A debug stop is due for the thread (R138): requested, and held neither by a closure nor by an escalation, nor by the
instruction of a STEP that has not ended, or has not reached its commit point (R140, R218). -/
def stopDue (s : State) (slot : Nat) (t : Fin 4) : Bool :=
  let c := getCore s slot
  let th := c.th[t]
  nextDelivery s slot t == some .stop && !(th.stepping && (th.block.isSome || (tileBeforeCommit s slot t).isSome)) &&
    (deliverable s slot t ||
      (!c.held && !c.halted && !c.escActive && !c.vq.any (fun o => o.t == t) && th.st == .running && stopsBlocked th))

/-- The debug stop is taken (R138, R139, R217): the state becomes STOPPED_DEBUG with CAUSE DEBUG_STOP; no frame is
written, and a waiting or blocked thread keeps the PC of the instruction that waits; an XCH on its way has taken nothing. -/
def takeStop (s : State) (slot : Nat) (t : Fin 4) : State :=
  let s := abandonTile s slot t
  modTh s slot t (fun th =>
    { th with
      pend := th.pend.filter (fun p => p.applied || !p.bytes.isEmpty)
      st := .stoppedDebug, cause := cDEBUG_STOP, stopReq := false, stepping := false, wait := none, block := none })

/-! ### The commands -/

/-- WFE (R124, R101). -/
def wfeBody (t : Fin 4) (slot : Nat) (s : State) : Res State :=
  let th := getTh s slot t
  if th.ev then .ok (advance s slot t (fun th => { th with ev := false, closeEnd := none }))
  else .ok (modTh s slot t (fun th => beginWait .event (clockOf s slot) { th with closeEnd := none }))

/-- WFE: waits for the event bit, and ends a closure (R124, R101). -/
def execWfe (cpu : Cpu) (t : Fin 4) (s : State) : Host.Outcome State Fault Refusal := issue s cpu t (wfeBody t)

/-- SEV mask (R122): the event bit of each thread in the mask is set, the issuer's included. -/
def execSev (cpu : Cpu) (t : Fin 4) (mask : BitVec 4) (s : State) : Host.Outcome State Fault Refusal :=
  issue s cpu t (fun slot s => .ok (setEvents (advance s slot t id) slot (fun k => bitOf mask k.val)))

/-- CLREV (R122). -/
def execClrev (cpu : Cpu) (t : Fin 4) (s : State) : Host.Outcome State Fault Refusal :=
  issue s cpu t (fun slot s => .ok (advance s slot t (fun th => { th with ev := false })))

/-- An effect on a core that is out of reset; a core that does not exist or is held is left alone. -/
def onCore (s : State) (cpu : Cpu) (f : Nat → State → State) : Host.Outcome State Fault Refusal :=
  match slotOf s cpu with
  | none => .next s
  | some slot => if (getCore s slot).held then .next s else .next (f slot s)

/-- CYC_WAKE (R126, R127): in the cycle in which CYCLE equals CYC_CMP. -/
def execCycWake (cpu : Cpu) (s : State) : Host.Outcome State Fault Refusal :=
  onCore s cpu (fun slot s =>
    let c := getCore s slot
    if cycleReg s slot = csrGet c 0x1074 then setEvents s slot (fun k => bitOf (wakeEn c k) 4) else s)

/-- THREAD_START: the effect of THREAD_CMD START (R114); a control core has no THREADS page, and runs T0 alone (R486). -/
def execThreadStart (cpu : Cpu) (t : Fin 4) (s : State) : Host.Outcome State Fault Refusal :=
  onCore s cpu (fun slot s => if isSo slot then s else doStart s slot t)

/-- THREAD_RESUME: the effect of THREAD_CMD RESUME (R115). -/
def execThreadResume (cpu : Cpu) (t : Fin 4) (s : State) : Host.Outcome State Fault Refusal :=
  onCore s cpu (fun slot s => if isSo slot then s else doResume s slot t)

/-- SLOT_TABLE_UPDATE (R120): the pending SLOT writes take effect together. -/
def execSlotTableUpdate (cpu : Cpu) (s : State) : Host.Outcome State Fault Refusal :=
  onCore s cpu (fun slot s =>
    modCore s slot (fun c =>
      { c.slotPend.foldl (fun c p => csrSet c p.1 p.2) c with slotPend := [] }))

/-- NOTIFY_DELIVERY (R129, R130): the oldest pending notification, if the supervisor can take it. -/
def execNotifyDelivery (cpu : Cpu) (s : State) : Host.Outcome State Fault Refusal :=
  onCore s cpu (fun slot s => if notifiable s slot then deliverNote s slot else s)

/-- ORPHAN_WAIT (R134): an unarmed wait has held for 16 cycles; one orphan wait per episode becomes pending. -/
def execOrphanWait (cpu : Cpu) (s : State) : Host.Outcome State Fault Refusal :=
  onCore s cpu (fun slot s =>
    if orphaned s slot ∧ (getCore s slot).orphanRaised = false then
      modCore s slot (fun c => addNote { c with orphanRaised := true } (.orphan (waitingMask c) (clockOf s slot)))
    else s)

end Sys2Proof.Machine
end

