-- ==== Sys2Proof/Machine/Posts.lean ====
section
/-! DEFINITION. Posts, flags, barriers and reductions of one device (R273 to R279, R315 to R346, R355 to R365, R608). -/
namespace Sys2Proof.Machine

/-! ### Common checks -/

/-- PCC carries the permission an instruction of these majors needs (R82, R316). -/
def needPcc (th : Thread) (p : BitVec 16) : Option FaultInfo :=
  if capHas th.pcc p then none else some (plainFault cCAP_PERM)

/-- ILLEGAL where the encoding breaks a condition (R10, R317). -/
def legal (ok : Bool) : Option FaultInfo := if ok then none else some (plainFault cILLEGAL)

/-- Scope codes 0 to 5 (R315). -/
def scopeOk (sc : BitVec 3) : Bool := decide (sc.toNat < 6)

/-- A release at cluster scope or wider waits for every store and XCH of the thread to shared SRAM (R357). -/
def releaseReady (th : Thread) (wide : Bool) : Bool := !wide || th.pend.isEmpty

/-- The declared scope of flag `f` (R347). -/
def flagScope (c : Core) (f : BitVec 6) : BitVec 3 := bits (csrGet c (0x8040 + 4 * (f.toNat / 8))) (4 * (f.toNat % 8)) 3

/-- SCOPE_MISMATCH while MEMORY_CTL.SCOPE_CHECK is 1 (R364, R365). -/
def scopeFault (c : Core) (f : BitVec 6) (sc : BitVec 3) : Option FaultInfo :=
  if bitOf (csrGet c 0x40) 0 ∧ flagScope c f ≠ sc then
    some ⟨cSCOPE_MISMATCH, 0, BitVec.ofNat 32 (f.toNat * 256 + (flagScope c f).toNat * 16 + sc.toNat)⟩
  else none

/-- Word 3 of a descriptor (R324). -/
def word3Of (s : State) (core : Nat) (t : Fin 4) (user : BitVec 4) : Word :=
  (fabDev s ++ BitVec.ofNat 10 core ++ BitVec.ofNat 2 t.val ++ user : BitVec 32)

/-- Four words, word 0 lowest. -/
def words4 (a b c d : Word) : BitVec 128 := d ++ c ++ b ++ a

/-- The logical core of a slot; a control core has none. -/
def coreOf (s : State) (slot : Nat) : Nat := (logicalOf s slot).getD 0x3FF

/-! ### Dead letters (R332, R333) -/

def closedDefault (_ : Nat) : Bool := false
def creditDefault (_ : Nat) : BitVec 5 := 0
def genDefault (_ : Nat) : Nat := 0

/-- A returned unit is written into the core's dead-letter queue, or dropped and counted; a status 0x02 to 0x04 closes
the channel entry of a post or signal; DLFLAG is signalled when DLEN is set (R332). -/
def writeDead (c : Core) (d : DeadLetter) : Core :=
  let c := if (d.kind = 0 ∨ d.kind = 1) ∧ (d.status = 2 ∨ d.status = 3 ∨ d.status = 4) then
      { c with chClosed := tset closedDefault c.chClosed d.origin.toNat true } else c
  if 8 ≤ c.dlq.length then csrCount c 0x7044 1
  else
    let c := { c with dlq := c.dlq ++ [d] }
    let ctl := csrGet c 0x7000
    if bitOf ctl 14 then signalFlag c (bits ctl 8 6) else c

/-- A returned unit reaches the core in a slot (R332). -/
def takeDead (s : State) (slot : Nat) (d : DeadLetter) : State :=
  let c := getCore s slot
  let ctl := csrGet c 0x7000
  let s := if c.dlq.length < 8 ∧ bitOf ctl 14 then noteSat s slot (bits ctl 8 6) else s
  modCore s slot (fun c => writeDead c d)

/-- A unit is refused with a status and goes back to its sender (R326, R332, R424). -/
def refuse (s : State) (org : Org) (kind : BitVec 2) (words : BitVec 128) (status : BitVec 8) : State :=
  match org with
  | .here core entry _ =>
    { s with msgs := s.msgs ++ [.dead core ⟨words, status, kind, BitVec.ofNat 6 entry⟩] }
  | .far dev vc eseq =>
    sendUnit s
      { op := opDEAD, vc := 3, src := 0, dst := dev, eseq := 0, space := bits status 0 4,
        unit := (vc.setWidth 38 <<< 16) ||| eseq.setWidth 38, pzn := false, data := words.setWidth 512 } none

/-- A dispatched post gives its credit back (R328, R436). -/
def returnCredit (s : State) (org : Option Org) : State :=
  match org with
  | none => s
  | some (.here core entry gen) => { s with msgs := s.msgs ++ [.credit core entry gen] }
  | some (.far dev vc eseq) =>
    sendUnit s
      { op := opWRITE_ACK, vc := 2, src := 0, dst := dev, eseq := 0, space := 0,
        unit := (vc.setWidth 38 <<< 16) ||| eseq.setWidth 38, pzn := false, data := 0 } none

/-- Word 0 of a returned signal (R333). -/
def signalWord (f : BitVec 6) : Word := 0x80000000 ||| zext f

/-! ### What arrives at a core -/

/-- A descriptor enters an open queue with room, and wakes the threads whose RQ bit selects the queue (R325, R126). -/
def enqueue (s : State) (slot : Nat) (q : Fin 4) (e : QEntry) : State :=
  let s := modCore s slot (fun c => { c with queues := c.queues.set q (c.queues[q] ++ [e]) })
  setEvents s slot (fun k => bitOf (wakeEn (getCore s slot) k) q.val)

/-- The status with which the core's queue refuses a descriptor, if it does (R326). -/
def queueRefuses (c : Core) (q : Fin 4) : Option (BitVec 8) :=
  if !queueOpen c q.val then some 0x02 else if 16 ≤ c.queues[q].length then some 0x04 else none

/-- A post to the Sorting Office's stage queue names logical core 1,023 (R509). -/
def stageCore : Nat := 1023

/-- A unit reaches its core, whose cluster is not asleep (R326, R332, R335, R345). -/
def applyMsg (s : State) (m : Msg) : State :=
  match m with
  | .post org dst queue desc =>
    if dst = stageCore then
      { s with stageQ := s.stageQ ++ [((bits desc 102 10).toNat, bits desc 64 32, org)] }
    else match siteOf s dst with
      | none => refuse s org 0 desc 0x03
      | some slot =>
        if !coreServes s slot then refuse s org 0 desc 0x03
        else
          let q := Fin.ofNat 4 queue.toNat
          match queueRefuses (getCore s slot) q with
          | some st => refuse s org 0 desc st
          | none => enqueue s slot q ⟨desc, some org⟩
  | .signal org dst f word3 =>
    match siteOf s dst with
    | none => refuse s org 1 (words4 (signalWord f) 0 0 word3) 0x03
    | some slot =>
      if !coreServes s slot then refuse s org 1 (words4 (signalWord f) 0 0 word3) 0x03
      else signalAt s slot f
  | .routed dst f =>
    match siteOf s dst with
    | none => s
    | some slot => if coreServes s slot then signalAt s slot f else s
  | .credit dst entry gen =>
    match siteOf s dst with
    | none => s
    | some slot =>
      let c := getCore s slot
      if coreServes s slot ∧ tget genDefault c.gen entry = gen then
        modCore s slot (fun c =>
          { c with credit := tset creditDefault c.credit entry (tget creditDefault c.credit entry + 1) })
      else s
  | .dead dst letter =>
    match siteOf s dst with
    | none => s
    | some slot => if coreServes s slot then takeDead s slot letter else s

/-- The core a unit is for. -/
def msgDst : Msg → Nat
  | .post _ d _ _ => d
  | .signal _ d _ _ => d
  | .routed d _ => d
  | .credit d _ _ => d
  | .dead d _ => d

/-- A unit arrives: one for a sleeping cluster waits for RUN (R532). -/
def deliverMsg (s : State) (m : Msg) : State :=
  match siteOf s (msgDst m) with
  | some slot =>
    if asleep s (clusterOf slot) && coreServes s slot then holdUnit s (clusterOf slot) (.msg m) else applyMsg s m
  | none => applyMsg s m

/-- The flow of a unit that one core of this device sends to another: the two logical cores (R257; DESIGN CHOICE, log 152). -/
def msgFlow : Msg → Option (Nat × Nat)
  | .post (.here c _ _) d _ _ => some (c, d)
  | .signal (.here c _ _) d _ _ => some (c, d)
  | _ => none

/-- How many of the units are of the flow. -/
def inFlow (ms : List Msg) (f : Nat × Nat) : Nat := (ms.filter (fun m => msgFlow m == some f)).length

/-- The flow of unit `i` has changed its route, and the unit was sent since while earlier ones are not yet delivered (R257). -/
def flowHolds (s : State) (i : Nat) (m : Msg) : Bool :=
  match msgFlow m with
  | none => false
  | some f => s.rerouted.any (fun r => r.1 == f.1 && r.2.1 == f.2 && decide (r.2.2 ≤ inFlow (s.msgs.take i) f))

/-- A unit of the flow leaves the message plane: one fewer of those sent before the change of route. -/
def flowMoves (s : State) (m : Msg) : State :=
  match msgFlow m with
  | none => s
  | some f => { s with rerouted := (s.rerouted.map (fun r =>
      if r.1 = f.1 ∧ r.2.1 = f.2 then (r.1, r.2.1, r.2.2 - 1) else r)).filter (fun r => r.2.2 != 0) }

/-- An earlier unit in transit was sent as a post through the same channel entry. -/
def entryHolds (s : State) (i : Nat) (m : Msg) : Bool :=
  match m with
  | .post (.here c e _) _ _ _ => (s.msgs.take i).any (fun x => match x with
    | .post (.here c' e' _) _ _ _ => c == c' && e == e'
    | _ => false)
  | _ => false

/-- Entry `i` of the units in transit leaves the message plane and arrives, if `p` says it is of the command's kind. Posts
through one channel entry stay in order (R354), and so does a flow whose route changes (R257). -/
def transitArrival (s : State) (i : Nat) (p : Msg → Bool) : State :=
  match s.msgs[i]? with
  | none => s
  | some m =>
    if p m && !entryHolds s i m && !flowHolds s i m then deliverMsg (flowMoves { s with msgs := s.msgs.eraseIdx i } m) m else s

/-! ### Sending (R321, R322, R342, R343) -/

def chtLo (c : Core) (e : Nat) : Word := csrGet c (0x7100 + 8 * e)
def chtHi (c : Core) (e : Nat) : Word := csrGet c (0x7104 + 8 * e)

/-- The VC of a channel entry's CLASS (R346). -/
def classVc (hi : Word) : BitVec 3 :=
  match (bits hi 28 2).toNat with
  | 0 => 3
  | 1 => 5
  | 2 => 6
  | _ => 7

def channelDefault (_ : Nat) : Channel := Channel.reset

/-- The VC of a courier channel's writes (R342). -/
def courierVc (prio : Nat) : BitVec 3 := if prio < 2 then 5 else if prio = 2 then 6 else 7

/-- The key under which posts wait for the half with hand-over number `n` of stream unit `u` (R343). -/
def halfKey (slot : Nat) (u : Fin 4) (n : Nat) : Nat := 4096 * (n + 1) + 4 * slot + u.val

/-- The bulk writes before which a unit to `dev` on `vc` may not leave (R343): the keys of the cluster's channels, 16 × cluster +
channel, and of the halves handed over to the core's OUT units. -/
def bulkBefore (s : State) (slot : Nat) (dev : BitVec 16) (vc : BitVec 3) : List Nat :=
  if vc = 3 then []
  else
    let cl := (clusterOf slot).val
    let chans := (upFrom 0 16).filterMap (fun n =>
      let o := 0x20000 + 0x2000 * cl + 0x40 * n
      let ch := tget channelDefault s.channels (16 * cl + n)
      let copies := bits (devGet s (o + 0x18)) 24 4 != 3
      if (ch.st == .active || ch.st == .pausing) && copies && bits (devGet s (o + 0xC)) 16 16 == dev &&
          courierVc (bits (devGet s (o + 0x18)) 16 2).toNat == vc && ch.doneBytes < ch.total then
        some (16 * cl + n) else none)
    let units := (upFrom 0 4).flatMap (fun u =>
      let su := (getCore s slot).su[Fin.ofNat 4 u]
      let isOut := bitOf (csrGet (getCore s slot) (0x6400 + 0x20 * u)) 31
      match su.far with
      | some d => if vc = 7 ∧ isOut ∧ hDevice d = dev ∧ hSpace d ≠ 8 then su.left.map (fun p => halfKey slot (Fin.ofNat 4 u) p.1) else []
      | none => [])
    chans ++ units

/-- A unit of a channel entry to another device leaves on the entry's class, behind the bulk data before it (R343). -/
def sendClass (s : State) (slot : Nat) (u : FUnit) (what : Asked) : State :=
  let before := bulkBefore s slot u.dst u.vc
  if before.isEmpty then sendUnit s u (some what)
  else { s with fab := { s.fab with behind := s.fab.behind ++ [(u, some what, before)] } }

/-- A logical core that has no site to refuse from (R326). -/
def noSuchCore (s : State) (core : Nat) : Bool := decide (logicalCount s ≤ core)

/-- A committed descriptor leaves through entry `e` (R321, R326, R345). -/
def sendPost (s : State) (slot core e : Nat) (desc : BitVec 128) : State :=
  let c := getCore s slot
  let lo := chtLo c e
  let hi := chtHi c e
  let gen := tget genDefault c.gen e
  let dst := (bits lo 0 10).toNat
  if bits lo 16 16 = fabDev s then
    if noSuchCore s dst ∧ dst ≠ stageCore then
      { s with msgs := s.msgs ++ [.dead core ⟨desc, 0x03, 0, BitVec.ofNat 6 e⟩] }
    else { s with msgs := s.msgs ++ [.post (.here core e gen) dst (bits hi 20 2) desc] }
  else
    sendClass s slot
      { op := opPOST, vc := classVc hi, src := 0, dst := bits lo 16 16, eseq := 0, space := 5,
        unit := BitVec.ofNat 38 (4 * dst + (bits hi 20 2).toNat), pzn := false, data := desc.setWidth 512 }
      (.post core e gen)

/-- A mode 01 signal leaves through entry `e` (R322, R326). -/
def sendSignal (s : State) (slot core e : Nat) (f : BitVec 6) (word3 : Word) : State :=
  let c := getCore s slot
  let lo := chtLo c e
  let hi := chtHi c e
  let dst := (bits lo 0 10).toNat
  let letter (st : BitVec 8) : DeadLetter := ⟨words4 (signalWord f) 0 0 word3, st, 1, BitVec.ofNat 6 e⟩
  if !bitOf hi 31 then takeDead s slot (letter 0x05)
  else if tget closedDefault c.chClosed e then takeDead s slot (letter 0x02)
  else if bits lo 16 16 = fabDev s then
    if noSuchCore s dst then { s with msgs := s.msgs ++ [.dead core (letter 0x03)] }
    else { s with msgs := s.msgs ++ [.signal (.here core e (tget genDefault c.gen e)) dst f word3] }
  else
    sendClass s slot
      { op := opSIGNAL, vc := classVc hi, src := 0, dst := bits lo 16 16, eseq := 0, space := 4,
        unit := BitVec.ofNat 38 (64 * dst + f.toNat), pzn := false, data := 0 }
      (.signal core e word3)

/-! ### Mesh routes (R273 to R279, R608) -/

def mrCtl (s : State) (r : Nat) : Word := devGet s (0x78000 + 16 * r)
def mrMemb (s : State) (r : Nat) : Word := devGet s (0x78004 + 16 * r)
def mrDest (s : State) (r : Nat) : Word := devGet s (0x78008 + 16 * r)

/-- A format code that a route knows: FP32, BF16 or INT32 (R279). -/
def mrFmtOk (s : State) (r : Nat) : Bool :=
  bits (mrCtl s r) 24 4 == 0 || bits (mrCtl s r) 24 4 == 1 || bits (mrCtl s r) 24 4 == 12

def mrLo (s : State) (r : Nat) : Nat := (bits (mrMemb s r) 0 10).toNat
def mrHi (s : State) (r : Nat) : Nat := (bits (mrMemb s r) 16 10).toNat
def mrRoot (s : State) (r : Nat) : Nat := (bits (mrCtl s r) 0 10).toNat
def mrElems (s : State) (r : Nat) : Nat := (bits (mrCtl s r) 16 6).toNat + 1

/-- The route has members (R279). -/
def mrHasMembers (s : State) (r : Nat) : Bool :=
  decide (mrLo s r ≤ mrHi s r ∧ mrHi s r < logicalCount s ∧ mrRoot s r < logicalCount s)

/-- The class in effect: 1 REDUCE, 2 FLAGS_ONLY, 0 off (R279). -/
def mrClass (s : State) (r : Nat) : Nat :=
  let k := (bits (mrCtl s r) 30 2).toNat
  if k = 3 ∨ !mrFmtOk s r then 0 else k

def mrMember (s : State) (r core : Nat) : Bool := decide (mrLo s r ≤ core ∧ core ≤ mrHi s r)

def roundDefault (_ : Nat) : Option Round := none

/-- The bytes of one contribution as it stands in local memory (R344). -/
def mrBytes (s : State) (r : Nat) : Nat := mrElems s r * (if bits (mrCtl s r) 24 4 = 1 then 2 else 4)

/-- MR_STATr counts and flags. -/
def mrStatOr (s : State) (r : Nat) (v : Word) : State := devOr s (0x7800C + 16 * r) v

/-- The open round's contributions are discarded (R273), and those of one that is closed and not yet
released (DESIGN CHOICE, log 160). -/
def discardRound (s : State) (r : Nat) : State :=
  match tget roundDefault s.rounds r with
  | none => s
  | some _ => mrStatOr { s with rounds := tset roundDefault s.rounds r none } r 0x40000000

/-- One addition of a reduction (R275): FP32 or INT32 words, with what the element counts. -/
def reduceAdd (isInt strict : Bool) (a b : Word) : Rounded :=
  let f : BitVec 4 := if isInt then 12 else 0
  roundTo (if strict then .strict else .fast) f (addF (decodeElem f a.toNat) (decodeElem f b.toNat))

/-- The elements of two contributions added, with the events of each element. -/
def reduceAddAll (isInt strict : Bool) : List (Word × Ev) → List (Word × Ev) → List (Word × Ev)
  | (a, ea) :: as, (b, eb) :: bs =>
    let r := reduceAdd isInt strict a b
    (BitVec.ofNat 32 r.code, evOr (evOr ea eb) r.ev) :: reduceAddAll isInt strict as bs
  | _, _ => []

/-- One level of the tree over logical cores (R275): entries in pairs. -/
def reduceLevel (isInt strict : Bool) : List (List (Word × Ev)) → List (List (Word × Ev))
  | a :: b :: rest => reduceAddAll isInt strict a b :: reduceLevel isInt strict rest
  | l => l

/-- The tree of R275, level by level; `n` bounds the number of levels. -/
def reduceTree (isInt strict : Bool) : Nat → List (List (Word × Ev)) → List (Word × Ev)
  | 0, l => l.headD []
  | _ + 1, [] => []
  | _ + 1, [v] => v
  | n + 1, l => reduceTree isInt strict n (reduceLevel isInt strict l)

/-- A format's element as an FP32 or INT32 word (R275). A NaN keeps its sign and payload, which a round of one member then
delivers (DESIGN CHOICE, log 106). -/
def widenElem (f : BitVec 4) (code : Nat) : Word :=
  if f = 1 then BitVec.ofNat 32 (code * 65536) else BitVec.ofNat 32 code

/-- Barrier and reduction results of a fabric tree bound to route `r`: the lowest tree with VALID and RED that names
it (R442). -/
def treesOf (s : State) (r : Nat) : List Nat :=
  (upFrom 0 16).filter (fun f =>
    let c := devGet s (0x72000 + 0x40 * f)
    bitOf c 31 && bitOf c 28 && (bits c 16 6).toNat == r)

/-- The result bytes written at `a` of a core's local memory, poisoned throughout if the round was (R275, R276). Bytes
beyond local memory stand where no access reads (DESIGN CHOICE, log 161). -/
def writeResult (s : State) (slot a : Nat) (ws : List Word) (poison : Bool) : State :=
  let bs := ws.flatMap (fun w => leBytes 4 w.toNat)
  let mask := if poison then 2 ^ ws.length - 1 else 0
  modCore s slot (fun c => { c with mem := memCopyWords 4 mask ws.length a c.mem bs })

/-- A result and its descriptor reach a core (R276, R442): the words of the descriptor, its queue, and the origin of the
dead letter if the queue refuses it. -/
def placeResult (s : State) (slot core a : Nat) (q : Fin 4) (tag : Nat) (origin : BitVec 6) (ws : List Word) (poison : Bool) :
    State :=
  let s := writeResult s slot a ws poison
  let desc := words4 (BitVec.ofNat 32 a) (BitVec.ofNat 32 (4 * ws.length)) (BitVec.ofNat 32 tag) 0
  match queueRefuses (getCore s slot) q with
  | some st => { s with msgs := s.msgs ++ [.dead core ⟨desc, st, 3, origin⟩] }
  | none => enqueue s slot q ⟨desc, none⟩

/-! ### Fabric trees for barriers (R441, R445) -/

def treeDefault (_ : Nat) : Tree := Tree.reset
def getTree (s : State) (f : Nat) : Tree := tget treeDefault s.fab.trees f
def modTree (s : State) (f : Nat) (g : Tree → Tree) : State :=
  { s with fab := { s.fab with trees := tset treeDefault s.fab.trees f (g (getTree s f)) } }

def ftCtl (s : State) (f : Nat) : Word := devGet s (0x72000 + 0x40 * f)
def ftParent (s : State) (f : Nat) : BitVec 16 := bits (devGet s (0x72004 + 0x40 * f)) 0 16

/-- The children of a tree in the order of their registers (R441). -/
def ftChildren (s : State) (f : Nat) : List (BitVec 16) :=
  (upFrom 0 (bits (ftCtl s f) 0 5).toNat).map (fun i =>
    bits (devGet s (0x72008 + 0x40 * f + 4 * (i / 2))) (16 * (i % 2)) 16)

/-- ROUNDS counts a completed round or episode (R450). -/
def ftRound (s : State) (f : Nat) : State :=
  let o := 0x7202C + 0x40 * f
  let v := devGet s o
  devSet s o (setBits v 0 (bits v 0 16 + 1))

/-- A tree unit (R443). -/
def treeUnit (op : BitVec 8) (dst : BitVec 16) (f : Nat) (parity down : Bool) (index : Nat) (pzn : Bool) (data : BitVec 512) :
    FUnit :=
  { op := op, vc := 4, src := 0, dst := dst, eseq := 0, space := 0,
    unit := BitVec.ofNat 38 (parity.toNat * 512 + down.toNat * 256 + index * 64 + f), pzn := pzn, data := data }

/-- Barrier network `f` spans the fabric (R445). -/
def spans (s : State) (f : Nat) : Bool := bitOf (ftCtl s f) 31 && bitOf (ftCtl s f) 29

/-- The network is released here (R341, R445). -/
def barrierDue (s : State) (n : Nat) : State := { s with barDue := s.barDue ||| oneAt 16 n }

/-- RELEASE goes to every child, and this device's members are released (R445). -/
def treeRelease (s : State) (f : Nat) : State :=
  let parity := (getTree s f).episode
  let s := (ftChildren s f).foldl (fun s c => sendUnit s (treeUnit opBARRIER c f parity true 0 false 0) none) s
  let s := modTree s f (fun t => { t with ownBar := false, bars := [], episode := !t.episode })
  barrierDue (ftRound s f) f

/-- Once this device and every child have arrived, the root releases and any other device sends ARRIVE (R445). -/
def treeBarrier (s : State) (f : Nat) : State :=
  let t := getTree s f
  if t.ownBar && (ftChildren s f).all (fun c => t.bars.contains c) then
    if bitOf (ftCtl s f) 30 then treeRelease s f
    else sendUnit s (treeUnit opBARRIER (ftParent s f) f t.episode false 0 false 0) none
  else s

/-! ### Barriers (R339 to R341, R144) -/

/-- The sites of the cores that are members of network `n` (R339). -/
def barMembers (s : State) (n : Nat) : List Nat :=
  (s.coreSite.filterMap (·.2)).filter (fun site =>
    bitOf (csrGet (getCore s site) 0x8080) n &&
      ((getCl s (clusterOf site)).service == .inService || (getCl s (clusterOf site)).service == .draining))

/-- Every member of network `n` has arrived: the release is due, 12 mesh cycles later (R341), or this device's arrival in
the network's tree (R445). Nothing happens while an earlier release is still due. -/
def checkBarrier (s : State) (n : Nat) : State :=
  let ms := barMembers s n
  if bitOf s.barDue n || ms.isEmpty || !ms.all (fun m => bitOf (getCore s m).barArr n) then s
  else if spans s n then
    if (getTree s n).ownBar then s else treeBarrier (modTree s n (fun t => { t with ownBar := true })) n
  else barrierDue s n

/-- The core's arrival on network `n` is recorded (R340). -/
def arrive (s : State) (slot n : Nat) : State :=
  if bitOf (getCore s slot).barArr n then s
  else checkBarrier (modCore s slot (fun c => { c with barArr := c.barArr ||| oneAt 16 n })) n

def isMember (c : Core) (n : Nat) : Bool := bitOf (csrGet c 0x8080) n

/-- A barrier instruction on a network of which the core is not a member (R340). -/
def notMember (s : State) (slot : Nat) (n : BitVec 4) : State :=
  noteSet (modCore s slot (fun c => csrSet c 0x8088 (0x80000000 ||| zext n))) (corePlace slot 0x8088) 0x80000000

/-- The waiting threads of a core are released from network `n`, and its arrival is cleared (R341). -/
def releaseBarrier (s : State) (slot : Nat) (n : BitVec 4) : State :=
  modCore s slot (fun c =>
    { c with
      barArr := c.barArr &&& ~~~oneAt 16 n.toNat,
      th := c.th.map (fun th => if waitsFor th (.barrier n) then endWait th else th) })

/-! ### The instructions (R316 to R323) -/

/-- PSTW (R320, R317). -/
def pstwBody (t : Fin 4) (slot : Nat) (s : State) : Res State :=
  let th := getTh s slot t
  Res.check (legal (th.staged.length < 4)) (Res.check (needPcc th pPOST)
    (.ok (advance s slot t (fun th => { th with staged := th.staged ++ [th.acc] }))))
def execPstw (core : Nat) (t : Fin 4) (s : State) : Host.Outcome State Fault Refusal := issue s (.core core) t (pstwBody t)

/-- PCLR (R316). -/
def execPclr (core : Nat) (t : Fin 4) (s : State) : Host.Outcome State Fault Refusal :=
  issue s (.core core) t (fun slot s =>
    Res.check (needPcc (getTh s slot t) pPOST) (.ok (advance s slot t (fun th => { th with staged := [] }))))

/-- PGET i (R316). -/
def execPget (core : Nat) (t : Fin 4) (i : BitVec 2) (s : State) : Host.Outcome State Fault Refusal :=
  issue s (.core core) t (fun slot s =>
    Res.check (needPcc (getTh s slot t) pPOST)
      (.ok (advance s slot t (fun th => accZN th (bits th.recvd (32 * i.toNat) 32)))))

/-- RGATE (R96): none where the gate-link stack is empty. -/
def popLink (th : Thread) : Option Thread :=
  match th.glink.reverse with
  | [] => none
  | (p, d) :: rest => some { th with pcc := p, ddc := d, pc := p.cursor, glink := rest.reverse }

/-- PRET (R329): legal for the thread that was dispatched, which HTHREAD need not name any more. -/
def pretBody (t : Fin 4) (slot : Nat) (s : State) : Res State :=
  let c := getCore s slot
  let th := c.th[t]
  Res.check (legal (c.pdActive && t == c.pdThread)) (Res.check (needPcc th pPOST)
    (match popLink th with
     | none => .fault (plainFault cGATE)
     | some th' =>
       let sh := c.shadow
       .ok (modCore (modTh s slot t (fun _ =>
           { th' with acc := sh.acc, acg := sh.acg, ix := sh.ix, iy := sh.iy, flags := sh.flags })) slot
         (fun c => { c with pdActive := false }))))
def execPret (core : Nat) (t : Fin 4) (s : State) : Host.Outcome State Fault Refusal := issue s (.core core) t (pretBody t)

/-- POST and POSTQ (R317, R321, R323, R356). -/
def postBody (wait : Bool) (t : Fin 4) (e : BitVec 5) (slot : Nat) (s : State) : Res State :=
  let c := getCore s slot
  let th := c.th[t]
  let n := e.toNat
  let core := coreOf s slot
  let hi := chtHi c n
  let answer (s : State) (v : Word) : Res State := .ok (advance s slot t (fun th => accZN th v))
  Res.check (legal (3 ≤ th.staged.length)) (Res.check (needPcc th pPOST)
    (if wait && t == handlerOf c then .fault (plainFault cHANDLER_BLOCKING_POST)
     else if !bitOf hi 31 then answer s 0x05
     else if tget closedDefault c.chClosed n then answer s 0x02
     else if tget creditDefault c.credit n = 0 then (if wait then .stall else answer s 0x01)
     else if !releaseReady th (!((bits (chtLo c n) 16 16 == fabDev s) && (bits (chtLo c n) 0 10).toNat == core)) then .stall
     else
       let desc := words4 (wordAt th.staged 0) (wordAt th.staged 1) (wordAt th.staged 2)
         (word3Of s core t (if th.staged.length = 4 then bits (wordAt th.staged 3) 0 4 else 0))
       let s := modCore s slot (fun c =>
         { c with credit := tset creditDefault c.credit n (tget creditDefault c.credit n - 1) })
       let s := modTh s slot t (fun th => { th with staged := [] })
       answer (sendPost s slot core n desc) 0))
def execPost (core : Nat) (t : Fin 4) (e : BitVec 5) (s : State) : Host.Outcome State Fault Refusal :=
  issue s (.core core) t (postBody true t e)
def execPostq (core : Nat) (t : Fin 4) (e : BitVec 5) (s : State) : Host.Outcome State Fault Refusal :=
  issue s (.core core) t (postBody false t e)

/-- The signal of a FLAGS_ONLY route to every core from LO to HI (R277), or its refusal (R608). -/
def routeSignal (s : State) (core : Nat) (r : Nat) (word3 : Word) : State :=
  let f := bits (mrDest s r) 0 6
  if mrClass s r ≠ 2 ∨ !mrHasMembers s r then
    { s with msgs := s.msgs ++ [.dead core ⟨words4 (signalWord f) 0 0 word3, 0x06, 1, BitVec.ofNat 6 r⟩] }
  else
    { s with msgs := s.msgs ++ (upFrom (mrLo s r) (mrHi s r + 1 - mrLo s r)).map (fun n => .routed n f) }

/-- FSIG (R315, R317, R322, R337, R356, R364). -/
def fsigBody (t : Fin 4) (mode : BitVec 2) (er : BitVec 6) (sc : BitVec 3) (f : BitVec 6) (slot : Nat) (s : State) : Res State :=
  let c := getCore s slot
  let th := c.th[t]
  let ok := scopeOk sc && (match mode.toNat with
    | 0 => er == 0
    | 1 => decide (er.toNat < 32)
    | 2 => f == 0
    | _ => false)
  let shown := if mode = 2 then bits (mrDest s er.toNat) 0 6 else f
  Res.check (legal ok) (Res.check (needPcc th pFLAG) (Res.check (scopeFault c shown sc)
    (if !releaseReady th (2 ≤ sc.toNat) then .stall
     else
       let core := coreOf s slot
       let w3 := word3Of s core t 0
       let s := advance s slot t id
       match mode.toNat with
       | 0 => .ok (signalAt s slot f)
       | 1 => .ok (sendSignal s slot core er.toNat f w3)
       | _ => .ok (routeSignal s core er.toNat w3))))
def execFsig (core : Nat) (t : Fin 4) (mode : BitVec 2) (er : BitVec 6) (scope : BitVec 3) (f : BitVec 6) (s : State) :
    Host.Outcome State Fault Refusal := issue s (.core core) t (fsigBody t mode er scope f)

/-- FWAIT f (R336, R364). -/
def fwaitBody (t : Fin 4) (sc : BitVec 3) (f : BitVec 6) (slot : Nat) (s : State) : Res State :=
  let c := getCore s slot
  Res.check (legal (scopeOk sc)) (Res.check (needPcc c.th[t] pFLAG) (Res.check (scopeFault c f sc)
    (if flagGet c f.toNat ≠ 0 then
       .ok (advance (modCore s slot (fun c => flagSet c f.toNat (flagGet c f.toNat - 1))) slot t id)
     else
       .ok (modTh s slot t (beginWait (.flag f) (clockOf s slot))))))
def execFwait (core : Nat) (t : Fin 4) (scope : BitVec 3) (f : BitVec 6) (s : State) : Host.Outcome State Fault Refusal :=
  issue s (.core core) t (fwaitBody t scope f)

/-- FTRY f (R316, R364). -/
def ftryBody (t : Fin 4) (sc : BitVec 3) (f : BitVec 6) (slot : Nat) (s : State) : Res State :=
  let c := getCore s slot
  Res.check (legal (scopeOk sc)) (Res.check (needPcc c.th[t] pFLAG) (Res.check (scopeFault c f sc)
    (if flagGet c f.toNat ≠ 0 then
       .ok (advance (modCore s slot (fun c => flagSet c f.toNat (flagGet c f.toNat - 1))) slot t (fun th => accZN th 1))
     else .ok (advance s slot t (fun th => accZN th 0)))))
def execFtry (core : Nat) (t : Fin 4) (scope : BitVec 3) (f : BitVec 6) (s : State) : Host.Outcome State Fault Refusal :=
  issue s (.core core) t (ftryBody t scope f)

/-- FGET f (R316). -/
def execFget (core : Nat) (t : Fin 4) (f : BitVec 6) (s : State) : Host.Outcome State Fault Refusal :=
  issue s (.core core) t (fun slot s =>
    Res.check (needPcc (getTh s slot t) pFLAG)
      (.ok (advance s slot t (fun th => accZN th (zext (flagGet (getCore s slot) f.toNat))))))

/-- BAR, BARV and BWAIT (R340): whether the instruction records an arrival, and whether it waits. A wait that is re-entered
by BAR finds its arrival recorded. -/
def barBody (arrives waits : Bool) (t : Fin 4) (n : BitVec 4) (slot : Nat) (s : State) : Res State :=
  let c := getCore s slot
  let th := c.th[t]
  Res.check (needPcc th pFLAG)
    (if !isMember c n.toNat then .ok (advance (notMember s slot n) slot t id)
     else if arrives && !releaseReady th true then .stall
     else
       let s := if arrives then arrive s slot n.toNat else s
       if waits && bitOf (getCore s slot).barArr n.toNat then
         .ok (modTh s slot t (beginWait (.barrier n) (clockOf s slot)))
       else .ok (advance s slot t id))
def execBar (core : Nat) (t : Fin 4) (n : BitVec 4) (s : State) : Host.Outcome State Fault Refusal :=
  issue s (.core core) t (barBody true true t n)
def execBarv (core : Nat) (t : Fin 4) (n : BitVec 4) (s : State) : Host.Outcome State Fault Refusal :=
  issue s (.core core) t (barBody true false t n)
def execBwait (core : Nat) (t : Fin 4) (n : BitVec 4) (s : State) : Host.Outcome State Fault Refusal :=
  issue s (.core core) t (barBody false true t n)

/-! ### Events -/

/-- BARRIER_RELEASE (R341): the network whose release is due is released on every core. -/
def execBarrierRelease (net : BitVec 4) (s : State) : Host.Outcome State Fault Refusal :=
  if !bitOf s.barDue net.toNat then .next s
  else
    let s := { s with barDue := s.barDue &&& ~~~oneAt 16 net.toNat }
    .next ((s.coreSite.filterMap (·.2)).foldl (fun s site =>
      if asleep s (clusterOf site) && bitOf (getCore s site).barArr net.toNat then
        modCore (holdUnit s (clusterOf site) (.barrier net)) site (fun c => { c with barArr := c.barArr &&& ~~~oneAt 16 net.toNat })
      else releaseBarrier s site net) s)

/-- BAR_MEMB_WRITE (R341): the store takes effect at once, and may complete an episode. -/
def writeBarMemb (s : State) (slot : Nat) (v : Word) : State :=
  let s := modCore s slot (fun c => csrSet c 0x8080 (v &&& 0xFFFF))
  (upFrom 0 16).foldl checkBarrier s
def execBarMembWrite (core : Nat) (v : BitVec 32) (s : State) : Host.Outcome State Fault Refusal :=
  onCore s (.core core) (fun slot s => writeBarMemb s slot v)

/-- CREDIT_RETURN (R345). -/
def execCreditReturn (i : Nat) (s : State) : Host.Outcome State Fault Refusal :=
  .next (transitArrival s i (fun m => match m with | .credit _ _ _ => true | _ => false))

/-- FLAG_SIGNAL_ARRIVAL (R337, R345). -/
def execFlagSignalArrival (i : Nat) (s : State) : Host.Outcome State Fault Refusal :=
  .next (transitArrival s i (fun m => match m with | .signal _ _ _ _ => true | .routed _ _ => true | _ => false))

/-- DEAD_LETTER_RETURN (R332). -/
def execDeadLetterReturn (i : Nat) (s : State) : Host.Outcome State Fault Refusal :=
  .next (transitArrival s i (fun m => match m with | .dead _ _ => true | _ => false))

/-- A store to POST_Qq (R346); one that clears OPEN returns the queue's descriptors (R331). -/
def writePostQ (s : State) (slot : Nat) (q : Fin 4) (v : Word) : State :=
  let o := 0x7010 + 4 * q.val
  let c := getCore s slot
  let closes := bitOf (csrGet c o) 31 && !bitOf v 31
  let s := csrPlain s slot o v
  if closes then
    let es := c.queues[q]
    let core := coreOf s slot
    let s := modCore s slot (fun c => { c with queues := c.queues.set q [] })
    es.foldl (fun s e => match e.org with
      | some org => refuse s org 0 e.desc 0x02
      | none => { s with msgs := s.msgs ++ [.dead core ⟨e.desc, 0x02, 3, bits e.desc 64 6⟩] }) s
  else s

/-- POST_QUEUE_CLOSE (R331). -/
def execPostQueueClose (core : Nat) (q : Fin 4) (v : BitVec 32) (s : State) : Host.Outcome State Fault Refusal :=
  onCore s (.core core) (fun slot s => writePostQ s slot q v)

/-- DLQ_POP (R333): the head of the dead-letter queue is removed. -/
def execDlqPop (core : Nat) (s : State) : Host.Outcome State Fault Refusal :=
  onCore s (.core core) (fun slot s => modCore s slot (fun c => { c with dlq := c.dlq.drop 1 }))

/-- A store to CHT_HIe (R318, R346): CREDIT becomes CINIT, CLOSED is cleared, and the entry has a new binding. -/
def writeChtHi (s : State) (slot e : Nat) (v : Word) : State :=
  let ci := (bits v 0 5).toNat
  let ci := if ci = 0 then 1 else min 16 ci
  let v := setBits (v &&& 0xB030001F) 0 (BitVec.ofNat 5 ci)
  modCore s slot (fun c =>
    { csrSet c (0x7104 + 8 * e) v with
      credit := tset creditDefault c.credit e (BitVec.ofNat 5 ci),
      chClosed := tset closedDefault c.chClosed e false,
      gen := tset genDefault c.gen e (tget genDefault c.gen e + 1) })

/-- CHT_HI_WRITE (R318). -/
def execChtHiWrite (core : Nat) (e : BitVec 5) (v : BitVec 32) (s : State) : Host.Outcome State Fault Refusal :=
  onCore s (.core core) (fun slot s => writeChtHi s slot e.toNat v)

/-! ### Dispatch (R327, R328) -/

/-- A dispatch is deliverable to the handler (R327), after the deliveries that R100 and R299 place before it; none of those that
are due is a dispatch while one is ACTIVE. -/
def dispatchable (s : State) (slot : Nat) : Bool :=
  let h := handlerOf (getCore s slot)
  nextDelivery s slot h == some .dispatch && deliverable s slot h

/-- A dispatch is delivered (R328). -/
def dispatch (s : State) (slot : Nat) : State :=
  let h := handlerOf (getCore s slot)
  match nextQueue (getCore s slot) with
  | none => s
  | some q =>
    let s := atBoundary s slot h
    let c := getCore s slot
    let th := c.th[h]
    match gateGet c (bits (csrGet c (0x7010 + 4 * q.val)) 8 3).toNat, c.queues[q] with
    | some (cc, dd), e :: rest =>
      if 4 ≤ th.glink.length then escalate s slot h cGATE 0 0 0 th.pc
      else
        let s := modCore s slot (fun c =>
          { c with
            queues := c.queues.set q rest, pdActive := true, pdThread := h, pdQueue := BitVec.ofNat 2 q.val,
            shadow := ⟨th.acc, th.acg, th.ix, th.iy, th.flags⟩ })
        let s := modTh s slot h (fun th =>
          { setAcc th (BitVec.ofNat 32 q.val) with
            recvd := e.desc, glink := th.glink ++ [({ th.pcc with cursor := th.pc }, th.ddc)],
            pcc := unsealCap cc, ddc := unsealCap dd, pc := cc.cursor })
        returnCredit s e.org
    | _, _ => escalate s slot h cGATE 0 0 0 th.pc

/-- POST_DISPATCH (R328). -/
def execPostDispatch (core : Nat) (s : State) : Host.Outcome State Fault Refusal :=
  onCore s (.core core) (fun slot s => if dispatchable s slot then dispatch s slot else s)

/-! ### Reductions -/

/-- A contribution's elements as words, from its bytes (R275, R344). -/
def contribution (s : State) (r : Nat) (bs : List Byte) : List Word :=
  let f := bits (mrCtl s r) 24 4
  let w := if f = 1 then 2 else 4
  (upFrom 0 (mrElems s r)).map (fun i => widenElem f (leAt bs (w * i) w))

/-- RSEND r (R344, R317, R608). -/
def rsendBody (t : Fin 4) (r : BitVec 6) (slot : Nat) (s : State) : Res State :=
  let c := getCore s slot
  let th := c.th[t]
  let n := mrBytes s r.toNat
  let ix := th.ix.toNat
  let core := coreOf s slot
  Res.check (needPcc th pPOST)
    (if t = handlerOf c then .fault (plainFault cHANDLER_BLOCKING_POST)
     else Res.check (capCheck th.ddc ix n (if needsCsr slot ix then pLOAD ||| pCSR else pLOAD))
      (if ix % 64 ≠ 0 then .fault (addrFault cALIGN ix)
       else if 0x80000 < ix + n then .fault (addrFault cILLEGAL ix)
       else if tileHolds s slot ix n false then .stall
       else if mrClass s r.toNat ≠ 1 ∨ !mrHasMembers s r.toNat ∨ !mrMember s r.toNat core then
         let s := settleLocal s slot ix n
         let letter : DeadLetter :=
           ⟨words4 (zext r) (BitVec.ofNat 32 n) 0 (word3Of s core t 0), 0x06, 2, r⟩
         .ok (advance { s with msgs := s.msgs ++ [.dead core letter] } slot t id)
       else
         let round := (tget roundDefault s.rounds r.toNat).getD ⟨[], false⟩
         if round.parts.any (fun p => p.1 == core) then .stall
         else
           let s := settleLocal s slot ix n
           let m := (getCore s slot).mem
           let round : Round :=
             { parts := round.parts ++ [(core, contribution s r.toNat (memBytes m ix n))],
               poison := round.poison || memPoisoned 4 m ix n }
           .ok (advance { s with rounds := tset roundDefault s.rounds r.toNat (some round) } slot t id)))
def execRsend (core : Nat) (t : Fin 4) (r : BitVec 6) (s : State) : Host.Outcome State Fault Refusal :=
  issue s (.core core) t (rsendBody t r)

/-- The round holds a contribution of every member (R274). -/
def roundFull (s : State) (r : Nat) (round : Round) : Bool :=
  (upFrom (mrLo s r) (mrHi s r + 1 - mrLo s r)).all (fun n => round.parts.any (fun p => p.1 == n))

/-- The result of a closed round with the events of each element (R275). A NaN that is the only contribution is delivered
as it is and counts as none produced (DESIGN CHOICE, log 157). -/
def roundResult (s : State) (r : Nat) (round : Round) : List (Word × Ev) :=
  let vs := (upFrom (mrLo s r) (mrHi s r + 1 - mrLo s r)).filterMap (fun n =>
    (round.parts.find? (fun p => p.1 == n)).map (fun p => p.2.map (fun w => (w, Ev.none))))
  reduceTree (bits (mrCtl s r) 24 4 == 12) (bitOf (mrCtl s r) 29) 10 vs

/-- MR_STAT counts the elements of a round (R275, R279). -/
def mrCount (s : State) (r : Nat) (evs : List Ev) : State :=
  let t := tallyOf 0 evs
  let o := 0x7800C + 16 * r
  devCount (devCount (devCount s o 0 10 t.sat) o 10 10 t.flush) o 20 10 t.nan

/-- Folding in a reduction tree (R442): the own value of the open round, then each child's in order; none while a part is
missing. -/
def treeFold (s : State) (f : Nat) : Option (List Word × Bool × List Ev) :=
  let t := getTree s f
  let r := (bits (ftCtl s f) 16 6).toNat
  match t.own with
  | [] => none
  | (own, p) :: _ =>
    (ftChildren s f).foldl (fun acc c => match acc with
      | none => none
      | some (v, p, evs) =>
        let got := t.parts.filter (fun x => x.child == c && x.parity == t.round)
        let n := (4 * mrElems s r + 63) / 64
        if !(upFrom 0 n).all (fun i => got.any (fun x => x.index == i)) then none
        else
          let ws := ((upFrom 0 n).flatMap (fun i => ((got.find? (fun x => x.index == i)).map (·.words)).getD [])).take v.length
          let sum := reduceAddAll (bits (mrCtl s r) 24 4 == 12) (bitOf (mrCtl s r) 29)
            (v.map (·, Ev.none)) (ws.map (·, Ev.none))
          some (sum.map (·.1), p || got.any (·.pzn), evs ++ sum.map (·.2))) (some (own, p, []))

/-- The units that carry a value: 64 bytes each (R443). -/
def valueUnits (ws : List Word) : List (Nat × BitVec 512) :=
  let n := (ws.length + 15) / 16
  (upFrom 0 n).map (fun i =>
    (i, BitVec.ofNat 512 (leNat (((ws.drop (16 * i)).take 16).flatMap (fun w => leBytes 4 w.toNat)))))

/-- The final result is written at this device and sent to every child (R442 steps 4 and 5), and the round is over. -/
def treeResult (s : State) (f : Nat) (ws : List Word) (poison : Bool) : State :=
  let parity := (getTree s f).round
  let s := (ftChildren s f).foldl (fun s c =>
    (valueUnits ws).foldl (fun s u => sendUnit s (treeUnit opREDUCE c f parity true u.1 poison u.2) none) s) s
  let s := ftRound (modTree s f (fun t =>
    { t with
      own := t.own.drop 1, parts := t.parts.filter (fun x => x.parity != t.round), sentUp := false, down := []
      round := !t.round })) f
  let stat := 0x7202C + 0x40 * f
  let dest := devGet s (0x72028 + 0x40 * f)
  let core := (bits dest 22 10).toNat
  match siteOf s core with
  | none => devOr s stat 0x10000000
  | some slot =>
    if !coreServes s slot then devOr s stat 0x10000000
    else
      let s := if poison then devOr s stat 0x80000000 else s
      let s := wakeCause s (clusterOf slot)
      placeResult s slot core ((bits dest 0 13).toNat * 64) (Fin.ofNat 4 (bits dest 20 2).toNat) (64 + f)
        (BitVec.ofNat 6 f) ws poison

/-- The tree moves on once every input of the open round is here (R442): the root ends the round, any other device sends its
value up and waits for the result. At most `n` rounds end. -/
def treeRounds (f : Nat) : Nat → State → State
  | 0, s => s
  | n + 1, s =>
    if (getTree s f).sentUp then s
    else match treeFold s f with
      | none => s
      | some (ws, p, evs) =>
        let s := mrCount s (bits (ftCtl s f) 16 6).toNat evs
        if bitOf (ftCtl s f) 30 then treeRounds f n (treeResult s f ws p)
        else
          let parity := (getTree s f).round
          let s := (valueUnits ws).foldl (fun s u =>
            sendUnit s (treeUnit opREDUCE (ftParent s f) f parity false u.1 p u.2) none) s
          modTree s f (fun t => { t with sentUp := true })

/-- Whatever rounds have their inputs move on. -/
def treeReduce (s : State) (f : Nat) : State := treeRounds f (getTree s f).own.length s

/-- The result of a closed round is released (R276, R442): it is the own input of the trees bound to the route, and goes to
the root, or is discarded where the root cannot take it. -/
def releaseRound (s : State) (r : Nat) (round : Round) : State :=
  let res := roundResult s r round
  let ws := res.map (·.1)
  let s := { s with rounds := tset roundDefault s.rounds r none }
  let s := mrCount s r (res.map (·.2))
  let s := (treesOf s r).foldl (fun s f =>
    treeReduce (modTree s f (fun t => { t with own := t.own ++ [(ws, round.poison)] })) f) s
  match siteOf s (mrRoot s r) with
  | none => mrStatOr s r 0x40000000
  | some slot =>
    if !coreServes s slot then mrStatOr s r 0x40000000
    else
      let s := if round.poison then mrStatOr s r 0x80000000 else s
      let dest := mrDest s r
      placeResult s slot (mrRoot s r) ((bits dest 6 13).toNat * 64) (Fin.ofNat 4 (bits dest 28 2).toNat) r
        (BitVec.ofNat 6 r) ws round.poison

/-- REDUCTION_RELEASE (R276). A sleeping root that can take the result takes it when it runs (R532). -/
def execReductionRelease (r : BitVec 6) (s : State) : Host.Outcome State Fault Refusal :=
  match tget roundDefault s.rounds r.toNat with
  | none => .next s
  | some round =>
    if mrClass s r.toNat ≠ 1 ∨ !mrHasMembers s r.toNat ∨ !roundFull s r.toNat round then .next s
    else match siteOf s (mrRoot s r.toNat) with
      | some slot =>
        if asleep s (clusterOf slot) ∧ coreServes s slot then .next (holdUnit s (clusterOf slot) (.reduction r))
        else .next (releaseRound s r.toNat round)
      | none => .next (releaseRound s r.toNat round)

/-- A write of word `reg` of mesh route `r` (R273, R279). -/
def writeMroute (s : State) (r reg : Nat) (v : Word) : State :=
  let o := 0x78000 + 16 * r + 4 * reg
  let s := if reg < 3 then discardRound s r else s
  devPlain s o v

/-- MROUTE_WRITE (R273). -/
def execMrouteWrite (r : BitVec 6) (reg : BitVec 2) (v : BitVec 32) (s : State) : Host.Outcome State Fault Refusal :=
  if dark s then .next s else .next (writeMroute s r.toNat reg.toNat v)

end Sys2Proof.Machine
end

