-- ==== Sys2Proof/Machine/Streams.lean ====
section
/-! DEFINITION. The stream units (R280 to R301): the sequencer, the ring and its halves, layers, and faults. -/
namespace Sys2Proof.Machine

def getSu (s : State) (slot : Nat) (u : Fin 4) : StreamUnit := (getCore s slot).su[u]

def modSu (s : State) (slot : Nat) (u : Fin 4) (f : StreamUnit → StreamUnit) : State :=
  modCore s slot (fun c => { c with su := c.su.set u (f c.su[u]) })

def sctl (c : Core) (u : Fin 4) : Word := csrGet c (0x6400 + 0x20 * u.val)

/-- SCTLu.DIR: OUT (R301). -/
def isOut (c : Core) (u : Fin 4) : Bool := bitOf (sctl c u) 31

/-- A word of the unit's program. -/
def sprog (c : Core) (u : Fin 4) (i : Nat) : Word := csrGet c (0x6000 + 0x100 * u.val + 4 * i)

/-- The INFO word of a STREAM_PROGRAM frame (R300). -/
def streamInfo (u : Fin 4) (reason spc : Nat) : Word :=
  BitVec.ofNat 32 (u.val * 2 ^ 24 + reason * 2 ^ 16 + spc % 64)

/-- The units in one ring half. -/
def halfUnits (su : StreamUnit) : Nat := su.ringLen / 128

/-- The half that a ring position lies in. -/
def halfOf (su : StreamUnit) (pos : Nat) : Bool := decide (halfUnits su ≤ pos % (2 * halfUnits su))

def heldHalf (su : StreamUnit) (h : Bool) : Bool := bitOf su.held h.toNat

def setHeld (su : StreamUnit) (h b : Bool) : StreamUnit :=
  { su with held := if b then su.held ||| oneAt 2 h.toNat else su.held &&& ~~~oneAt 2 h.toNat }

/-- The units of half `h` that O_u counts. -/
def countOf (su : StreamUnit) (h : Bool) : Nat := if h then su.count1 else su.count0

def setCount (su : StreamUnit) (h : Bool) (n : Nat) : StreamUnit :=
  if h then { su with count1 := n } else { su with count0 := n }

/-! ### The sequencer (R282, R283) -/

/-- Where the sequencer stands: at a move, at a layer boundary, at the end, or in a fault. -/
inductive SeqEnd where
  | move
  | mark
  | finish
  | fault (reason : Nat)
deriving DecidableEq, Repr

def strideDefault (_ : Nat) : BitVec 22 := 0

/-- One control instruction at `pc` (R282, R283); none where the word is a move or a boundary, or faults. -/
def seqStep (c : Core) (write : Bool) (ins : Word) (su : StreamUnit) : Except SeqEnd StreamUnit :=
  let next (x : StreamUnit) : Except SeqEnd StreamUnit := .ok { x with pc := su.pc + 1 }
  let l := (bits ins 25 3).toNat
  match (bits ins 28 4).toNat with
  | 0 => if bits ins 0 28 = 0 then .error .finish else .error (.fault 1)
  | 1 =>
    if bits ins 6 22 ≠ 0 then .error (.fault 1)
    else match resolveFor c (bits ins 0 6).toNat write 0 0 with
      | .ok d => next { su with far := some d }
      | .error _ => .error (.fault 4)
  | 2 => if bits ins 26 2 ≠ 0 then .error (.fault 1) else next { su with a := (bits ins 0 26).toNat }
  | 3 =>
    if bits ins 22 3 ≠ 0 then .error (.fault 1)
    else next { su with strides := tset strideDefault su.strides l (bits ins 0 22) }
  | 4 =>
    if bits ins 28 0 ≠ 0 ∨ bits ins 16 9 ≠ 0 then .error (.fault 1)
    else if su.loops.any (fun x => x.level == l) then .error (.fault 2)
    else next { su with loops := ⟨l, 0, (bits ins 0 16).toNat + 1, su.pc + 1⟩ :: su.loops }
  | 5 =>
    if bits ins 0 25 ≠ 0 then .error (.fault 1)
    else match su.loops with
      | [] => .error (.fault 2)
      | x :: rest =>
        if x.level ≠ l then .error (.fault 2)
        else if x.idx + 1 < x.cnt then .ok { su with loops := { x with idx := x.idx + 1 } :: rest, pc := x.top }
        else next { su with loops := rest }
  | 6 => if bits ins 8 20 ≠ 0 then .error (.fault 1) else if su.far.isNone then .error (.fault 4) else .error .move
  | 7 => if bits ins 8 20 ≠ 0 then .error (.fault 1) else .error .move
  | 8 => if bits ins 26 2 ≠ 0 then .error (.fault 1) else next { su with win := (bits ins 0 26).toNat }
  | 9 => if bits ins 0 28 = 0 then .error .mark else .error (.fault 1)
  | _ => .error (.fault 1)

/-- Control instructions take no cycle: the sequencer goes on to the next move, boundary or fault. `fuel` exceeds the
steps of any program of 64 words with eight loop levels of 65,536 iterations. -/
def seqRun (c : Core) (u : Fin 4) (write : Bool) : Nat → StreamUnit → StreamUnit × SeqEnd
  | 0, su => (su, .fault 1)
  | fuel + 1, su =>
    if 64 ≤ su.pc then (su, .fault 3)
    else match seqStep c write (sprog c u su.pc) su with
      | .ok su' => seqRun c u write fuel su'
      | .error e => (su, e)

def seqFuel : Nat := 2 ^ 136

/-- The sequencer of unit `u`. -/
def seqTo (c : Core) (u : Fin 4) (su : StreamUnit) : StreamUnit × SeqEnd := seqRun c u (isOut c u) seqFuel su

/-- The far unit that the next move names (R283): its index may be negative. -/
def moveIndex (su : StreamUnit) : Int :=
  let x : Int := su.loops.foldl (fun acc l => acc + (l.idx : Int) * (tget strideDefault su.strides l.level).toInt) su.done
  su.a + (if su.win = 0 then x else x % su.win)

/-- The move at `pc` is a SKIP. -/
def isSkip (c : Core) (u : Fin 4) (su : StreamUnit) : Bool := bits (sprog c u su.pc) 28 4 == 7

/-- One move of the XFER or SKIP at `pc` is made. -/
def stepMove (c : Core) (u : Fin 4) (su : StreamUnit) : StreamUnit :=
  let n := (bits (sprog c u su.pc) 0 8).toNat + 1
  if su.done + 1 < n then { su with done := su.done + 1 } else { su with done := 0, pc := su.pc + 1 }

/-- The byte offset of the next move, or REASON 0x05 with it where the unit does not lie within the handle (R284). -/
def moveOffset (su : StreamUnit) (d : BitVec 128) : Except Word Nat :=
  let i := moveIndex su
  if i < 0 then .error (BitVec.ofInt 32 (64 * i))
  else if hLen d < 64 * i.toNat + 64 then .error (BitVec.ofNat 32 (64 * i.toNat))
  else .ok (64 * i.toNat)

/-! ### Stops and faults -/

/-- Halves that will be read no further hold back no post (R343). -/
def clearHalves (s : State) (slot : Nat) (u : Fin 4) (l : List (Nat × Nat)) : State :=
  l.foldl (fun s p => clearBehind s (halfKey slot u p.1)) s

/-- The unit leaves its program: what it has asked for is discarded on arrival, and OUT writes already issued complete (R299,
R301). -/
def dropWork (su : StreamUnit) : StreamUnit := { su with asked := [], met := none, rows := [], left := [] }

/-- A runtime fault at program word `spc`: the unit stops, and the fault waits for delivery (R299). -/
def streamFault (s : State) (slot : Nat) (u : Fin 4) (su : StreamUnit) (reason spc : Nat) (faddr : Word) : State :=
  clearHalves (modSu s slot u (fun _ =>
    { dropWork su with st := .fault, fault := su.fault ++ [(faddr, streamInfo u reason spc)] })) slot u su.left

/-- The half's flag is signalled on the unit's own core (R286, R287). -/
def halfSignal (s : State) (slot : Nat) (u : Fin 4) : State :=
  signalAt s slot (bits (sctl (getCore s slot) u) 16 6)

/-- An IN half becomes ready (R286): the program owns it, and its flag is signalled. -/
def readyHalf (s : State) (slot : Nat) (u : Fin 4) (h : Bool) : State :=
  let s := modSu s slot u (fun su =>
    { setHeld su h true with
      last := su.filled, filled := 0, pos := if h then 0 else halfUnits su })
  halfSignal s slot u

/-- What the sequencer has met takes effect for an IN unit once every move before it is written (R282, R286, R291). -/
def closeIn (s : State) (slot : Nat) (u : Fin 4) : State :=
  let su := getSu s slot u
  if !su.asked.isEmpty || !su.rows.isEmpty then s
  else match su.met with
    | none => s
    | some (.fault reason spc faddr) => streamFault s slot u su reason spc faddr
    | some e =>
      let s := if su.filled ≠ 0 then readyHalf s slot u (halfOf su su.pos) else s
      modSu s slot u (fun su => { su with met := none, st := if e = .finish then .idle else .layer })

/-- A handed-over OUT half returns to the program once it is read and its writes are acknowledged (R287). -/
def returnHalf (s : State) (slot : Nat) (u : Fin 4) (h : Bool) : State :=
  let su := getSu s slot u
  let reading := !su.left.isEmpty && (halfOf su su.pos == h || su.left.length == 2)
  if heldHalf su h || reading || su.writes.any (fun w => w.half == h) then s
  else halfSignal (modSu s slot u (fun su => setCount (setHeld su h true) h 0)) slot u

/-- An OUT layer or stop that waited for acknowledgements ends. -/
def settleOut (s : State) (slot : Nat) (u : Fin 4) : State :=
  let su := getSu s slot u
  if !su.writes.isEmpty then s
  else if su.stopping then modSu s slot u (fun su => { su with stopping := false, st := .idle })
  else if su.st = .layer ∧ su.ending then modSu s slot u (fun su => { su with st := .idle })
  else s

/-- The ring position of the next hand-over once the halves handed over are gone (R287): of two the second is followed by the
first. -/
def closedPos (su : StreamUnit) : Nat :=
  match su.left.length with
  | 0 => su.pos
  | 1 => if halfOf su su.pos then 0 else halfUnits su
  | _ => if halfOf su su.pos then halfUnits su else 0

/-- A boundary reached by an OUT unit (R287): units not read are discarded, and their halves return. -/
def closeOut (s : State) (slot : Nat) (u : Fin 4) (ending : Bool) : State :=
  let su := getSu s slot u
  let s := modSu s slot u (fun su => { su with left := [], pos := closedPos su, st := .layer, ending := ending })
  let s := clearHalves s slot u su.left
  settleOut (returnHalf (returnHalf s slot u (halfOf su su.pos)) slot u (!halfOf su su.pos)) slot u

/-- A request of the unit to a memory has no answer. -/
def unanswered (su : StreamUnit) : Bool :=
  su.asked.any (fun m => match m.what with
    | .blank => false
    | .here _ _ => true
    | .far _ got => got.isNone)

/-- The state that an IN unit between rows is in: waiting for the program's half, or for data. -/
def inWait (su : StreamUnit) : SState :=
  if !su.rows.isEmpty then .run
  else if heldHalf su (halfOf su su.pos) then .waitRing
  else if unanswered su then .waitData
  else .run

def outWait (su : StreamUnit) : SState :=
  if !su.left.isEmpty then .run else if su.writes.isEmpty then .waitRing else .waitData

/-- The sequencer of an OUT unit runs on to its next move; a boundary or a fault that it meets takes effect (R283, R291). -/
def seqOut (s : State) (slot : Nat) (u : Fin 4) : State :=
  let c := getCore s slot
  let (su, e) := seqTo c u c.su[u]
  match e with
  | .move => modSu s slot u (fun _ => { su with st := outWait su })
  | .fault r => streamFault s slot u su r su.pc 0
  | .mark => closeOut (modSu s slot u (fun _ => { su with pc := su.pc + 1 })) slot u false
  | .finish => closeOut (modSu s slot u (fun _ => su)) slot u true

/-! ### The requests of an IN unit (R284 to R286, R291, R293) -/

/-- The ring units that the unit may fill before the program releases more (R286): the rest of the half it fills, and the
other half where the program does not own it. -/
def ringRoom (su : StreamUnit) : Nat :=
  let h := halfOf su su.pos
  if heldHalf su h then 0
  else halfUnits su - su.filled + (if heldHalf su (!h) then 0 else halfUnits su)

/-- The units on their way into the ring: arrived and asked for. -/
def onTheWay (su : StreamUnit) : Nat := (su.rows.map List.length).sum + su.asked.length

/-- Units of memory asked for and not arrived, of which a unit keeps at most 64 (R293). -/
def outstanding (su : StreamUnit) : Nat := (su.asked.filter (fun m => m.what != .blank)).length

/-- The move of `su` is asked for. -/
def askFor (c : Core) (u : Fin 4) (su : StreamUnit) (off : Nat) (w : SWhat) : StreamUnit :=
  { stepMove c u su with asked := su.asked ++ [⟨su.pc, off, w⟩] }

/-- An IN unit asks for its next units while the ring has room, and the sequencer runs on to the next move, or to a boundary, an
end or a fault, which need no room (R283). `n` bounds the moves. -/
def askMore (slot core : Nat) (u : Fin 4) : Nat → State → State
  | 0, s => s
  | n + 1, s =>
    let c := getCore s slot
    if c.su[u].met.isSome then s
    else
      let (su, e) := seqTo c u c.su[u]
      let put (s : State) (su : StreamUnit) : State := modSu s slot u (fun _ => su)
      match e with
      | .fault r => put s { su with met := some (.fault r su.pc 0) }
      | .mark => put s { su with met := some .mark, pc := su.pc + 1 }
      | .finish => put s { su with met := some .finish }
      | .move =>
        if ringRoom su ≤ onTheWay su then put s su
        else if isSkip c u su then askMore slot core u n (put s (askFor c u su 0 .blank))
        else if 64 ≤ outstanding su then put s su
        else match su.far with
          | none => put s { su with met := some (.fault 4 su.pc 0) }
          | some d =>
            match moveOffset su d with
            | .error a => put s { su with met := some (.fault 5 su.pc a) }
            | .ok off =>
              let loc := farOf s core d off
              if isHere s loc then askMore slot core u n (put s (askFor c u su off (.here loc.space loc.off)))
              else
                let (id, s) := newOp s
                askMore slot core u n
                  (sendRead (put s (askFor c u su off (.far id none))) loc.dev loc.space loc.off (.streamRead slot u.val id))

/-- An IN unit goes on: it asks for what the ring has room for, and what the sequencer has met may take effect. -/
def goOn (s : State) (slot core : Nat) (u : Fin 4) : State :=
  let s := closeIn (askMore slot core u (ringRoom (getSu s slot u) + 1) s) slot u
  match (getSu s slot u).st with
  | .run => modSu s slot u (fun su => { su with st := inWait su })
  | .waitRing => modSu s slot u (fun su => { su with st := inWait su })
  | .waitData => modSu s slot u (fun su => { su with st := inWait su })
  | _ => s

/-! ### START, STOP, SREL and the program memory (R281, R288, R298, R301) -/

/-- The ring handle satisfies R281. -/
def ringOk (d : BitVec 128) : Bool :=
  hValid d && hSpace d == 8 && hRd d && hWr d && hBase d % 256 == 0 && hLen d % 512 == 0

/-- START (R298): the new state, or the INFO word of the fault. -/
def streamStart (s : State) (slot : Nat) (u : Fin 4) (entry : Nat) : Except Word State :=
  let c := getCore s slot
  let su := c.su[u]
  let d := handleGet c (bits (sctl c u) 8 6).toNat
  if su.st ≠ .idle ∧ su.st ≠ .fault then .error (streamInfo u 8 su.pc)
  else if !ringOk d then .error (streamInfo u 6 su.pc)
  else .ok (modSu s slot u (fun su =>
    { StreamUnit.reset with
      st := .run, ringBase := hBase d, ringLen := hLen d, pc := entry, held := if isOut c u then 3 else 0,
      last := su.last, err := su.err, fault := su.fault }))

/-- STOP (R301). -/
def streamStop (s : State) (slot : Nat) (u : Fin 4) : State :=
  clearHalves (modSu s slot u (fun su =>
    if su.writes.isEmpty then { dropWork su with st := .idle, stopping := false }
    else { dropWork su with st := .waitData, stopping := true })) slot u (getSu s slot u).left

/-- SSTATu.ERR is set (R288, R301). -/
def setErr (s : State) (slot : Nat) (u : Fin 4) : State :=
  noteSet (modSu s slot u (fun su => { su with err := true })) (corePlace slot (0x640C + 0x20 * u.val)) 0x10000000

/-- SRELu (R287, R288). Where half 1 of an OUT unit has returned before half 0, the store is for half 0 and sets ERR (DESIGN
CHOICE, log 146). -/
def streamRelease (s : State) (slot : Nat) (u : Fin 4) (count : Nat) : State :=
  let c := getCore s slot
  let su := c.su[u]
  let out := isOut c u
  let refuse := setErr s slot u
  if !heldHalf su su.nextHalf then refuse
  else if out ∧ halfUnits su < count then refuse
  else
    let n := if count = 0 then halfUnits su else count
    let s := modSu s slot u (fun su =>
      { setCount (setHeld su su.nextHalf false) su.nextHalf (if out then n else 0) with nextHalf := !su.nextHalf })
    if out then
      let (id, s) := newOp s
      modSu s slot u (fun su =>
        { su with left := su.left ++ [(id, n)], st := if su.st = .waitRing ∨ su.st = .waitData then .run else su.st })
    else s

/-- A store to the program memory (R301). -/
def streamProgWrite (s : State) (slot : Nat) (u : Fin 4) (i : Nat) (v : Word) : State :=
  let su := getSu s slot u
  if su.st = .idle ∨ su.st = .fault then modCore s slot (fun c => csrSet c (0x6000 + 0x100 * u.val + 4 * i) v)
  else setErr s slot u

/-- O_u in bytes (R292). -/
def occupancy (c : Core) (u : Fin 4) : Nat :=
  let su := c.su[u]
  if isOut c u then su.ringLen - 64 * (su.count0 + su.count1) else 64 * (su.count0 + su.count1)

/-- D_u (R292). -/
def deadline (c : Core) (u : Fin 4) : Nat :=
  let rate := (bits (sctl c u) 0 8).toNat
  if rate = 0 then 0xFFFF else min 0xFFFF (occupancy c u / rate)

/-! ### Moving rows -/

/-- The units from a ring position to the end of its wide row, at most `n` (R292). -/
def rowRoom (pos : Nat) : Nat := 4 - pos % 4

/-- What the first moves of an IN unit have brought: a row, the first error with its program word and far byte offset, or some
are still on their way. -/
inductive Gather where
  | row (s : State) (units : List Unit64)
  | failed (s : State) (spc off : Nat)
  | starved

/-- The data of the moves, in order; a unit of this device is read as it arrives (R284, R290, R299). -/
def gatherRow : State → List SMove → List Unit64 → Gather
  | s, [], acc => .row s acc.reverse
  | s, m :: ms, acc =>
    match m.what with
    | .blank => gatherRow s ms (goodUnit [] :: acc)
    | .here space off =>
      match readUnit s space off with
      | (s, none) => .failed s m.spc m.off
      | (s, some x) => gatherRow s ms (x :: acc)
    | .far _ none => .starved
    | .far _ (some none) => .failed s m.spc m.off
    | .far _ (some (some x)) => gatherRow s ms (x :: acc)

/-- The ring position at which the next arriving unit will stand. -/
def gatherPos (su : StreamUnit) : Nat := su.pos + (su.rows.map List.length).sum

/-- A row arrives at an IN unit (R293, R296): the asked units up to the end of its wide row, or up to what the sequencer has
met. It waits for a grant, and the unit asks for more. -/
def rowArrival (s : State) (slot core : Nat) (u : Fin 4) : State :=
  let su := getSu s slot u
  let n := rowRoom (gatherPos su)
  if isOut (getCore s slot) u ∨ (su.st ≠ .run ∧ su.st ≠ .waitData) ∨ su.asked = [] ∨ (su.asked.length < n ∧ su.met = none) then s
  else
    match gatherRow s (su.asked.take n) [] with
    | .starved => s
    | .failed s spc off => streamFault s slot u (getSu s slot u) 9 spc (BitVec.ofNat 32 off)
    | .row s units =>
      let s := wakeCause s (clusterOf slot)
      goOn (modSu s slot u (fun su => { su with rows := su.rows ++ [units], asked := su.asked.drop n })) slot core u

/-- The answer of another device to the unit's request `id`; a request that the unit has dropped is forgotten (R299, R301). -/
def streamAnswer (s : State) (slot : Nat) (u : Fin 4) (id : Nat) (x : Option Unit64) : State :=
  modSu s slot u (fun su =>
    { su with asked := su.asked.map (fun m => match m.what with
        | .far i _ => if i = id then { m with what := .far i (some x) } else m
        | _ => m) })

/-- The units of a row are written into the ring from position `pos` (R289, R290). -/
def writeRing (s : State) (slot : Nat) (su : StreamUnit) : Nat → List Unit64 → State
  | _, [] => s
  | pos, x :: xs =>
    writeRing (modCore s slot (fun c => { c with mem := writeUnitMem 4 c.mem (su.ringBase + 64 * pos) x })) slot su (pos + 1) xs

/-- The oldest arrived row of an IN unit is written (R289). -/
def grantIn (s : State) (slot : Nat) (u : Fin 4) : State :=
  let su := getSu s slot u
  match su.rows with
  | [] => s
  | row :: rest =>
    let h := halfOf su su.pos
    let s := writeRing s slot su su.pos row
    let s := modSu s slot u (fun su =>
      { setCount su h (countOf su h + row.length) with
        rows := rest, pos := su.pos + row.length, filled := su.filled + row.length })
    let s := if (getSu s slot u).filled = halfUnits su then readyHalf s slot u h else s
    closeIn (modSu s slot u (fun su => { su with st := inWait su })) slot u

/-- The unit at the ring position has been read: the hand-over number of its half where that half is wholly read now. -/
def readOne (su : StreamUnit) : StreamUnit × Option Nat :=
  match su.left with
  | [] => (su, none)
  | (id, n) :: rest =>
    if n ≤ 1 then ({ su with left := rest, pos := if halfOf su su.pos then 0 else halfUnits su }, some id)
    else ({ su with left := (id, n - 1) :: rest, pos := su.pos + 1 }, none)

/-- One unit of a handed-over OUT row is moved to the far side (R284, R287); units of a half wholly read no longer hold back
posts (R343). A unit that SKIP
discards counts as acknowledged at once (DESIGN CHOICE, log 163). The flag says that the row may go on. -/
def outUnit (s : State) (slot core : Nat) (u : Fin 4) : State × Bool :=
  let c := getCore s slot
  match seqTo c u c.su[u] with
  | (su, .fault r) => (streamFault s slot u su r su.pc 0, false)
  | (su, .move) =>
    let h := halfOf su su.pos
    let a := su.ringBase + 64 * su.pos
    let s := settleLocal s slot a 64
    let x := unitOf 4 (getCore s slot).mem a
    let (moved, out) := readOne (stepMove c u su)
    let leave (s : State) : State × Bool :=
      match out with
      | some id => (clearBehind s (halfKey slot u id), false)
      | none => (s, true)
    if isSkip c u su then
      let s := modSu s slot u (fun _ => setCount moved h (countOf moved h - 1))
      leave (if out.isSome then returnHalf s slot u h else s)
    else match su.far with
      | none => (streamFault s slot u su 4 su.pc 0, false)
      | some d =>
        match moveOffset su d with
        | .error a => (streamFault s slot u su 5 su.pc a, false)
        | .ok off =>
          let loc := farOf s core d off
          let (id, s) := newOp s
          if isHere s loc then
            let (s, ok) := writeUnit s loc.space loc.off x
            leave (modSu s slot u (fun _ => { moved with writes := moved.writes ++ [⟨id, h, su.pc, off, some (!ok)⟩] }))
          else
            let s := modSu s slot u (fun _ => { moved with writes := moved.writes ++ [⟨id, h, su.pc, off, none⟩] })
            leave (sendWrite s 7 loc.dev loc.space loc.off x (.streamWrite slot u.val id))
  | (_, _) => (seqOut s slot u, false)

/-- The units of an OUT row, up to the end of the row or of the half. -/
def outRow (slot core : Nat) (u : Fin 4) : Nat → State → State
  | 0, s => s
  | n + 1, s => match outUnit s slot core u with
    | (s, true) => outRow slot core u n s
    | (s, false) => s

/-- A row of an OUT unit is read and sent (R287), and the sequencer runs on. -/
def grantOut (s : State) (slot core : Nat) (u : Fin 4) : State :=
  let s := outRow slot core u (rowRoom (getSu s slot u).pos) s
  match (getSu s slot u).st with
  | .run => seqOut s slot u
  | .waitData => seqOut s slot u
  | _ => s

/-- A unit is eligible for the S port (R292). -/
def eligible (c : Core) (u : Fin 4) : Bool :=
  let su := c.su[u]
  if isOut c u then (su.st == .run || su.st == .waitData) && !su.left.isEmpty && !su.stopping && decide (su.writes.length + 4 ≤ 64)
  else !su.rows.isEmpty

/-- The unit that the arbitration chooses: the smallest D_u, then the lower number (R292). -/
def granted (c : Core) : Option (Fin 4) :=
  ([0, 1, 2, 3] : List (Fin 4)).foldl (fun best u =>
    if !eligible c u then best
    else match best with
      | none => some u
      | some b => if deadline c u < deadline c b then some u else some b) none

/-- The OUT write `id` is acknowledged; `bad` says that its memory answered with an error (R287, R299). -/
def ackWrite (s : State) (slot : Nat) (u : Fin 4) (id : Nat) (bad : Bool) : State :=
  let su := getSu s slot u
  match su.writes.find? (fun w => w.id == id) with
  | none => s
  | some w =>
    let s := modSu s slot u (fun su => setCount { su with writes := su.writes.erase w } w.half (countOf su w.half - 1))
    if bad ∧ su.st ≠ .fault ∧ !su.stopping then
      streamFault s slot u (getSu s slot u) 9 w.spc (BitVec.ofNat 32 w.off)
    else
      let s := if su.stopping ∨ su.st = .fault then s else returnHalf s slot u w.half
      let s := settleOut s slot u
      if (getSu s slot u).st = .waitData ∧ !(getSu s slot u).stopping then
        modSu s slot u (fun su => { su with st := outWait su })
      else s

/-! ### The commands -/

/-- A running core that exists, by its logical number. -/
def withCore (s : State) (core : Nat) (f : Nat → State → State) : Host.Outcome State Fault Refusal :=
  onCore s (.core core) f

/-- STREAM_STOP: the store of ACTION STOP to SCMDu (R301). -/
def execStreamStop (core : Nat) (u : Fin 4) (s : State) : Host.Outcome State Fault Refusal :=
  withCore s core (fun slot s => streamStop s slot u)

/-- SPROG_WRITE (R301). -/
def execSprogWrite (core : Nat) (u : Fin 4) (i : BitVec 6) (v : BitVec 32) (s : State) : Host.Outcome State Fault Refusal :=
  withCore s core (fun slot s => streamProgWrite s slot u i.toNat v)

/-- STREAM_RUN_START (R291, R295): a started unit, a unit whose layer has ended or a unit whose half has been released
begins a run of requests. -/
def runStart (s : State) (slot core : Nat) (u : Fin 4) : State :=
  let su := getSu s slot u
  let out := isOut (getCore s slot) u
  match su.st with
  | .idle => s
  | .fault => s
  | .layer =>
    if out then (if su.writes.isEmpty ∧ su.ending = false then seqOut s slot u else s)
    else if su.held = 0 then goOn (modSu s slot u (fun su => { su with st := .run })) slot core u
    else s
  | _ => if su.stopping then s else if out then seqOut s slot u else goOn s slot core u
def execStreamRunStart (core : Nat) (u : Fin 4) (s : State) : Host.Outcome State Fault Refusal :=
  withCore s core (fun slot s => runStart s slot core u)

/-- Rows arrive one after another. -/
def rowArrivals (slot core : Nat) (u : Fin 4) : Nat → State → State
  | 0, s => s
  | k + 1, s => rowArrivals slot core u k (rowArrival s slot core u)

/-- STREAM_ROW_ARRIVAL (R293): `rows` rows of the unit arrive, in their order. -/
def execStreamRowArrival (core : Nat) (u : Fin 4) (rows : Nat) (s : State) : Host.Outcome State Fault Refusal :=
  withCore s core (fun slot s => rowArrivals slot core u rows s)

/-- STREAM_CYCLE_GRANT (R292): one row of the unit with the earliest deadline. -/
def execStreamCycleGrant (core : Nat) (s : State) : Host.Outcome State Fault Refusal :=
  withCore s core (fun slot s =>
    if !clocked s slot then s
    else match granted (getCore s slot) with
      | none => s
      | some u => if isOut (getCore s slot) u then grantOut s slot core u else grantIn s slot u)

/-- STREAM_WRITE_ACK (R287): the oldest write made on this device is acknowledged. -/
def execStreamWriteAck (core : Nat) (u : Fin 4) (s : State) : Host.Outcome State Fault Refusal :=
  withCore s core (fun slot s =>
    match (getSu s slot u).writes.find? (fun w => w.err.isSome) with
    | some w => ackWrite s slot u w.id (w.err == some true)
    | none => s)

/-- STREAM_IDLE_TIMEOUT (R297): SIDLE.LIMIT is not zero, the cluster's clock runs, and the unit has a request outstanding. -/
def execStreamIdleTimeout (core : Nat) (u : Fin 4) (s : State) : Host.Outcome State Fault Refusal :=
  withCore s core (fun slot s =>
    let su := getSu s slot u
    if bits (csrGet (getCore s slot) 0x6484) 0 24 ≠ 0 ∧ clocked s slot ∧ su.st ≠ .idle ∧ su.st ≠ .fault ∧ !su.stopping ∧
        (unanswered su ∨ !su.writes.isEmpty) then streamFault s slot u su 7 su.pc 0
    else s)

/-- The thread that receives the faults of unit `u` (R301). -/
def faultThread (c : Core) (u : Fin 4) : Fin 4 := Fin.ofNat 4 (bits (sctl c u) 26 2).toNat

/-- The thread's next boundary brings the fault of a stream unit (R299). -/
def faultNext (s : State) (slot : Nat) (k : Fin 4) : Bool :=
  match nextDelivery s slot k with
  | some (.streamFault _) => true
  | _ => false

/-- STREAM_FAULT_DELIVERY (R299): the unit's oldest fault. -/
def deliverStreamFault (s : State) (slot : Nat) (u : Fin 4) : State :=
  let c := getCore s slot
  let k := faultThread c u
  match c.su[u].fault with
  | [] => s
  | (faddr, info) :: rest =>
    if !deliverable s slot k || !faultNext s slot k then s
    else
      let s := atBoundary (modSu s slot u (fun su => { su with fault := rest })) slot k
      enterException s slot k false (getTh s slot k).pc (causeWord k 0 cSTREAM_PROGRAM) cSTREAM_PROGRAM faddr info
def execStreamFaultDelivery (core : Nat) (u : Fin 4) (s : State) : Host.Outcome State Fault Refusal :=
  withCore s core (fun slot s => deliverStreamFault s slot u)

end Sys2Proof.Machine
end

