-- ==== Sys2Proof/Machine/Couriers.lean ====
section
/-! DEFINITION. Couriers and far reads (R302 to R314). -/
namespace Sys2Proof.Machine

/-- The offset of a channel's registers (R314); channels are numbered 16 × cluster + channel. -/
def chBase (k : Nat) : Nat := 0x20000 + 0x2000 * (k / 16) + 0x40 * (k % 16)

def getCh (s : State) (k : Nat) : Channel := tget channelDefault s.channels k

def modCh (s : State) (k : Nat) (f : Channel → Channel) : State :=
  { s with channels := tset channelDefault s.channels k (f (getCh s k)) }

def chReg (s : State) (k o : Nat) : Word := devGet s (chBase k + o)

/-- A 64-bit register pair (R8). -/
def chPair (s : State) (k o : Nat) : Nat := (chReg s k o).toNat + 2 ^ 32 * (chReg s k (o + 4)).toNat

def setPair (s : State) (k o v : Nat) : State :=
  devSet (devSet s (chBase k + o) (BitVec.ofNat 32 v)) (chBase k + o + 4) (BitVec.ofNat 32 (v / 2 ^ 32))

def chOp (s : State) (k : Nat) : Nat := (bits (chReg s k 0x18) 24 4).toNat
def chPrio (s : State) (k : Nat) : Nat := (bits (chReg s k 0x18) 16 2).toNat

/-- Two ranges of `n` bytes overlap in one space of one device (R304). -/
def overlaps (a b : FarAddr) (n : Nat) : Bool :=
  a.dev == b.dev && a.space == b.space && decide (a.off < b.off + n ∧ b.off < a.off + n)

/-- The operation is one of channel `k`. -/
def askedBy (k : Nat) : Asked → Bool
  | .courierWrite c _ => c == k
  | .courierRead c _ => c == k
  | _ => false

/-- The channel has requests whose results are not applied or acknowledged. -/
def chOutstanding (s : State) (k : Nat) : Bool :=
  !(getCh s k).reads.isEmpty || s.fab.remote.any (fun r => askedBy k r.what) ||
    s.fab.waiting.any (fun w => match w.what with
      | some a => askedBy k a
      | none => false)

/-! ### Completion (R307) -/

/-- The result of a channel that may complete: its status and OFFSET. An ABORT ends in ABORTED however much was done (R310). -/
def chResult (ch : Channel) : Option (BitVec 8 × Nat) :=
  if ch.aborting then some (4, ch.doneBytes)
  else match ch.result with
    | some r => some r
    | none => if ch.doneBytes = ch.total then some (0, 0) else none

/-- The channel starts from its registers. -/
def startCh (s : State) (k : Nat) (block : Option (Nat × Nat)) : State :=
  modCh s k (fun _ =>
    { Channel.reset with
      st := if bitOf (chReg s k 0x18) 31 then .pausing else .active, block := block, total := (chReg s k 0x10).toNat })

/-- Step 7 of R304: the channel's registers take what the doorbell resolved, and it starts. -/
def takeDoor (s : State) (d : Doorbell) : State :=
  let put (s : State) (i : Nat) : State := devSet s (chBase d.ch + 4 * i) (d.words.getD i 0)
  startCh ((upFrom 0 8).foldl put s) d.ch (some (d.core, d.addr))

/-- The doorbell for which a thread waits, and what its instruction does as it completes. -/
def doorOf (th : Thread) : Option (Doorbell × DoorEnd) :=
  match th.block with
  | some (.door d e) => some (d, e)
  | _ => none

/-- The first thread of the cluster whose doorbell waits for channel `k`. -/
def doorFor (s : State) (k : Nat) : Option (Nat × Fin 4 × Doorbell × DoorEnd) :=
  (upFrom (72 * (k / 16)) 72).findSome? (fun slot =>
    ([0, 1, 2, 3] : List (Fin 4)).findSome? (fun t =>
      match doorOf (getTh s slot t) with
      | some d => if d.1.ch = k then some (slot, t, d) else none
      | none => none))

/-- A channel that has become IDLE completes a waiting doorbell (R304 step 6). -/
def nextDoor (s : State) (k : Nat) : State :=
  match doorFor s k with
  | some (slot, t, d, e) => takeDoor (advance (modTh s slot t (fun th => { th with block := none })) slot t (doorEnd e)) d
  | none => s

/-- Completion (R307): the command block's STATUS and OFFSET, CSTAT and CRES, and the notification. -/
def finishCh (s : State) (k : Nat) (status : BitVec 8) (off : Nat) : State :=
  let ch := getCh s k
  let s := match ch.block with
    | none => s
    | some (core, a) =>
      match siteOf s core with
      | none => s
      | some slot =>
        let s := wakeCause s (clusterOf slot)
        storeLocal s slot (a + 24) (leBytes 4 status.toNat ++ leBytes 4 off)
  let s := devSet s (chBase k + 0x20) (zext status)
  let s := devSet s (chBase k + 0x24) (BitVec.ofNat 32 off)
  let s := modCh s k (fun _ => Channel.reset)
  let n := chReg s k 0x1C
  let s := if bitOf n 31 then deliverMsg s (.routed (bits n 16 10).toNat (bits n 0 6)) else s
  nextDoor (clearBehind s k) k

/-! ### Starting (R304, R305, R311) -/

/-- A GO whose registers break R304 steps 4 and 5 or R305. -/
def goInvalid (s : State) (k : Nat) : Bool :=
  let op := chOp s k
  let n := (chReg s k 0x10).toNat
  let src := globalOf (chPair s k 0)
  let dst := globalOf (chPair s k 8)
  let bad (a : FarAddr) : Bool := decide (3 < a.space.toNat ∨ a.off % 64 ≠ 0 ∨ 2 ^ 44 < a.off + n)
  op == 0 || decide (3 < op) || n == 0 || n % 64 != 0 || bad dst || (op != 2 && bad src) ||
    (op == 1 && overlaps src dst n)

/-- A write of CCTL (R310, R311, R314). -/
def writeCctl (s : State) (k : Nat) (v : Word) : State :=
  let o := chBase k + 0x18
  let ch := getCh s k
  let pause := bitOf v 31
  let setPause (s : State) : State := devSet s o (setBits (devGet s o) 31 (ofBool 1 pause))
  match ch.st with
  | .idle =>
    let s := devSet s o ((devReg o).write (devGet s o) v)
    if bitOf v 29 then (if goInvalid s k then finishCh s k 5 0 else startCh s k none) else s
  | .paused =>
    let s := devSet s o ((devReg o).write (devGet s o) v)
    if bitOf v 30 then modCh s k (fun ch => { ch with aborting := true })
    else if !pause then
      modCh s k (fun ch =>
        { ch with st := .active, total := ch.doneBytes + (chReg s k 0x10).toNat, issued := ch.doneBytes, burst := 0 })
    else s
  | _ =>
    let s := setPause s
    modCh s k (fun ch =>
      if bitOf v 30 then { ch with st := .pausing, aborting := true }
      else if pause then { ch with st := .pausing } else ch)

/-- A write of another register of a channel: ignored while it is ACTIVE or PAUSING (R311). -/
def writeChReg (s : State) (k o : Nat) (v : Word) : State :=
  let ch := getCh s k
  if ch.st = .active ∨ ch.st = .pausing then s
  else devSet s (chBase k + o) ((devReg (chBase k + o)).write (chReg s k o) v)

/-! ### The doorbell (R303, R304) -/

/-- The bytes of a command block fit R304 step 4, the overlap aside. -/
def blockOk (bs : List Byte) : Bool :=
  let w4 := leWord (slice bs 16 4)
  let op := (bits w4 28 4).toNat
  let n := leAt bs 8 4
  bits w4 26 2 == 0 && bits w4 22 2 == 0 && bits w4 14 2 == 0 && !bitOf w4 6 && leAt bs 20 4 == 0 &&
    (op == 1 || op == 2 || op == 3) && (op != 2 || bits w4 16 6 == 0) &&
    n != 0 && n % 64 == 0 && leAt bs 0 4 % 64 == 0 && leAt bs 4 4 % 64 == 0

/-- A handle for a courier: bound for the direction, not interleaved, and covering the range; else its REASON (R304). -/
def courierHandle (c : Core) (h : Nat) (write : Bool) (o n : Nat) : Except Nat (BitVec 128) :=
  let d := handleGet c h
  if !hValid d then .error 1
  else if (if write then !hWr d else !hRd d) then .error 2
  else if hGran d ≠ 0 then .error 8
  else if hLen d < o + n then .error 4
  else .ok d

/-- Steps 4 and 5 of R304 for the command block `bs` at local address `a`: `n` is the core, `k` the channel. -/
def ringDoorbell (s : State) (slot n k a : Nat) (bs : List Byte) : Res Doorbell :=
  let c := getCore s slot
  let w4 := leWord (slice bs 16 4)
  let op := (bits w4 28 4).toNat
  let count := leAt bs 8 4
  let soff := leAt bs 0 4
  let doff := leAt bs 4 4
  let sh := (bits w4 16 6).toNat
  let dh := (bits w4 8 6).toNat
  let ill : FaultInfo := addrFault cILLEGAL a
  if !blockOk bs then .fault ill
  else if op == 1 && hValid (handleGet c sh) && hValid (handleGet c dh) &&
      overlaps (farOf s n (handleGet c sh) soff) (farOf s n (handleGet c dh) doff) count then .fault ill
  else
    let src := if op = 2 then .ok (0 : BitVec 128) else courierHandle c sh false soff count
    match src, courierHandle c dh (op != 3) doff count with
    | .error r, _ => .fault ⟨cHANDLE, 0, handleInfo 3 r sh⟩
    | _, .error r => .fault ⟨cHANDLE, 0, handleInfo 3 r dh⟩
    | .ok sd, .ok dd =>
      let lo (v : Nat) : Word := BitVec.ofNat 32 v
      let sa := if op = 2 then 0 else globalBits (farOf s n sd soff)
      let da := globalBits (farOf s n dd doff)
      .ok ⟨k, [lo sa, lo (sa / 2 ^ 32), lo da, lo (da / 2 ^ 32), lo count, leWord (slice bs 12 4),
        (BitVec.ofNat 32 op <<< 24) ||| (zext (bits w4 24 2) <<< 16),
        (if bitOf w4 7 then 0x80000000 else 0) ||| (BitVec.ofNat 32 n <<< 16) ||| zext (bits w4 0 6)], n, a⟩

/-! ### Bursts (R305, R306, R308) -/

/-- The lowest difference or poisoned word of two units: its status and byte offset (R305). -/
def compareUnits (x y : Unit64) : Option (BitVec 8 × Nat) :=
  let bx := unitBytes x
  let by' := unitBytes y
  (upFrom 0 64).foldl (fun found i =>
    match found with
    | some r => some r
    | none =>
      if i % 4 = 0 ∧ (bitOf x.poison (i / 4) ∨ bitOf y.poison (i / 4)) then some (2, i)
      else if bx.getD i 0 ≠ by'.getD i 0 then some (1, i) else none) none

/-- A result beside the one that the channel may have: that of the lower offset stays (R307). -/
def firstResult (was : Option (BitVec 8 × Nat)) (r : BitVec 8 × Nat) : BitVec 8 × Nat :=
  match was with
  | some w => if w.2 ≤ r.2 then w else r
  | none => r

/-- The channel stops with a result, and discards what it has asked for (R306). -/
def stopCh (s : State) (k : Nat) (r : BitVec 8 × Nat) : State :=
  modCh s k (fun ch => { ch with result := some (firstResult ch.result r), reads := [] })

/-- The channel's registers advance past one unit. -/
def passUnit (s : State) (k : Nat) : State :=
  let s := if chOp s k = 2 then s else setPair s k 0 (chPair s k 0 + 64)
  let s := setPair s k 8 (chPair s k 8 + 64)
  let s := devSet s (chBase k + 0x10) (chReg s k 0x10 - 64)
  modCh s k (fun ch => { ch with doneBytes := ch.doneBytes + 64 })

/-- One unit of COPY or FILL is written, and the channel goes past it (R305, R306). -/
def chPut (s : State) (k : Nat) (x : Unit64) : State :=
  let dst := globalOf (chPair s k 8)
  let at' := (getCh s k).doneBytes
  if isHere s dst then
    match writeUnit s dst.space dst.off x with
    | (s, true) => passUnit s k
    | (s, false) => stopCh s k (3, at')
  else passUnit (sendWrite s (courierVc (chPrio s k)) dst.dev dst.space dst.off x (.courierWrite k at')) k

/-- The results of the channel's reads are applied in ascending order, as far as they have come, at most `n` (R305, R306). -/
def applyReads (k : Nat) : Nat → State → State
  | 0, s => s
  | n + 1, s =>
    match (getCh s k).reads with
    | [] => s
    | r :: rest =>
      let s' := modCh s k (fun ch => { ch with reads := rest })
      match r.x.2, r.y.2 with
      | some none, _ => stopCh s k (3, r.off)
      | _, some none => stopCh s k (3, r.off)
      | some (some x), some (some y) =>
        if chOp s k = 1 then applyReads k n (chPut s' k x)
        else match compareUnits x y with
          | some (st, o) => stopCh s k (st, r.off + o)
          | none => applyReads k n (passUnit s' k)
      | _, _ => s

/-- What has come is applied; a channel that has issued its last write or has stopped holds back no post (R343). -/
def settleCh (s : State) (k : Nat) : State :=
  let s := applyReads k (getCh s k).reads.length s
  let ch := getCh s k
  if ch.result.isSome ∨ ch.doneBytes = ch.total then clearBehind s k else s

/-- A read of one unit of an operand: of this device at once, of another under a fresh number. -/
def askOperand (s : State) (k : Nat) (a : FarAddr) : State × (Nat × Option (Option Unit64)) :=
  let (id, s) := newOp s
  if isHere s a then
    let (s, r) := readUnit s a.space a.off
    (s, (id, some r))
  else (sendRead s a.dev a.space a.off (.courierRead k id), (id, none))

/-- One request of the channel: the next unit is filled, or read (R305, R308). The second operand of a COPY needs no read. -/
def oneRequest (s : State) (k : Nat) : State :=
  let ch := getCh s k
  let ahead := ch.issued - ch.doneBytes
  let src := globalOf (chPair s k 0 + ahead)
  let dst := globalOf (chPair s k 8 + ahead)
  let s := modCh s k (fun ch => { ch with issued := ch.issued + 64, burst := ch.burst - 1 })
  match chOp s k with
  | 2 =>
    let p := leBytes 4 (chReg s k 0x14).toNat
    settleCh (chPut s k (goodUnit ((upFrom 0 16).flatMap (fun _ => p)))) k
  | op =>
    let (s, x) := askOperand s k src
    let (s, y) := if op = 1 then (s, (0, some (some (goodUnit [])))) else askOperand s k dst
    settleCh (modCh s k (fun ch => { ch with reads := ch.reads ++ [⟨ch.issued - 64, x, y⟩] })) k

/-- The answer of another device to the channel's read `id`; one that the channel has dropped is forgotten (R306). -/
def courierAnswer (s : State) (k id : Nat) (x : Option Unit64) : State :=
  let fill (p : Nat × Option (Option Unit64)) : Nat × Option (Option Unit64) :=
    if p.1 = id ∧ p.2 = none then (id, some x) else p
  settleCh (modCh s k (fun ch => { ch with reads := ch.reads.map (fun r => { r with x := fill r.x, y := fill r.y }) })) k

/-- The channel has a request to issue. -/
def chReady (s : State) (k : Nat) : Bool :=
  let ch := getCh s k
  ch.st == .active && ch.result.isNone && decide (ch.issued < ch.total)

/-- The default of the last channel granted at a level: the turn begins at channel 0. -/
def grantDefault (_ : Nat) : Nat := 15

/-- The channel of a cluster that the arbitration grants (R308). -/
def grantedCh (s : State) (cl : Nat) : Option Nat :=
  (upFrom 0 4).findSome? (fun p =>
    let last := tget grantDefault s.lastGrant (4 * cl + p)
    (upFrom 1 16).findSome? (fun d =>
      let k := 16 * cl + (last + d) % 16
      if chReady s k && chPrio s k == p then some k else none))

/-- The channel of a cluster inside a burst, if any (R308). -/
def burstingCh (s : State) (cl : Nat) : Option Nat :=
  (upFrom (16 * cl) 16).find? (fun k => chReady s k && decide (0 < (getCh s k).burst))

/-- The arbitration at a burst boundary (R308): the granted channel has 4 KiB before it, or the remainder. -/
def grantBurst (s : State) (cl : Nat) : Option (Nat × State) :=
  match burstingCh s cl with
  | some k => some (k, s)
  | none =>
    (grantedCh s cl).map (fun k =>
      let s := { s with lastGrant := tset grantDefault s.lastGrant (4 * cl + chPrio s k) (k % 16) }
      (k, modCh s k (fun ch => { ch with burst := min 64 ((ch.total - ch.issued) / 64) })))

/-- `n` requests of the block, one a mesh cycle: each is of the burst in progress, or of the next one granted. -/
def courierRequests (cl : Nat) : Nat → State → State
  | 0, s => s
  | n + 1, s =>
    match grantBurst s cl with
    | none => s
    | some (k, s) => courierRequests cl n (oneRequest s k)

/-- COURIER_BURST_GRANT (R308): the block of the cluster issues `n` requests from here, choosing at each burst boundary. -/
def execCourierBurstGrant (cluster : Fin 8) (n : Nat) (s : State) : Host.Outcome State Fault Refusal :=
  .next (courierRequests cluster.val n s)

/-- CCTL_GO (R311): a write of CCTL with GO. -/
def execCctlGo (cluster : Fin 8) (ch : Fin 16) (v : BitVec 32) (s : State) : Host.Outcome State Fault Refusal :=
  if dark s then .next s else .next (writeCctl s (16 * cluster.val + ch.val) (v ||| 0x20000000))

/-- CCTL_PAUSE (R310): PAUSE is set or cleared, and the other fields written as they stand. -/
def execCctlPause (cluster : Fin 8) (ch : Fin 16) (on : Bool) (s : State) : Host.Outcome State Fault Refusal :=
  if dark s then .next s else
  let k := 16 * cluster.val + ch.val
  .next (writeCctl s k (setBits (chReg s k 0x18) 31 (ofBool 1 on)))

/-- CCTL_ABORT (R310). -/
def execCctlAbort (cluster : Fin 8) (ch : Fin 16) (s : State) : Host.Outcome State Fault Refusal :=
  let k := 16 * cluster.val + ch.val
  .next (writeCctl s k (chReg s k 0x18 ||| 0x40000000))

/-- COURIER_PAUSED (R310): a PAUSING channel has drained: PAUSED, or ACTIVE again if PAUSE has been cleared. -/
def execCourierPaused (cluster : Fin 8) (ch : Fin 16) (s : State) : Host.Outcome State Fault Refusal :=
  let k := 16 * cluster.val + ch.val
  let c := getCh s k
  if c.st = .pausing ∧ !c.aborting ∧ !chOutstanding s k then
    if bitOf (chReg s k 0x18) 31 then .next (clearBehind (modCh s k (fun c => { c with st := .paused })) k)
    else .next (modCh s k (fun c => { c with st := .active, issued := c.doneBytes, burst := 0 }))
  else .next s

/-- COURIER_COMPLETE (R307): the channel has issued its last request, or stopped, and has drained. Firmware, which started a
copy without a doorbell, notes its outcome (R477, R505). -/
def execCourierComplete (cluster : Fin 8) (ch : Fin 16) (s : State) : Host.Outcome State Fault Refusal :=
  let k := 16 * cluster.val + ch.val
  let c := getCh s k
  if c.st = .idle ∨ chOutstanding s k then .next s
  else match chResult c with
    | some (st, o) =>
      let own := c.block.isNone && chOp s k == 1
      let s := if own then { s with so := { s.so with doneCopies := s.so.doneCopies ++ [(chPair s k 0 - c.doneBytes, st == 0)] } } else s
      .next (finishCh s k st o)
    | none => .next s

/-! ### Far reads (R312) -/

/-- A store to FGOk (R312): `n` is the core and `a` the store's address. -/
def startFarRead (s : State) (slot n : Nat) (k : Fin 4) (a : Nat) (v : Word) : Res State :=
  let c := getCore s slot
  let foff := (csrGet c (0x6490 + 8 * k.val)).toNat
  let sh := (bits v 26 6).toNat
  let dh := (bits v 20 6).toNat
  let doff := (bits v 7 13).toNat * 64
  if foff % 64 ≠ 0 then .fault (addrFault cALIGN a)
  else
    let dst : Except Nat (BitVec 128) :=
      let d := handleGet c dh
      if !hValid d then .error 1
      else if !hWr d then .error 2
      else if hSpace d ≠ 8 then .error 3
      else if hLen d < doff + 64 then .error 4
      else .ok d
    match courierHandle c sh false foff 64, dst with
    | .error r, _ => .fault ⟨cHANDLE, 0, handleInfo 3 r sh⟩
    | _, .error r => .fault ⟨cHANDLE, 0, handleInfo 3 r dh⟩
    | .ok sd, .ok dd =>
      if 16 ≤ c.far.length then .stall
      else
        let loc := farOf s n sd foff
        let (id, s) := newOp s
        let f : FarRead := ⟨id, loc.space, loc.dev, loc.off, hBase dd + doff, bitOf v 6, bits v 0 6⟩
        let s := modCore s slot (fun c => { c with far := c.far ++ [f] })
        .ok (if isHere s loc then s
          else sendRead s loc.dev loc.space loc.off (.farRead slot id))

/-- The data of a far read is written, or poison for an error, and its flag signalled (R312). -/
def finishFarRead (s : State) (slot : Nat) (f : FarRead) (x : Option Unit64) : State :=
  let x := x.getD poisonedUnit
  let s := modCore s slot (fun c =>
    { c with mem := writeUnitMem 4 c.mem f.dst x, far := c.far.erase f })
  if f.sig then signalAt s slot f.flag else s

/-- FAR_READ_DATA (R312): the `i`-th outstanding far read, where its source is on this device. -/
def execFarReadData (core : Nat) (i : Nat) (s : State) : Host.Outcome State Fault Refusal :=
  withCore s core (fun slot s =>
    match (getCore s slot).far[i]? with
    | none => s
    | some f =>
      if !isHere s ⟨f.space, f.dev, f.off⟩ then s
      else
        let (s, x) := readUnit s f.space f.off
        finishFarRead (wakeCause s (clusterOf slot)) slot f x)

end Sys2Proof.Machine
end

