-- ==== Sys2Proof/Machine/Vector.lean ====
section
/-! DEFINITION. The vector unit (R183 to R204): element-wise arithmetic, compares, logic, reductions, permutes,
conversions, loads and stores, block scales, and retirement (R168 to R176). -/
namespace Sys2Proof.Machine

def vregDefault (_ : Nat) : BitVec 512 := 0

/-- Register Vn. -/
def vreg (c : Core) (n : BitVec 4) : BitVec 512 := tget vregDefault c.vregs n.toNat

/-- The stored word of VSEN or of a VSCALE, with the stores that wait to take effect laid over it (R202). -/
def vscaleWord (c : Core) (o : Nat) : Word :=
  c.vscalePend.foldl (fun w p => if p.off = o then bits p.value 0 32 else w) (csrGet c o)

/-- Vn is scaled (R200). -/
def vscaled (c : Core) (n : BitVec 4) : Bool := bitOf (vscaleWord c 0x4C40) n.toNat

/-- VSCALEn. -/
def vscaleOf (c : Core) (n : BitVec 4) : Word := vscaleWord c (0x4C00 + 4 * n.toNat)

/-- The numeric mode in effect (R182). -/
def coreMode (c : Core) : NMode := modeOf (csrGet c 0x3000)

/-- NUMERIC_CTL.NANTRAP. -/
def nanTrap (c : Core) : Bool := bitOf (csrGet c 0x3000) 2

/-- Element `i` of Vn in format `f` as a value: with its block scale if Vn is scaled (R155 to R157, R200). -/
def velem (c : Core) (n f : BitVec 4) (i : Nat) : FVal :=
  let code := elemOf f (vreg c n).toNat i
  if vscaled c n then decodeScaled f (bits (vscaleOf c n) (8 * (i / 32)) 8) code else decodeIn (coreMode c) f code

/-- The first `l` elements of Vn as values. -/
def velems (c : Core) (n f : BitVec 4) (l : Nat) : List FVal := (upFrom 0 l).map (velem c n f)

/-- A format that an instruction of the vector unit may use (R147, R179). -/
def vfmtOk (c : Core) (f : BitVec 4) : Bool := !fmtReserved f && (coreMode c != .guist || fmtGuist f true)

/-- A register named as a value in a format: a scaled register only in the codes 0x3 to 0x8, and none in
Guist-compatible mode (R156, R179, R201). -/
def vvalOk (c : Core) (n f : BitVec 4) : Bool :=
  vfmtOk c f && (!vscaled c n || (fmtScalable f && coreMode c != .guist))

/-- What a vector instruction does: the register it writes, the scales of which blocks of it (from a first block on), and
the events of its lanes from lane 0. -/
structure VecOut where
  vd : Option (BitVec 4 × BitVec 512)
  scale : Option (BitVec 4 × Nat × List Nat)
  evs : List Ev
deriving DecidableEq, Repr

/-- Rounded elements as a register, with their events. -/
def packRounded (f : BitVec 4) (rs : List Rounded) : BitVec 512 := BitVec.ofNat 512 (packElems f (rs.map (·.code)))

/-- The blocks of a scaled result: the scale codes and the elements, 32 at a time (R158, R201). `base` is the index of the
first element. -/
def scaledBlocks (mode : NMode) (f : BitVec 4) (rnd : Nat → FVal → Rounded) : Nat → Nat → List FVal → List (Nat × List Rounded)
  | 0, _, _ => []
  | n + 1, base, vs =>
    blockWith mode f (fun i => rnd (base + i)) (vs.take 32) :: scaledBlocks mode f rnd n (base + 32) (vs.drop 32)

/-- A scale word with the codes of its blocks from block `j` on. -/
def putScales (w : Word) : Nat → List Nat → Word
  | _, [] => w
  | j, x :: xs => putScales (setBits w (8 * j) (BitVec.ofNat 8 x)) (j + 1) xs

/-- The result elements `vs` are written from lane 0 of vd in format `fd`, and the lanes above them as zero (R190, R191,
R201). `rnd` rounds one element, given its lane; `extra` is what each element's own operation adds to its events. The
scales above the blocks of a 64-lane register stay (DESIGN CHOICE, log 104). -/
def writeLanes (c : Core) (vd fd : BitVec 4) (rnd : Nat → FVal → Rounded) (extra : List Ev) (vs : List FVal) : VecOut :=
  let mode := coreMode c
  let join (l : List Rounded) : List Ev := (l.take vs.length).zip (extra ++ List.replicate vs.length Ev.none) |>.map (fun p => evOr p.1.ev p.2)
  if vscaled c vd then
    let total := lanesOf fd
    let padded := vs ++ List.replicate (total - vs.length) (mkFin false 0 0)
    let bs := scaledBlocks mode fd (fun i v => if i < vs.length then rnd i v else ⟨0, .none⟩) (total / 32) 0 padded
    let rs := bs.flatMap (·.2)
    ⟨some (vd, packRounded fd rs), some (vd, 0, bs.map (·.1)), join rs⟩
  else
    let rs := ((upFrom 0 vs.length).zip vs).map (fun p => rnd p.1 p.2)
    ⟨some (vd, packRounded fd rs), none, join rs⟩

/-- As `writeLanes`, rounded by R164. -/
def writeRounded (c : Core) (vd fd : BitVec 4) (vs : List FVal) : VecOut :=
  writeLanes c vd fd (fun _ => roundTo (coreMode c) fd) [] vs

/-- A raw register result (R200). -/
def writeRaw (vd : BitVec 4) (x : BitVec 512) : VecOut := ⟨some (vd, x), none, []⟩

/-! ### Issue and retirement -/

/-- The latest writer of Vn is still in flight (R186). -/
def vbusy (c : Core) (n : BitVec 4) : Bool := c.vq.any (fun o => match o.vd with | some (d, _) => d == n | none => false)

/-- A vector instruction does not issue while a change of the numeric settings is pending (R180) or a register it reads is
still to be written (R186). -/
def vecStalls (c : Core) (reads : List (BitVec 4)) : Bool := !c.numPend.isEmpty || reads.any (vbusy c)

/-- A vector instruction issues (R185 to R187); its result is visible when it retires. `f` changes the thread beside the
pc. -/
def vecPush (t : Fin 4) (slot : Nat) (s : State) (cls : Nat) (kept : Option KeptDraws) (out : VecOut)
    (f : Thread → Thread) : Res State :=
  let c := getCore s slot
  let ty := tallyOf 0 out.evs
  let op : VecOp :=
    { t := t, pc := c.th[t].pc, vd := out.vd, scale := out.scale, cls := cls, sat := ty.sat, flush := ty.flush, nan := ty.nan,
      flags := if coreMode c = .strict then ty.fl else 0, nanEl := ty.first, trap := nanTrap c, kept := kept }
  let s := modCore s slot (fun c => { c with vq := c.vq ++ [op] })
  .ok (advance s slot t (fun th => { f th with block := if nanTrap c then some .nanWait else th.block }))

/-- The body of a vector instruction: it waits (R180, R186), then ILLEGAL unless `ok`, then its result (R204). -/
def vecBody (t : Fin 4) (cls : Nat) (ok : Core → Bool) (reads : List (BitVec 4)) (eval : Core → VecOut) (slot : Nat)
    (s : State) : Res State :=
  let c := getCore s slot
  if vecStalls c reads then .stall
  else Res.check (legal (ok c)) (vecPush t slot s cls none (eval c) id)

/-- The counters, flags and results of a retired instruction (R168, R169, R173). -/
def countClass (c : Core) (cls sat flush nan : Nat) : Core :=
  let o := 0x3100 + 16 * cls
  csrCount (csrCount (csrCount c o sat) (o + 4) flush) (o + 8) nan

/-- What a retirement counts, noted for the writes of the same cycle (R169). -/
def noteCounts (s : State) (slot cls sat flush nan : Nat) : State :=
  let note (s : State) (i n : Nat) : State :=
    let place := corePlace slot (0x3100 + 16 * cls + 4 * i)
    { s with setNow := tset nowDefault s.setNow place (BitVec.ofNat 32 (addCap 0xFFFFFFFF (setBitsNow s place).toNat n)) }
  note (note (note s 0 sat) 1 flush) 2 nan

/-- One vector instruction has retired: the stores that waited for it. -/
def drainVscale (c : Core) : Core :=
  let ps := c.vscalePend.map (fun p => { p with ahead := p.ahead - 1 })
  (ps.filter (fun p => p.ahead == 0)).foldl applyPend { c with vscalePend := ps.filter (fun p => p.ahead != 0) }

/-- The oldest vector instruction reaches its result-ready cycle (R168, R170, R186), also on a core that has halted
meanwhile (DESIGN CHOICE, log 154). -/
def vectorRetire (s : State) (slot : Nat) : State :=
  match (getCore s slot).vq with
  | [] => s
  | o :: rest =>
    let trapped := o.trap && o.nanEl.isSome
    let s := modCore s slot (fun c =>
      let c := { c with vq := rest }
      let c := if trapped then c
        else
          let c := match o.vd with
            | some (d, x) => { c with vregs := tset vregDefault c.vregs d.toNat x }
            | none => c
          let c := match o.scale with
            | some (d, j, xs) => csrSet c (0x4C00 + 4 * d.toNat) (putScales (csrGet c (0x4C00 + 4 * d.toNat)) j xs)
            | none => c
          let c := countClass c o.cls o.sat o.flush o.nan
          csrSet c 0x3004 (csrGet c 0x3004 ||| zext o.flags)
      drainVscale c)
    let s := if trapped then s
      else noteCounts (noteSet s (corePlace slot 0x3004) (zext o.flags)) slot o.cls o.sat o.flush o.nan
    let s := if o.trap then
        modTh s slot o.t (fun th => { th with block := if th.block = some .nanWait then none else th.block })
      else s
    if trapped then
      let s := modTh s slot o.t (fun th => keepDraws o.kept { th with pc := o.pc })
      takeFault s slot o.t ⟨cNAN_TRAP, 0, BitVec.ofNat 32 (o.cls * 2 ^ 24 + o.nanEl.getD 0)⟩
    else s

/-- VECTOR_RETIRE (R168). -/
def execVectorRetire (core : Nat) (s : State) : Host.Outcome State Fault Refusal :=
  onCore s (.core core) (fun slot s => vectorRetire s slot)

/-! ### Element-wise arithmetic (R189 to R191) -/

/-- The lanes of an operation (R190). -/
def lanes3 (fa fb fd : BitVec 4) : Nat := min (lanesOf fa) (min (lanesOf fb) (lanesOf fd))

/-- An operation on a and b (R189). -/
def vecBin (op : FVal → FVal → FVal) (vd va vb fa fb fd : BitVec 4) (c : Core) : VecOut :=
  let l := lanes3 fa fb fd
  writeRounded c vd fd (((velems c va fa l).zip (velems c vb fb l)).map (fun p => op p.1 p.2))

def binOk (vd va vb fa fb fd : BitVec 4) (c : Core) : Bool := vvalOk c va fa && vvalOk c vb fb && vvalOk c vd fd

/-- VADD (R189). -/
def execVadd (core : Nat) (t : Fin 4) (vd va vb fa fb fd : BitVec 4) (s : State) : Host.Outcome State Fault Refusal :=
  issue s (.core core) t (vecBody t 0 (binOk vd va vb fa fb fd) [va, vb] (vecBin addF vd va vb fa fb fd))
/-- VSUB (R189). -/
def execVsub (core : Nat) (t : Fin 4) (vd va vb fa fb fd : BitVec 4) (s : State) : Host.Outcome State Fault Refusal :=
  issue s (.core core) t (vecBody t 0 (binOk vd va vb fa fb fd) [va, vb] (vecBin (fun a b => addF a (negF b)) vd va vb fa fb fd))
/-- VMUL (R189). -/
def execVmul (core : Nat) (t : Fin 4) (vd va vb fa fb fd : BitVec 4) (s : State) : Host.Outcome State Fault Refusal :=
  issue s (.core core) t (vecBody t 0 (binOk vd va vb fa fb fd) [va, vb] (vecBin mulF vd va vb fa fb fd))
/-- VMIN (R189). -/
def execVmin (core : Nat) (t : Fin 4) (vd va vb fa fb fd : BitVec 4) (s : State) : Host.Outcome State Fault Refusal :=
  issue s (.core core) t (vecBody t 0 (binOk vd va vb fa fb fd) [va, vb] (vecBin minF vd va vb fa fb fd))
/-- VMAX (R189). -/
def execVmax (core : Nat) (t : Fin 4) (vd va vb fa fb fd : BitVec 4) (s : State) : Host.Outcome State Fault Refusal :=
  issue s (.core core) t (vecBody t 0 (binOk vd va vb fa fb fd) [va, vb] (vecBin maxF vd va vb fa fb fd))

/-- d + a × b, rounded once (R189). -/
def vmacOut (vd va vb fa fb fd : BitVec 4) (c : Core) : VecOut :=
  let l := lanes3 fa fb fd
  let ps := ((velems c va fa l).zip (velems c vb fb l)).map (fun p => mulF p.1 p.2)
  writeRounded c vd fd (((velems c vd fd l).zip ps).map (fun p => addF p.1 p.2))
/-- VMAC (R189). -/
def execVmac (core : Nat) (t : Fin 4) (vd va vb fa fb fd : BitVec 4) (s : State) : Host.Outcome State Fault Refusal :=
  issue s (.core core) t (vecBody t 0 (binOk vd va vb fa fb fd) [vd, va, vb] (vmacOut vd va vb fa fb fd))

/-- a ÷ b (R191): division by zero sets VDZ in strict mode. -/
def vdivOut (vd va vb fa fb fd : BitVec 4) (c : Core) : VecOut :=
  let l := lanes3 fa fb fd
  let ps := (velems c va fa l).zip (velems c vb fb l)
  writeLanes c vd fd (fun _ => roundTo (coreMode c) fd)
    (ps.map (fun p => if divByZero p.1 p.2 then ⟨false, false, false, xDZ⟩ else Ev.none)) (ps.map (fun p => divF p.1 p.2))
def divOk (vd va vb fa fb fd : BitVec 4) (c : Core) : Bool :=
  binOk vd va vb fa fb fd c && (fmtFloat fd || (fd == 8 && vscaled c vd))
/-- VDIV (R189, R191). -/
def execVdiv (core : Nat) (t : Fin 4) (vd va vb fa fb fd : BitVec 4) (s : State) : Host.Outcome State Fault Refusal :=
  issue s (.core core) t (vecBody t 0 (divOk vd va vb fa fb fd) [va, vb] (vdivOut vd va vb fa fb fd))

/-! ### Long sums (R175, R176) -/

/-- The draws of `n` elements from a generator state, and the state after them. -/
def drawList : Nat → BitVec 64 → List Nat × BitVec 64
  | 0, g => ([], g)
  | n + 1, g =>
    let g := drawStep g
    let r := drawList n g
    (drawOf g :: r.1, r.2)

/-- The generator state an LSUM instruction starts from, and the core after its draws (R176): an instruction issued again
at the same PC takes its kept draws, and the generator does not move; a different one discards them. In Guist-compatible
mode it takes no draw (R179). -/
def takeDraws (c : Core) (t : Fin 4) (i : Instr) (n : Nat) : BitVec 64 × Core :=
  let th := c.th[t]
  let clear (c : Core) : Core := coreModTh c t (fun th => { th with kept := none })
  if coreMode c = .guist then (c.seed, clear c)
  else
    let fresh : BitVec 64 × Core := (c.seed, clear { c with seed := (drawList n c.seed).2 })
    match th.kept with
    | some k => if k.pc = th.pc ∧ k.instr = i then (k.start, clear c) else fresh
    | none => fresh

/-- What an LSUM instruction keeps for a re-issue: where its draws start (R176); in Guist-compatible mode nothing. -/
def keptOf (c : Core) (t : Fin 4) (i : Instr) (start : BitVec 64) : Option KeptDraws :=
  if coreMode c = .guist then none else some ⟨c.th[t].pc, i, start⟩

/-- VLSUM (R189, R175). -/
def vlsumBody (core : Nat) (t : Fin 4) (vd va fa fd : BitVec 4) (slot : Nat) (s : State) : Res State :=
  let c := getCore s slot
  let l := min (lanesOf fa) (lanesOf fd)
  let i : Instr := .vlsum core t vd va fa fd
  if vecStalls c [vd, va] then .stall
  else Res.check (legal (vvalOk c va fa && vvalOk c vd fd))
    (let d := takeDraws c t i l
     let ds := (drawList l d.1).1
     let vs := ((velems c vd fd l).zip (velems c va fa l)).map (fun p => addF p.1 p.2)
     let out := writeLanes c vd fd (fun j v => roundLsum (coreMode c) fd (ds.getD j 0) v) [] vs
     vecPush t slot (setCore s slot d.2) 2 (keptOf c t i d.1) out id)
def execVlsum (core : Nat) (t : Fin 4) (vd va fa fd : BitVec 4) (s : State) : Host.Outcome State Fault Refusal :=
  issue s (.core core) t (vlsumBody core t vd va fa fd)

/-! ### Compare, logic and selection (R192, R193) -/

/-- The condition of VCMP on two values (R193). -/
def cmpHolds (cc : BitVec 4) (a b : FVal) : Bool :=
  let un := isNanF a || isNanF b
  let le := leF a b
  let ge := leF b a
  match cc.toNat with
  | 0 => !un && le && ge
  | 1 => un || !(le && ge)
  | 2 => !un && le && !ge
  | 3 => !un && le
  | 4 => !un && ge && !le
  | 5 => !un && ge
  | _ => un

def bitsNat : List Bool → Nat
  | [] => 0
  | b :: bs => b.toNat + 2 * bitsNat bs

/-- VCMP.cc (R193). -/
def vcmpOut (vd va vb fa fb cc : BitVec 4) (c : Core) : VecOut :=
  let l := min (lanesOf fa) (lanesOf fb)
  writeRaw vd (BitVec.ofNat 512 (bitsNat (((velems c va fa l).zip (velems c vb fb l)).map (fun p => cmpHolds cc p.1 p.2))))
def execVcmp (core : Nat) (t : Fin 4) (vd va vb fa fb cc : BitVec 4) (s : State) : Host.Outcome State Fault Refusal :=
  issue s (.core core) t (vecBody t 0 (fun c => decide (cc.toNat ≤ 6) && vvalOk c va fa && vvalOk c vb fb) [va, vb]
    (vcmpOut vd va vb fa fb cc))
/-- VAND (R192). -/
def execVand (core : Nat) (t : Fin 4) (vd va vb : BitVec 4) (s : State) : Host.Outcome State Fault Refusal :=
  issue s (.core core) t (vecBody t 0 (fun _ => true) [va, vb] (fun c => writeRaw vd (vreg c va &&& vreg c vb)))
/-- VOR (R192). -/
def execVor (core : Nat) (t : Fin 4) (vd va vb : BitVec 4) (s : State) : Host.Outcome State Fault Refusal :=
  issue s (.core core) t (vecBody t 0 (fun _ => true) [va, vb] (fun c => writeRaw vd (vreg c va ||| vreg c vb)))
/-- VXOR (R192). -/
def execVxor (core : Nat) (t : Fin 4) (vd va vb : BitVec 4) (s : State) : Host.Outcome State Fault Refusal :=
  issue s (.core core) t (vecBody t 0 (fun _ => true) [va, vb] (fun c => writeRaw vd (vreg c va ^^^ vreg c vb)))

/-- VSEL (R192, R201). -/
def vselOut (vd va vb fd : BitVec 4) (c : Core) : VecOut :=
  writeRaw vd (BitVec.ofNat 512 (packElems fd ((upFrom 0 (lanesOf fd)).map (fun i =>
    elemOf fd (vreg c (if bitOf (vreg c 0) i then va else vb)).toNat i))))
def execVsel (core : Nat) (t : Fin 4) (vd va vb fd : BitVec 4) (s : State) : Host.Outcome State Fault Refusal :=
  issue s (.core core) t (vecBody t 0 (fun c =>
      vvalOk c va fd && vvalOk c vb fd && vvalOk c vd fd && vscaled c va == vscaled c vb && vscaled c va == vscaled c vd)
    [0, va, vb] (vselOut vd va vb fd))

/-- The count of one bits of an element's bit positions. -/
def popNat : Nat → Nat → Nat
  | 0, _ => 0
  | n + 1, x => x % 2 + popNat n (x / 2)

/-- VPOPC (R192). -/
def vpopcOut (vd va fd : BitVec 4) (c : Core) : VecOut :=
  let w := fmtWidth fd
  writeRaw vd (BitVec.ofNat 512 (packElems fd ((upFrom 0 (lanesOf fd)).map (fun i =>
    popNat w ((vreg c va).toNat / 2 ^ (w * i) % 2 ^ w)))))
def execVpopc (core : Nat) (t : Fin 4) (vd va fd : BitVec 4) (s : State) : Host.Outcome State Fault Refusal :=
  issue s (.core core) t (vecBody t 0 (fun _ => fd == 12 || fd == 8) [va] (vpopcOut vd va fd))

/-! ### Reductions, permutes and moves (R194 to R196) -/

/-- The accumulation type of a pair (R160): INT32 when both operands are integers without scales, else FP32. -/
def accType (intA intB : Bool) : BitVec 4 := if intA && intB then 12 else 0

/-- The operand counts as an integer (R157, R160). -/
def vint (c : Core) (n f : BitVec 4) : Bool := fmtInt f && !vscaled c n

/-- A reduction's terms summed in one operation, or in Guist-compatible mode one after another (R161, R179). -/
def reduceTerms (c : Core) (acc : BitVec 4) (start : FVal) (vs : List FVal) : FVal × Ev :=
  if coreMode c = .guist then seqSum acc start vs else (sumF (start :: vs), .none)

/-- A reduction's one result element in lane 0 (R194). -/
def writeLane0 (c : Core) (vd fd : BitVec 4) (r : FVal × Ev) : VecOut :=
  writeLanes c vd fd (fun _ => roundTo (coreMode c) fd) [r.2] [r.1]

/-- VRSUM (R194). -/
def vrsumOut (vd va fa fd : BitVec 4) (c : Core) : VecOut :=
  match velems c va fa (lanesOf fa) with
  | [] => writeRaw vd 0
  | v :: vs => writeLane0 c vd fd (reduceTerms c (accType (vint c va fa) true) v vs)
def unOk (vd va fa fd : BitVec 4) (c : Core) : Bool := vvalOk c va fa && vvalOk c vd fd
def execVrsum (core : Nat) (t : Fin 4) (vd va fa fd : BitVec 4) (s : State) : Host.Outcome State Fault Refusal :=
  issue s (.core core) t (vecBody t 0 (unOk vd va fa fd) [va] (vrsumOut vd va fa fd))

/-- The largest or smallest element (R194). -/
def vrpickOut (op : FVal → FVal → FVal) (vd va fa fd : BitVec 4) (c : Core) : VecOut :=
  match velems c va fa (lanesOf fa) with
  | [] => writeRaw vd 0
  | v :: vs => writeLane0 c vd fd (vs.foldl op v, .none)
/-- VRMAX (R194). -/
def execVrmax (core : Nat) (t : Fin 4) (vd va fa fd : BitVec 4) (s : State) : Host.Outcome State Fault Refusal :=
  issue s (.core core) t (vecBody t 0 (unOk vd va fa fd) [va] (vrpickOut maxF vd va fa fd))
/-- VRMIN (R194). -/
def execVrmin (core : Nat) (t : Fin 4) (vd va fa fd : BitVec 4) (s : State) : Host.Outcome State Fault Refusal :=
  issue s (.core core) t (vecBody t 0 (unOk vd va fa fd) [va] (vrpickOut minF vd va fa fd))

/-- VRDOT (R194). -/
def vrdotOut (vd va vb fa fb fd : BitVec 4) (c : Core) : VecOut :=
  let l := min (lanesOf fa) (lanesOf fb)
  let ps := ((velems c va fa l).zip (velems c vb fb l)).map (fun p => mulF p.1 p.2)
  writeLane0 c vd fd (reduceTerms c (accType (vint c va fa) (vint c vb fb)) (velem c vd fd 0) ps)
def execVrdot (core : Nat) (t : Fin 4) (vd va vb fa fb fd : BitVec 4) (s : State) : Host.Outcome State Fault Refusal :=
  issue s (.core core) t (vecBody t 0 (binOk vd va vb fa fb fd) [vd, va, vb] (vrdotOut vd va vb fa fb fd))

/-- VPERM (R195). -/
def vpermOut (vd va vb fa : BitVec 4) (c : Core) : VecOut :=
  let l := lanesOf fa
  writeRaw vd (BitVec.ofNat 512 (packElems fa ((upFrom 0 l).map (fun i =>
    let b := (vreg c vb).toNat / 256 ^ i % 256
    if 128 ≤ b then 0 else elemOf fa (vreg c va).toNat (b % l)))))
def execVperm (core : Nat) (t : Fin 4) (vd va vb fa : BitVec 4) (s : State) : Host.Outcome State Fault Refusal :=
  issue s (.core core) t (vecBody t 0 (fun c => vfmtOk c fa && decide (8 ≤ fmtWidth fa)) [va, vb] (vpermOut vd va vb fa))

/-- VSPLAT (R194). -/
def execVsplat (core : Nat) (t : Fin 4) (vd fd : BitVec 4) (s : State) : Host.Outcome State Fault Refusal :=
  issue s (.core core) t (fun slot s =>
    let acc := (getTh s slot t).acc.toNat
    vecBody t 0 (fun c => vfmtOk c fd) []
      (fun _ => writeRaw vd (BitVec.ofNat 512 (packElems fd (List.replicate (lanesOf fd) (elemOf fd acc 0))))) slot s)

/-- VGET (R194): ACC takes the element's bits. -/
def execVget (core : Nat) (t : Fin 4) (va fa : BitVec 4) (s : State) : Host.Outcome State Fault Refusal :=
  issue s (.core core) t (fun slot s =>
    let c := getCore s slot
    if vecStalls c [va] then .stall
    else Res.check (legal (vfmtOk c fa))
      (vecPush t slot s 0 none ⟨none, none, []⟩ (fun th =>
        accZN th (BitVec.ofNat 32 (elemOf fa (vreg c va).toNat (th.ix.toNat % lanesOf fa))))))

/-- The part of a VCVT lies in its range and the ratio of lane counts is at most 16 (R196, R201). -/
def vcvtOk (vd va fa part fd : BitVec 4) (c : Core) : Bool :=
  let la := lanesOf fa
  let ld := lanesOf fd
  unOk vd va fa fd c &&
    (if la = ld then part == 0
     else if ld < la then decide (la / ld ≤ 16 ∧ part.toNat < la / ld)
     else decide (ld / la ≤ 16 ∧ part.toNat < ld / la) && (!vscaled c vd || decide (32 ≤ la)))

/-- VCVT (R196): with fewer source lanes, the other elements and scales of vd stay as they are, bits [7:6] of an FP6 byte
included, and the result elements are the lanes of vd from `part * La` on (R171). -/
def vcvtOut (vd va fa part fd : BitVec 4) (c : Core) : VecOut :=
  let la := lanesOf fa
  let ld := lanesOf fd
  if ld ≤ la then
    writeRounded c vd fd ((upFrom (part.toNat * ld) ld).map (velem c va fa))
  else
    let vs := velems c va fa la
    let mode := coreMode c
    let first := part.toNat * la
    let w := fmtWidth fd
    let old := (upFrom 0 ld).map (fun i => (vreg c vd).toNat / 2 ^ (w * i) % 2 ^ w)
    let out (rs : List Rounded) (scale : Option (BitVec 4 × Nat × List Nat)) : VecOut :=
      ⟨some (vd, BitVec.ofNat 512 (packElems fd (old.take first ++ rs.map (·.code) ++ old.drop (first + la)))), scale,
        List.replicate first Ev.none ++ rs.map (·.ev)⟩
    if vscaled c vd then
      let bs := scaledBlocks mode fd (fun _ => roundTo mode fd) (la / 32) 0 vs
      out (bs.flatMap (·.2)) (some (vd, first / 32, bs.map (·.1)))
    else out (vs.map (roundTo mode fd)) none
def execVcvt (core : Nat) (t : Fin 4) (vd va fa part fd : BitVec 4) (s : State) : Host.Outcome State Fault Refusal :=
  issue s (.core core) t (vecBody t 1 (vcvtOk vd va fa part fd)
    (if lanesOf fa < lanesOf fd then [va, vd] else [va]) (vcvtOut vd va fa part fd))

/-! ### Loads and stores (R197 to R199) -/

/-- A rebind in progress holds the instructions that name its handles (R262). -/
def rebinding (c : Core) (h : Nat) : Bool :=
  match c.rebind with
  | some r => decide (r.first ≤ h ∧ h < r.first + r.descs.length)
  | none => false

/-- The resolution of a handle of the vector unit or the tile engine for `n` bytes at offset `o` (R198, R227, R264): the
local address, or the fault. `source` is 0 or 1, and `align` the alignment the offset needs. -/
def localHandle (c : Core) (source h : Nat) (write : Bool) (align o n : Nat) : Except FaultInfo Nat :=
  let d := handleGet c h
  let a := BitVec.ofNat 32 (hBase d + o)
  if !hValid d then .error ⟨cHANDLE, 0, handleInfo source 1 h⟩
  else if (if write then !hWr d else !hRd d) then .error ⟨cHANDLE, 0, handleInfo source 2 h⟩
  else if hSpace d ≠ 8 then .error ⟨cHANDLE, a, handleInfo source 3 h⟩
  else if o % align ≠ 0 then .error ⟨cALIGN, a, 0⟩
  else if hLen d < o + n then .error ⟨cHANDLE, a, handleInfo source 4 h⟩
  else .ok (hBase d + o)

/-- The offset of a handle operand (R197): the exact sum, which does not wrap (DESIGN CHOICE, log 105). -/
def handleOffset (th : Thread) (units : Nat) (x : Bool) : Nat := units * 64 + (if x then th.ix.toNat else 0)

/-- VLD (R197 to R199). -/
def vldBody (t : Fin 4) (vd : BitVec 4) (h : BitVec 6) (x : Bool) (off : BitVec 13) (slot : Nat) (s : State) : Res State :=
  let c := getCore s slot
  if rebinding c h.toNat || vecStalls c [] then .stall
  else match localHandle c 0 h.toNat false 64 (handleOffset c.th[t] off.toNat x) 64 with
    | .error f => .fault f
    | .ok a =>
      if tileHolds s slot a 64 false then .stall
      else
        let s := settleLocal s slot a 64
        let m := (getCore s slot).mem
        if memPoisoned 4 m a 64 then .after s (addrFault cPOISON_CONSUMED a)
        else vecPush t slot s 0 none (writeRaw vd (BitVec.ofNat 512 (memNat m a 64))) id
def execVld (core : Nat) (t : Fin 4) (vd : BitVec 4) (h : BitVec 6) (x : Bool) (off : BitVec 13) (s : State) :
    Host.Outcome State Fault Refusal := issue s (.core core) t (vldBody t vd h x off)

/-- VST (R197 to R199). -/
def vstBody (t : Fin 4) (vd : BitVec 4) (h : BitVec 6) (x : Bool) (off : BitVec 13) (slot : Nat) (s : State) : Res State :=
  let c := getCore s slot
  if rebinding c h.toNat || vecStalls c [vd] then .stall
  else match localHandle c 0 h.toNat true 64 (handleOffset c.th[t] off.toNat x) 64 with
    | .error f => .fault f
    | .ok a =>
      if tileHolds s slot a 64 true then .stall
      else (vecPush t slot s 0 none ⟨none, none, []⟩ id).andThen (fun s =>
        .ok (storeLocal s slot a (leBytes 64 (vreg c vd).toNat)))
def execVst (core : Nat) (t : Fin 4) (vd : BitVec 4) (h : BitVec 6) (x : Bool) (off : BitVec 13) (s : State) :
    Host.Outcome State Fault Refusal := issue s (.core core) t (vstBody t vd h x off)

end Sys2Proof.Machine
end

