-- ==== Sys2Proof/Machine/Tile.lean ====
section
/-! DEFINITION. The tile engine (R205 to R237): configuration, interlocks, matrix multiply-accumulate, accumulators,
memory images, weight update, and retirement. -/
namespace Sys2Proof.Machine

def ttDefault (_ : Nat) : Byte := 0
def tscaleDefault (_ : Nat) : Byte := 0x7F
def accDefault (_ : Nat) : Word := 0

/-! ### Configuration (R209, R237) -/

def tcfg (c : Core) (n : Nat) : Word := csrGet c (0x4000 + 4 * n)
def tRows (c : Core) (n : Nat) : Nat := (bits (tcfg c n) 0 5).toNat + 1
def tCols (c : Core) (n : Nat) : Nat := (bits (tcfg c n) 12 9).toNat + 1
def tFmt (c : Core) (n : Nat) : BitVec 4 := bits (tcfg c n) 24 4
def tSe (c : Core) (n : Nat) : Bool := bitOf (tcfg c n) 31

/-- The INFO word of a TILE_SHAPE or TILE_ACCESS frame (R236). -/
def tileInfo (role reason : Nat) : Word := BitVec.ofNat 32 (2 ^ 27 + role * 2 ^ 24 + reason)

def shapeFault (role reason : Nat) : FaultInfo := ⟨cTILE_SHAPE, 0, tileInfo role reason⟩

/-- The first check of R221 that a tile's configuration fails: its columns, its format, its scales, its mode. -/
def tileBad (c : Core) (role n : Nat) : Option FaultInfo :=
  let f := tFmt c n
  let reserved := fmtReserved f || f == 12
  if !reserved && lanesOf f < tCols c n then some (shapeFault role 1)
  else if reserved then some (shapeFault role 2)
  else if tSe c n && !fmtScalable f then some (shapeFault role 5)
  else if coreMode c = .guist ∧ (tSe c n ∨ !fmtGuist f false) then some (shapeFault role 6)
  else none

/-- The first of several checks. -/
def firstFault : List (Option FaultInfo) → Option FaultInfo
  | [] => none
  | some f :: _ => some f
  | none :: rest => firstFault rest

/-- A condition that a shape must meet. -/
def shapeIf (role reason : Nat) (bad : Bool) : Option FaultInfo := if bad then some (shapeFault role reason) else none

/-- TILE_ACCESS for a tile that another thread owns (R208): operand tiles 0 to 7, accumulators 8 to 11. -/
def ownFault (c : Core) (t : Fin 4) (role tile : Nat) : Option FaultInfo :=
  let nib : BitVec 4 := if tile < 8 then bits (csrGet c 0x4020) (4 * tile) 4 else bits (csrGet c 0x4024) (4 * (tile - 8)) 4
  if bitOf nib 3 ∧ (bits nib 0 2).toNat ≠ t.val then some ⟨cTILE_ACCESS, 0, tileInfo role 1⟩ else none

/-! ### Elements of tiles -/

/-- A row of a tile as a bit string of 64 bytes. -/
def ttRow (c : Core) (n r : Nat) : Nat := leNat ((upFrom (2048 * n + 64 * r) 64).map (tget ttDefault c.tt))

def tscaleGet (c : Core) (n r b : Nat) : Byte := tget tscaleDefault c.tscale (128 * n + 4 * r + b)

/-- Element `j` of row `r` as a value, with its scale if SE is set (R155 to R157, R210). -/
def ttVal (c : Core) (n r j : Nat) : FVal :=
  let code := elemOf (tFmt c n) (ttRow c n r) j
  if tSe c n then decodeScaled (tFmt c n) (tscaleGet c n r (j / 32)) code else decodeIn (coreMode c) (tFmt c n) code

/-- The values of the first `k` elements of a row. -/
def ttVals (c : Core) (n r k : Nat) : List FVal :=
  let row := ttRow c n r
  let f := tFmt c n
  let mode := coreMode c
  (upFrom 0 k).map (fun j =>
    let code := elemOf f row j
    if tSe c n then decodeScaled f (tscaleGet c n r (j / 32)) code else decodeIn mode f code)

/-- The format of ATa (R205). -/
def atFmt (c : Core) (a : Nat) : BitVec 4 := if bitOf c.accTypes a then 12 else 0

/-- A word of ATa, with the results of the MMA chain still in flight laid over it (R216); an MMA that ends in NAN_TRAP
commits nothing (R170). -/
def atWord (c : Core) (k : Nat) : Word :=
  c.tq.foldl (fun w o =>
    if o.isMma.isSome ∧ ¬ (o.trap ∧ o.nanEl.isSome) then ((o.atw.find? (fun p => p.1 == k)).map (·.2)).getD w else w)
    (tget accDefault c.accTiles k)

def atVal (c : Core) (a r j : Nat) : FVal :=
  decodeIn (coreMode c) (atFmt c a) (atWord c (1024 * a + 32 * r + j)).toNat

/-! ### Issue (R212 to R216) -/

/-- Occupancy and latency in the mode in effect (R174, R179, R213). -/
def tileTimes (mode : NMode) (o l : Nat) : Nat × Nat :=
  match mode with
  | .fast => (o, l)
  | .strict => (4 * o, l + 3 * o)
  | .guist => (8 * o, l + 7 * o)

/-- What a tile instruction does, beside where and when it issues. -/
structure TileWork where
  isMatrix : Bool
  occ : Nat
  lat : Nat
  reads : List Nat
  writes : List Nat
  isMma : Option Nat
  span : Option (Nat × Nat)
  spanWrite : Bool
  ttw : List (Nat × Byte)
  scw : List (Nat × Byte)
  atw : List (Nat × Word)
  atType : Option (Nat × Bool)
  memw : List Byte
  cls : Nat
  evs : List (Nat × Ev)
  poison : Option Word
  kept : Option KeptDraws

def TileWork.none : TileWork where
  isMatrix := false
  occ := 0
  lat := 0
  reads := []
  writes := []
  isMma := Option.none
  span := Option.none
  spanWrite := false
  ttw := []
  scw := []
  atw := []
  atType := Option.none
  memw := []
  cls := 0
  evs := []
  poison := Option.none
  kept := Option.none

/-- The pipe is occupied (R212). -/
def pipeBusy (s : State) (slot : Nat) (isMatrix : Bool) : Bool :=
  (getCore s slot).tq.any (fun o => o.isMatrix == isMatrix && decide (clockOf s slot < o.issued + o.occ))

/-- The interlocks of R215, with the exception of R216 for a chain of MMA into `chain`. -/
def interlocked (s : State) (slot : Nat) (reads writes : List Nat) (chain : Option Nat) : Bool :=
  (getCore s slot).tq.any (fun o =>
    let chained (x : Nat) : Bool :=
      match chain, o.isMma with
      | some a, some b => a == b && x == 8 + a && decide (commitAt o ≤ clockOf s slot)
      | _, _ => false
    reads.any (fun x => o.writes.contains x && !chained x) ||
    writes.any (fun x => (o.writes.contains x && !chained x) ||
      (o.reads.contains x && decide (clockOf s slot < commitAt o))))

/-- The lowest-numbered element that produced NaN (R171). -/
def firstNan : List (Nat × Ev) → Option Nat
  | [] => none
  | p :: ps =>
    let r := firstNan ps
    if p.2.nan then some (match r with
      | some e => min p.1 e
      | none => p.1)
    else r

/-- The instruction enters its pipe (R212 to R214). -/
def tilePush (t : Fin 4) (slot : Nat) (s : State) (w : TileWork) : Res State :=
  let c := getCore s slot
  let ty := tallyOf 0 (w.evs.map (·.2))
  let (occ, lat) := tileTimes (coreMode c) w.occ w.lat
  let op : TileOp :=
    { t := t, pc := c.th[t].pc, isMatrix := w.isMatrix, issued := clockOf s slot, occ := occ, lat := lat, reads := w.reads,
      writes := w.writes, isMma := w.isMma, span := w.span, spanWrite := w.spanWrite, ttw := w.ttw, scw := w.scw,
      atw := w.atw, atType := w.atType, memw := w.memw, cls := w.cls, sat := ty.sat, flush := ty.flush, nan := ty.nan,
      flags := if coreMode c = .strict then ty.fl else 0, nanEl := firstNan w.evs, trap := nanTrap c, poison := w.poison,
      kept := w.kept, fences := [] }
  let s := modCore s slot (fun c => { c with tq := c.tq ++ [op] })
  .ok (advance s slot t (fun th =>
    { th with block := if nanTrap c || w.poison.isSome then some .nanWait else th.block }))

/-- The order of R235. A pending change of the settings (R180, R211), an occupied pipe (R212), a tile in flight (R215) and a
rebind of the handle the instruction names (R262) hold it before its issue cycle; the checks of that cycle are the
encoding, TILE on PCC, ownership and the shape; then `k`. Several tiles of other
threads are reported in the order TTx, TTd or TTt, then TTy, then ATa (DESIGN CHOICE, log 158). -/
def tileBody (t : Fin 4) (encodingOk isMatrix : Bool) (handle : Option (BitVec 6)) (owned : List (Nat × Nat))
    (reads writes : List Nat) (chain : Option Nat) (shape : Core → Option FaultInfo) (k : State → Res State) (slot : Nat)
    (s : State) : Res State :=
  let c := getCore s slot
  if !c.numPend.isEmpty || !c.tcfgPend.isEmpty || pipeBusy s slot isMatrix || interlocked s slot reads writes chain ||
      handle.any (fun h => rebinding c h.toNat) then .stall
  else Res.check (legal encodingOk) (Res.check (needPcc c.th[t] pTILE)
    (Res.check (firstFault (owned.map (fun p => ownFault c t p.1 p.2))) (Res.check (shape c) (k s))))

/-- The work of an instruction without memory, entered at once. -/
def tileDo (t : Fin 4) (slot : Nat) (work : Core → TileWork) (s : State) : Res State :=
  tilePush t slot s (work (getCore s slot))

/-! ### Multiply-accumulate (R220, R221) -/

/-- The tile is an integer operand (R157, R160). -/
def tInt (c : Core) (n : Nat) : Bool := fmtInt (tFmt c n) && !tSe c n

def mmaShape (a x y : Nat) (c : Core) : Option FaultInfo :=
  firstFault [tileBad c 0 x, tileBad c 1 y, shapeIf 1 3 (tCols c x != tCols c y),
    shapeIf 2 4 ((accType (tInt c x) (tInt c y) == 12) != bitOf c.accTypes a)]

/-- One element of an MMA (R161, R179, R220). -/
def mmaElem (mode : NMode) (f : BitVec 4) (acc : FVal) (xs ys : List FVal) : Rounded :=
  let ps := (xs.zip ys).map (fun p => mulF p.1 p.2)
  match mode with
  | .guist =>
    let r := seqSum f acc ps
    let z := roundTo .guist f r.1
    ⟨z.code, evOr r.2 z.ev⟩
  | m => roundTo m f (sumF (acc :: ps))

def mmaWork (a x y : Nat) (c : Core) : TileWork :=
  let m := tRows c x
  let k := tCols c x
  let f := atFmt c a
  let mode := coreMode c
  let xr := (upFrom 0 m).map (fun i => ttVals c x i k)
  let yr := (upFrom 0 (tRows c y)).map (fun j => ttVals c y j k)
  let rs := ((upFrom 0 m).zip xr).flatMap (fun p =>
    ((upFrom 0 (tRows c y)).zip yr).map (fun q => (32 * p.1 + q.1, mmaElem mode f (atVal c a p.1 q.1) p.2 q.2)))
  { TileWork.none with
    isMatrix := true, occ := m, lat := m + 8, reads := [x, y, 8 + a], writes := [8 + a], isMma := some a,
    atw := rs.map (fun r => (1024 * a + r.1, BitVec.ofNat 32 r.2.code)), cls := 3, evs := rs.map (fun r => (r.1, r.2.ev)) }

/-- MMA (R220, R221). -/
def execMma (core : Nat) (t : Fin 4) (a : BitVec 2) (x y : BitVec 3) (s : State) : Host.Outcome State Fault Refusal :=
  issue s (.core core) t (fun slot s =>
    tileBody t true true none [(0, x.toNat), (1, y.toNat), (2, 8 + a.toNat)] [x.toNat, y.toNat, 8 + a.toNat] [8 + a.toNat]
      (some a.toNat) (mmaShape a.toNat x.toNat y.toNat) (tileDo t slot (mmaWork a.toNat x.toNat y.toNat)) slot s)

/-- TZERO (R223). -/
def tzeroWork (a : Nat) (int : Bool) (_ : Core) : TileWork :=
  { TileWork.none with
    occ := 1, lat := 2, writes := [8 + a], atw := (upFrom (1024 * a) 1024).map (fun k => (k, 0)), atType := some (a, int) }
def execTzero (core : Nat) (t : Fin 4) (a : BitVec 2) (int : Bool) (s : State) : Host.Outcome State Fault Refusal :=
  issue s (.core core) t (fun slot s =>
    tileBody t true false none [(2, 8 + a.toNat)] [] [8 + a.toNat] none (fun _ => none) (tileDo t slot (tzeroWork a.toNat int)) slot s)

/-! ### Writing an operand tile (R210) -/

/-- The bytes of tile `n` with the given element codes, row by row; every row beyond them, and every bit beyond the given
elements, is zero (R210). -/
def tileBytes (n : Nat) (f : BitVec 4) (rows : List (List Nat)) : List (Nat × Byte) :=
  let filled := ((upFrom 0 rows.length).zip rows).flatMap (fun p =>
    (upFrom 0 64).zip (leBytes 64 (packElems f p.2)) |>.map (fun q => (2048 * n + 64 * p.1 + q.1, q.2)))
  filled ++ (upFrom (2048 * n + 64 * rows.length) (64 * (32 - rows.length))).map (fun k => (k, 0))

/-- The scale bytes of tile `n` after an instruction that computed `new` (row, block, code): beyond the rows and wholly
beyond the columns 0x7F, the rest as they were (R210). -/
def scalePlane (c : Core) (n : Nat) (new : List (Nat × Nat × Nat)) : List (Nat × Byte) :=
  (upFrom 0 32).flatMap (fun r => (upFrom 0 4).map (fun b =>
    let k := 128 * n + 4 * r + b
    match new.find? (fun x => x.1 == r && x.2.1 == b) with
    | some x => (k, BitVec.ofNat 8 x.2.2)
    | none => if tRows c n ≤ r ∨ tCols c n ≤ 32 * b then (k, 0x7F) else (k, tget tscaleDefault c.tscale k)))

/-- The current codes of the configured columns of a row. -/
def rowCodes (c : Core) (n r : Nat) : List Nat := (upFrom 0 (tCols c n)).map (elemOf (tFmt c n) (ttRow c n r))

/-- Columns `dc` on of a row are replaced. -/
def spliceRow (row : List Nat) (dc : Nat) (new : List Nat) : List Nat := row.take dc ++ new ++ row.drop (dc + new.length)

/-! ### Accumulators to tiles (R224, R233, R234) -/

/-- The width of a block (R224). -/
def blockW (c : Core) (d : Nat) : Nat := if tFmt c d = 0 then 16 else 32

/-- The shape checks of a block of TTd (R224). REASON 0x07, and 0x08 for TTd's format, name TTd (DESIGN CHOICE, log 91). -/
def taccShape (d : Nat) (half : Bool) (dp : Nat) (c : Core) : Option FaultInfo :=
  let w := blockW c d
  firstFault [tileBad c 0 d, shapeIf 0 7 ((half && w == 32) || tCols c d < dp * w + w || (tSe c d && dp * w % 32 != 0))]

/-- A block written into TTd: `val i j` is the exact source of row i, column j, and `rnd` rounds element 32 i + j (R224,
R233). -/
def blockWork (c : Core) (a d dp occ lat cls : Nat) (isMatrix : Bool) (val : Nat → Nat → FVal) (rnd : Nat → FVal → Rounded)
    (kept : Option KeptDraws) : TileWork :=
  let w := blockW c d
  let f := tFmt c d
  let rows := (upFrom 0 (tRows c d)).map (fun i =>
    let vs := (upFrom 0 w).map (val i)
    if tSe c d then
      let b := blockWith (coreMode c) f (fun j => rnd (32 * i + j)) vs
      (some b.1, b.2)
    else (none, ((upFrom 0 w).zip vs).map (fun p => rnd (32 * i + p.1) p.2)))
  let idx := (upFrom 0 rows.length).zip rows
  { TileWork.none with
    isMatrix := isMatrix, occ := occ, lat := lat, reads := [d, 8 + a], writes := [d],
    ttw := tileBytes d f (idx.map (fun p => spliceRow (rowCodes c d p.1) (dp * w) (p.2.2.map (·.code)))),
    scw := if tSe c d then
        scalePlane c d (idx.filterMap (fun p => p.2.1.map (fun code => (p.1, dp * w / 32, code)))) else [],
    cls := cls,
    evs := idx.flatMap (fun p => ((upFrom 0 w).zip p.2.2).map (fun q => (32 * p.1 + (dp * w + q.1), q.2.ev))),
    kept := kept }

def sourceCol (half : Bool) : Nat := if half then 16 else 0

/-- TACC to a tile (R224). -/
def execTaccTile (core : Nat) (t : Fin 4) (d : BitVec 3) (a : BitVec 2) (half : Bool) (dp : BitVec 4) (s : State) :
    Host.Outcome State Fault Refusal :=
  issue s (.core core) t (fun slot s =>
    tileBody t true false none [(0, d.toNat), (2, 8 + a.toNat)] [d.toNat, 8 + a.toNat] [d.toNat] none
      (taccShape d.toNat half dp.toNat)
      (tileDo t slot (fun c =>
        blockWork c a.toNat d.toNat dp.toNat 8 11 5 false (fun i j => atVal c a.toNat i (sourceCol half + j))
          (fun _ => roundTo (coreMode c) (tFmt c d.toNat)) none)) slot s)

/-- The shape of TUPD and TLSUM (R234): of several causes the first in the order of R224, then ATa, then the format of TTd (DESIGN
CHOICE, log 159). -/
def tupdShape (d a : Nat) (half : Bool) (dp : Nat) (c : Core) : Option FaultInfo :=
  firstFault [taccShape d half dp c, shapeIf 2 8 (bitOf c.accTypes a),
    shapeIf 0 8 (!(fmtFloat (tFmt c d) || (tFmt c d == 8 && tSe c d)))]

/-- x of R233. -/
def tupdVal (c : Core) (a d dp : Nat) (half : Bool) (eb : BitVec 8) (i j : Nat) : FVal :=
  addF (ttVal c d i (dp * blockW c d + j)) (scaleBy eb.toInt (atVal c a i (sourceCol half + j)))

/-- TUPD (R233, R234). -/
def execTupd (core : Nat) (t : Fin 4) (d : BitVec 3) (a : BitVec 2) (half : Bool) (dp : BitVec 4) (eb : BitVec 8) (s : State) :
    Host.Outcome State Fault Refusal :=
  issue s (.core core) t (fun slot s =>
    tileBody t true true none [(0, d.toNat), (2, 8 + a.toNat)] [d.toNat, 8 + a.toNat] [d.toNat] none
      (tupdShape d.toNat a.toNat half dp.toNat)
      (tileDo t slot (fun c =>
        blockWork c a.toNat d.toNat dp.toNat 8 16 6 true (tupdVal c a.toNat d.toNat dp.toNat half eb)
          (fun _ => roundTo (coreMode c) (tFmt c d.toNat)) none)) slot s)

/-- TLSUM (R233, R175, R176): one draw for each element of the block, in row order. -/
def tlsumWork (core : Nat) (t : Fin 4) (d : BitVec 3) (a : BitVec 2) (half : Bool) (dp : BitVec 4) (eb : BitVec 8) (slot : Nat)
    (s : State) : Res State :=
  let c := getCore s slot
  let w := blockW c d.toNat
  let n := tRows c d.toNat * w
  let i : Instr := .tlsum core t d a half dp eb
  let g := takeDraws c t i n
  let ds := (drawList n g.1).1
  let work := blockWork c a.toNat d.toNat dp.toNat 8 16 7 true (tupdVal c a.toNat d.toNat dp.toNat half eb)
    (fun k v => roundLsum (coreMode c) (tFmt c d.toNat) (ds.getD (k / 32 * w + k % 32) 0) v) (keptOf c t i g.1)
  tilePush t slot (setCore s slot g.2) work
def execTlsum (core : Nat) (t : Fin 4) (d : BitVec 3) (a : BitVec 2) (half : Bool) (dp : BitVec 4) (eb : BitVec 8) (s : State) :
    Host.Outcome State Fault Refusal :=
  issue s (.core core) t (fun slot s =>
    tileBody t true true none [(0, d.toNat), (2, 8 + a.toNat)] [d.toNat, 8 + a.toNat] [d.toNat] none
      (tupdShape d.toNat a.toNat half dp.toNat) (tlsumWork core t d a half dp eb slot) slot s)

/-! ### Memory images (R226 to R232) -/

/-- The pitch of an image whose rows have `n` elements of format `f` (R226). -/
def pitch (f : BitVec 4) (n : Nat) : Nat := 64 * ((n * fmtWidth f + 511) / 512)

/-- The image of an instruction: resolved, aligned and within its handle (R227), and not held (R232). -/
def withImage (t : Fin 4) (slot : Nat) (h : BitVec 6) (x : Bool) (off : BitVec 9) (write : Bool) (size : Core → Nat)
    (k : State → Nat → Res State) (s : State) : Res State :=
  let c := getCore s slot
  let o := handleOffset c.th[t] off.toNat x
  match localHandle c 1 h.toNat write 64 o (size c) with
  | .error f => .fault f
  | .ok a => if tileHolds s slot a (size c) write then .stall else k s a

/-- The address of a poisoned image (R227, R235). -/
def imagePoison (s : State) (slot a n : Nat) : Option Word :=
  if memPoisoned 4 (getCore s slot).mem a n then some (BitVec.ofNat 32 a) else none

/-- Row `r` of the image at `a` as a bit string. -/
def imageRow (m : Mem) (a p r : Nat) : Nat := memNat m (a + r * p) p

/-- The dimensions of the image of TTt (R226). -/
def imageRows (c : Core) (n : Nat) (tr : Bool) : Nat := if tr then tCols c n else tRows c n
def imageCols (c : Core) (n : Nat) (tr : Bool) : Nat := if tr then tRows c n else tCols c n

def imageSize (c : Core) (n : Nat) (fs : BitVec 4) (tr : Bool) : Nat := imageRows c n tr * pitch fs (imageCols c n tr)

/-- Occupancy of an image of B bytes (R213). -/
def imageOcc (b : Nat) : Nat := max 8 ((b + 255) / 256)

/-- A format named for memory: a reserved one is ILLEGAL (R219), one that R179 excludes a shape fault. -/
def fsShape (c : Core) (fs : BitVec 4) : Option FaultInfo := shapeIf 3 6 (coreMode c == .guist && !fmtGuist fs false)

/-- TLD's work: raw where the formats agree, else converted (R228). -/
def tldWork (slot n : Nat) (fs : BitVec 4) (tr : Bool) (s : State) (a : Nat) : TileWork :=
  let c := getCore s slot
  let b := imageSize c n fs tr
  let p := pitch fs (imageCols c n tr)
  let f := tFmt c n
  let mode := coreMode c
  let rows := (upFrom 0 (imageRows c n tr)).map (imageRow c.mem a p)
  let code (r j : Nat) : Nat := if tr then elemOf fs (rows.getD j 0) r else elemOf fs (rows.getD r 0) j
  let base : TileWork :=
    { TileWork.none with
      occ := imageOcc b, lat := imageOcc b + 3, writes := [n], span := some (a, b), poison := imagePoison s slot a b, cls := 4 }
  let rs := upFrom 0 (tRows c n)
  if fs = f then
    { base with ttw := tileBytes n f (rs.map (fun r => (upFrom 0 (tCols c n)).map (code r))) }
  else if tSe c n then
    let out := rs.map (fun r =>
      scaledBlocks mode f (fun _ => roundTo mode f) ((tCols c n + 31) / 32) 0
        ((upFrom 0 (tCols c n)).map (fun j => decodeIn mode fs (code r j))))
    let idx := rs.zip out
    { base with
      ttw := tileBytes n f (out.map (fun bs => bs.flatMap (fun b => b.2.map (·.code)))),
      scw := scalePlane c n (idx.flatMap (fun q => ((upFrom 0 q.2.length).zip q.2).map (fun x => (q.1, x.1, x.2.1)))),
      evs := idx.flatMap (fun q =>
        let es := q.2.flatMap (·.2)
        ((upFrom 0 es.length).zip es).map (fun x => (32 * q.1 + x.1, x.2.ev))) }
  else
    let out := rs.map (fun r => (upFrom 0 (tCols c n)).map (fun j => roundTo mode f (decodeIn mode fs (code r j))))
    { base with
      ttw := tileBytes n f (out.map (fun es => es.map (·.code))),
      evs := (rs.zip out).flatMap (fun q => ((upFrom 0 q.2.length).zip q.2).map (fun x => (32 * q.1 + x.1, x.2.ev))) }

/-- TLD (R228). -/
def execTld (core : Nat) (t : Fin 4) (tt : BitVec 3) (h : BitVec 6) (x : Bool) (off : BitVec 9) (fs : BitVec 4) (tr : Bool)
    (s : State) : Host.Outcome State Fault Refusal :=
  issue s (.core core) t (fun slot s =>
    tileBody t (!fmtReserved fs) false (some h) [(0, tt.toNat)] [] [tt.toNat] none
      (fun c => firstFault [tileBad c 0 tt.toNat, fsShape c fs])
      (withImage t slot h x off false (fun c => imageSize c tt.toNat fs tr) (fun s a =>
        let s := settleLocal s slot a (imageSize (getCore s slot) tt.toNat fs tr)
        tilePush t slot s (tldWork slot tt.toNat fs tr s a))) slot s)

/-- The bytes of an image of rounded or raw codes: rows at pitch p, padding zero (R226, R229). -/
def imageBytes (f : BitVec 4) (p : Nat) (rows : List (List Nat)) : List Byte :=
  rows.flatMap (fun r => leBytes p (packElems f r))

/-- TST's work (R229); its elements are numbered in the image, which they are written to (R235). -/
def tstWork (c : Core) (n : Nat) (fs : BitVec 4) (tr : Bool) (a : Nat) : TileWork :=
  let b := imageSize c n fs tr
  let p := pitch fs (imageCols c n tr)
  let mode := coreMode c
  let base : TileWork :=
    { TileWork.none with
      occ := imageOcc b, lat := imageOcc b + 3, reads := [n], span := some (a, b), spanWrite := true, cls := 5 }
  let at' (r j : Nat) : Nat × Nat := if tr then (j, r) else (r, j)
  let rs := upFrom 0 (imageRows c n tr)
  let js := upFrom 0 (imageCols c n tr)
  if fs = tFmt c n then
    { base with memw := imageBytes fs p (rs.map (fun r => js.map (fun j =>
        let q := at' r j
        elemOf fs (ttRow c n q.1) q.2))) }
  else
    let out := rs.map (fun r => js.map (fun j =>
      let q := at' r j
      (32 * r + j, roundTo mode fs (ttVal c n q.1 q.2))))
    { base with
      memw := imageBytes fs p (out.map (fun r => r.map (·.2.code))),
      evs := (out.flatMap id).map (fun x => (x.1, x.2.ev)) }

/-- TST (R229). -/
def execTst (core : Nat) (t : Fin 4) (tt : BitVec 3) (h : BitVec 6) (x : Bool) (off : BitVec 9) (fs : BitVec 4) (tr : Bool)
    (s : State) : Host.Outcome State Fault Refusal :=
  issue s (.core core) t (fun slot s =>
    tileBody t (!fmtReserved fs) false (some h) [(0, tt.toNat)] [tt.toNat] [] none
      (fun c => firstFault [tileBad c 0 tt.toNat, fsShape c fs])
      (withImage t slot h x off true (fun c => imageSize c tt.toNat fs tr) (fun s a =>
        tilePush t slot s (tstWork (getCore s slot) tt.toNat fs tr a))) slot s)

/-- TLDS (R230). -/
def execTlds (core : Nat) (t : Fin 4) (tt : BitVec 3) (h : BitVec 6) (x : Bool) (off : BitVec 9) (s : State) :
    Host.Outcome State Fault Refusal :=
  issue s (.core core) t (fun slot s =>
    tileBody t true false (some h) [(0, tt.toNat)] [] [tt.toNat] none (fun c => tileBad c 0 tt.toNat)
      (withImage t slot h x off false (fun _ => 128) (fun s a =>
        let s := settleLocal s slot a 128
        tilePush t slot s
          { TileWork.none with
            occ := 1, lat := 4, writes := [tt.toNat], span := some (a, 128), poison := imagePoison s slot a 128, cls := 4,
            scw := (upFrom (128 * tt.toNat) 128).zip (memBytes (getCore s slot).mem a 128) })) slot s)

/-- TSTS (R230). -/
def execTsts (core : Nat) (t : Fin 4) (tt : BitVec 3) (h : BitVec 6) (x : Bool) (off : BitVec 9) (s : State) :
    Host.Outcome State Fault Refusal :=
  issue s (.core core) t (fun slot s =>
    tileBody t true false (some h) [(0, tt.toNat)] [tt.toNat] [] none (fun c => tileBad c 0 tt.toNat)
      (withImage t slot h x off true (fun _ => 128) (fun s a =>
        tilePush t slot s
          { TileWork.none with
            occ := 1, lat := 4, reads := [tt.toNat], span := some (a, 128), spanWrite := true, cls := 5,
            memw := (upFrom (128 * tt.toNat) 128).map (tget tscaleDefault (getCore s slot).tscale) })) slot s)

/-- The memory form of TACC (R225). -/
def taccMemWork (c : Core) (n : Nat) (fs : BitVec 4) (tr : Bool) (a : Nat) : TileWork :=
  let p := pitch fs 32
  let b := 32 * p
  let out := (upFrom 0 32).map (fun r => (upFrom 0 32).map (fun j =>
    let q := if tr then (j, r) else (r, j)
    (32 * r + j, roundTo (coreMode c) fs (atVal c n q.1 q.2))))
  { TileWork.none with
    occ := imageOcc b, lat := imageOcc b + 3, reads := [8 + n], span := some (a, b), spanWrite := true, cls := 5,
    memw := imageBytes fs p (out.map (fun r => r.map (·.2.code))),
    evs := (out.flatMap id).map (fun x => (x.1, x.2.ev)) }

/-- TACC to memory (R225). -/
def execTaccMem (core : Nat) (t : Fin 4) (a : BitVec 2) (h : BitVec 6) (x : Bool) (off : BitVec 9) (fs : BitVec 4) (tr : Bool)
    (s : State) : Host.Outcome State Fault Refusal :=
  issue s (.core core) t (fun slot s =>
    tileBody t (!fmtReserved fs) false (some h) [(2, 8 + a.toNat)] [8 + a.toNat] [] none (fun c => fsShape c fs)
      (withImage t slot h x off true (fun _ => 32 * pitch fs 32) (fun s a' =>
        tilePush t slot s (taccMemWork (getCore s slot) a.toNat fs tr a'))) slot s)

/-- TFENCE (R219): the thread goes on when every tile instruction now in flight has retired or been abandoned. Like every
tile instruction it does not issue while a change of the settings is pending (R180, R211). -/
def tfenceBody (t : Fin 4) (slot : Nat) (s : State) : Res State :=
  let c := getCore s slot
  if !c.numPend.isEmpty || !c.tcfgPend.isEmpty then .stall
  else Res.check (needPcc c.th[t] pTILE)
    (if c.tq.isEmpty then .ok (advance s slot t id)
     else
       let s := modCore s slot (fun c => { c with tq := c.tq.map (fun o => { o with fences := o.fences ++ [t] }) })
       .ok (advance s slot t (fun th => { th with block := some .tfence })))
def execTfence (core : Nat) (t : Fin 4) (s : State) : Host.Outcome State Fault Refusal := issue s (.core core) t (tfenceBody t)

/-! ### Retirement (R168, R170, R214, R235) -/

def putAll {α : Type} [DecidableEq α] (d : Nat → α) (m : Tab α) (l : List (Nat × α)) : Tab α :=
  l.foldl (fun m p => tset d m p.1 p.2) m

/-- The results of a tile instruction become visible. -/
def tileCommit (c : Core) (o : TileOp) : Core :=
  let c :=
    { c with
      tt := putAll ttDefault c.tt o.ttw, tscale := putAll tscaleDefault c.tscale o.scw,
      accTiles := putAll accDefault c.accTiles o.atw,
      accTypes := match o.atType with
        | some (a, true) => c.accTypes ||| oneAt 4 a
        | some (a, false) => c.accTypes &&& ~~~oneAt 4 a
        | none => c.accTypes,
      mem := match o.span with
        | some (a, _) => if o.spanWrite then memStore 4 c.mem a o.memw else c.mem
        | none => c.mem }
  let c := countClass c o.cls o.sat o.flush o.nan
  csrSet c 0x3004 (csrGet c 0x3004 ||| (zext o.flags <<< 8))

/-- The fault that ends a tile instruction, if any: poison in its image, or a first NaN (R170, R171, R235). -/
def tileFault (o : TileOp) : Option FaultInfo :=
  match o.poison with
  | some a => some ⟨cPOISON_CONSUMED, a, 0⟩
  | none =>
    match o.trap, o.nanEl with
    | true, some e => some ⟨cNAN_TRAP, 0, BitVec.ofNat 32 (2 ^ 27 + o.cls * 2 ^ 24 + e)⟩
    | _, _ => none

/-- The cycle from which the instruction can end: one before its commit point for a poisoned image, else its
result-ready cycle. -/
def endsAt (o : TileOp) : Nat := if o.poison.isSome then commitAt o - 1 else o.issued + o.lat

/-- The instruction of a pipe that ends first, of those whose cycle has come (R214). -/
def nextEnd (s : State) (slot : Nat) (isMatrix : Bool) : Option TileOp :=
  (getCore s slot).tq.foldl (fun best o =>
    if o.isMatrix != isMatrix || decide (clockOf s slot < endsAt o) then best
    else match best with
      | some b => if endsAt o < endsAt b then some o else best
      | none => some o) none

/-- An instruction of a pipe ends, also on a core that has halted meanwhile (DESIGN CHOICE, log 154). -/
def tileRetire (s : State) (slot : Nat) (isMatrix : Bool) : State :=
  match nextEnd s slot isMatrix with
  | none => s
  | some o =>
    let s := modCore s slot (fun c =>
      let c := { c with tq := c.tq.erase o }
      drainTile (if (tileFault o).isSome then c else tileCommit c o))
    let s := if (tileFault o).isSome then s
      else noteCounts (noteSet s (corePlace slot 0x3004) (zext o.flags <<< 8)) slot o.cls o.sat o.flush o.nan
    let s := modTh s slot o.t (fun th =>
      { th with block := if th.block = some .nanWait ∧ (o.trap ∨ o.poison.isSome) then none else th.block })
    match tileFault o with
    | none => s
    | some f => takeFault (modTh s slot o.t (fun th => keepDraws o.kept { th with pc := o.pc })) slot o.t f

/-- TILE_RETIRE (R214). -/
def execTileRetire (core : Nat) (isMatrix : Bool) (s : State) : Host.Outcome State Fault Refusal :=
  onCore s (.core core) (fun slot s => tileRetire s slot isMatrix)

end Sys2Proof.Machine
end

