-- ==== Sys2Proof/Machine/Debug.lean ====
section
/-! DEFINITION. The debug port (R136 to R145): stop, step and resume, the state that DBG_SEL selects, and the debug writes
of flags and barriers. -/
namespace Sys2Proof.Machine

/-! ### Stop, step and resume (R138 to R140) -/

/-- A STOP request reaches thread `t` (R138): a thread that is running, waiting or in escalation will stop at its next
boundary, and a waiting one stops at once. DESIGN CHOICE (log 97): a request for a thread that is NOT_RUNNING, STOPPED_FAULT,
STOPPED_DEBUG or HALTED is not kept; one that a closure held stays due if the thread stops in STOPPED_FAULT meanwhile. -/
def requestStop (s : State) (slot : Nat) (t : Fin 4) : State :=
  let st := (getTh s slot t).st
  if st = .running ∨ st = .waiting ∨ st = .escalation then
    let s := modTh s slot t (fun th => { th with stopReq := true, stepping := false })
    if st = .waiting ∧ stopDue s slot t then takeStop s slot t else s
  else s

/-- STEP (R140): the thread will issue one instruction and stop again. -/
def debugStep (s : State) (slot : Nat) (t : Fin 4) : State :=
  modTh s slot t (fun th => if th.st = .stoppedDebug then { th with st := .running, stepping := true, stopReq := false } else th)

/-- Debug RESUME (R112, R139): the thread issues the instruction at its PC again. -/
def debugResume (s : State) (slot : Nat) (t : Fin 4) : State :=
  modTh s slot t (fun th => if th.st = .stoppedDebug then { th with st := .running, stepping := false, stopReq := false } else th)

/-- A write to DBG_CMD (R145). -/
def debugCmd (s : State) (slot : Nat) (v : Word) : State :=
  let t : Fin 4 := Fin.ofNat 4 (bits v 4 2).toNat
  match (bits v 0 3).toNat with
  | 1 => requestStop s slot t
  | 2 => debugStep s slot t
  | 3 => debugResume s slot t
  | 4 => setEvent s slot t
  | 5 => allThreads.foldl (fun s t => requestStop s slot t) s
  | 6 => allThreads.foldl (fun s t => debugResume s slot t) s
  | _ => s

/-! ### The state that DBG_SEL selects (R141) -/

/-- Word `w` of a capability (R79). -/
def capWord (c : Cap) (w : Nat) : Word := leWord (slice (capBytes c) (4 * w) 4)

/-- The capability with word `w` replaced, and its tag clear (R141). -/
def capPutWord (c : Cap) (w : Nat) (v : Word) : Cap :=
  let bs := capBytes c
  capOfBytes (bs.take (4 * w) ++ leBytes 4 v.toNat ++ bs.drop (4 * w + 4)) false

/-- Capability `c` of R141: 0 to 7 as R83, 8 PCC with its cursor the PC (R79), 9 to 16 the gate-link entries. None for a
gate-link entry that is not in use. -/
def dbgCap (th : Thread) (c : Nat) : Option Cap :=
  match c with
  | 0 => some th.c1
  | 1 => some th.c2
  | 2 => some th.c3
  | 3 => some th.c4
  | 4 => some th.c5
  | 5 => some th.c6
  | 6 => some th.ddc
  | 7 => some th.sfc
  | 8 => some { th.pcc with cursor := th.pc }
  | _ => (th.glink[(c - 9) / 2]?).map (fun p => if (c - 9) % 2 = 0 then p.1 else p.2)

def setDbgCap (th : Thread) (c : Nat) (k : Cap) : Thread :=
  match c with
  | 0 => { th with c1 := k }
  | 1 => { th with c2 := k }
  | 2 => { th with c3 := k }
  | 3 => { th with c4 := k }
  | 4 => { th with c5 := k }
  | 5 => { th with c6 := k }
  | 6 => { th with ddc := k }
  | 7 => { th with sfc := k }
  | 8 => { th with pcc := k, pc := k.cursor }
  | _ => { th with glink := th.glink.modify ((c - 9) / 2) (fun p => if (c - 9) % 2 = 0 then (k, p.2) else (p.1, k)) }

/-- The value of a per-thread index, none where R141 lists none. -/
def dbgThreadGet (th : Thread) (i : Nat) : Option Word :=
  if i = 0 then some th.acc
  else if i = 1 then some (zext th.acg)
  else if i = 2 then some th.ix
  else if i = 3 then some th.iy
  else if i = 4 then some (flagsView th)
  else if i = 5 then some th.pc
  else if i = 6 then some (BitVec.ofNat 32 th.glink.length)
  else if 0x10 ≤ i ∧ i < 0x20 then some (wordAt th.rs (i - 0x10))
  else if 0x20 ≤ i ∧ i < 0x24 then some (wordAt th.staged (i - 0x20))
  else if i = 0x24 then some (BitVec.ofNat 32 th.staged.length)
  else if 0x100 ≤ i ∧ i < 0x144 then some (capWord ((dbgCap th ((i - 0x100) / 4)).getD Cap.null) (i % 4))
  else if 0x180 ≤ i ∧ i < 0x191 then some (ofBool 32 ((dbgCap th (i - 0x180)).getD Cap.null).tag)
  else none

/-- The thread after a write of a per-thread index. DESIGN CHOICE (log 98): a write of the gate-link depth takes values up to
4, and entries that come into use by it are null pairs. -/
def dbgThreadSet (th : Thread) (i : Nat) (v : Word) : Thread :=
  if i = 0 then { th with acc := v }
  else if i = 1 then { th with acg := bits v 0 8 }
  else if i = 2 then { th with ix := v }
  else if i = 3 then { th with iy := v }
  else if i = 4 then { th with flags := v &&& flagsMask }
  else if i = 5 then { th with pc := v }
  else if i = 6 then
    let d := min 4 (bits v 0 3).toNat
    { th with glink := th.glink.take d ++ List.replicate (d - th.glink.length) (Cap.null, Cap.null) }
  else if 0x10 ≤ i ∧ i < 0x20 then { th with rs := th.rs.set (i - 0x10) v }
  else if 0x20 ≤ i ∧ i < 0x24 then { th with staged := th.staged.set (i - 0x20) v }
  else if 0x100 ≤ i ∧ i < 0x144 then
    match dbgCap th ((i - 0x100) / 4) with
    | some c => setDbgCap th ((i - 0x100) / 4) (capPutWord c (i % 4) v)
    | none => th
  else th

/-- Half `h` of gate `g`, null while the gate is empty. -/
def gateHalf (c : Core) (g h : Nat) : Cap :=
  match gateGet c g with
  | some (cc, dd) => if h = 0 then cc else dd
  | none => Cap.null

/-- The value of a core-wide index, none where R141 lists none. -/
def dbgCoreGet (c : Core) (i : Nat) : Option Word :=
  if 0x200 ≤ i ∧ i < 0x240 then some (capWord (gateHalf c ((i - 0x200) / 8) (i / 4 % 2)) (i % 4))
  else if 0x280 ≤ i ∧ i < 0x290 then some (ofBool 32 (gateHalf c ((i - 0x280) / 2) (i % 2)).tag)
  else if 0x1000 ≤ i ∧ i < 0x1100 then some (bits (vreg c (BitVec.ofNat 4 (i / 16))) (32 * (i % 16)) 32)
  else if 0x2000 ≤ i ∧ i < 0x3000 then
    some (leWord ((upFrom (4 * (i - 0x2000)) 4).map (fun k => tget ttDefault c.tt k)))
  else if 0x3000 ≤ i ∧ i < 0x4000 then some (tget accDefault c.accTiles (i - 0x3000))
  else none

/-- The core after a write of a core-wide index. -/
def dbgCoreSet (c : Core) (i : Nat) (v : Word) : Core :=
  if 0x200 ≤ i ∧ i < 0x240 then
    match gateGet c ((i - 0x200) / 8) with
    | some (cc, dd) =>
      let p := if i / 4 % 2 = 0 then (capPutWord cc (i % 4) v, dd) else (cc, capPutWord dd (i % 4) v)
      { c with gates := tset gateDefault c.gates ((i - 0x200) / 8) (some p) }
    | none => c
  else if 0x1000 ≤ i ∧ i < 0x1100 then
    let n : BitVec 4 := BitVec.ofNat 4 (i / 16)
    { c with vregs := tset vregDefault c.vregs n.toNat (setBits (vreg c n) (32 * (i % 16)) v) }
  else if 0x2000 ≤ i ∧ i < 0x3000 then
    { c with tt := putAll ttDefault c.tt ((upFrom 0 4).map (fun k => (4 * (i - 0x2000) + k, bits v (8 * k) 8))) }
  else if 0x3000 ≤ i ∧ i < 0x4000 then
    { c with accTiles := tset accDefault c.accTiles (i - 0x3000) v }
  else c

/-- DBG_SEL: the selected thread and index (R145). -/
def dbgSel (c : Core) : Fin 4 × Nat :=
  (Fin.ofNat 4 (bits (csrGet c 0x9008) 16 2).toNat, (bits (csrGet c 0x9008) 0 16).toNat)

/-- The selected state may be accessed now, and its value (R141). -/
def dbgAllowed (c : Core) : Option Word :=
  let (t, i) := dbgSel c
  let th := c.th[t]
  if i < 0x200 then
    match th.st with
    | .stoppedDebug | .stoppedFault | .notRunning | .halted => dbgThreadGet th i
    | _ => none
  else if allThreads.any (fun k => c.th[k].st == .running || c.th[k].st == .waiting) then none
  else dbgCoreGet c i

/-- A refused access of DBG_DATA sets SELERR (R141). -/
def selRefused (s : State) (slot : Nat) : State :=
  noteSet (modCore s slot (fun c => { c with selErr := true })) (corePlace slot 0x9004) 0x40000000

/-- A read of DBG_DATA (R141). -/
def dbgRead (s : State) (slot : Nat) : State × Word :=
  match dbgAllowed (getCore s slot) with
  | some v => (s, v)
  | none => (selRefused s slot, 0)

/-- A write of DBG_DATA (R141). -/
def dbgWrite (s : State) (slot : Nat) (v : Word) : State :=
  match dbgAllowed (getCore s slot) with
  | some _ =>
    modCore s slot (fun c =>
      let (t, i) := dbgSel c
      if i < 0x200 then coreModTh c t (fun th => dbgThreadSet th i v) else dbgCoreSet c i v)
  | none => selRefused s slot

/-! ### Flags and barriers (R143, R144) -/

/-- A DBG_FLAG write of counter `f` (R143): the waiters are then served. -/
def dbgFlag (s : State) (slot : Nat) (f : BitVec 6) (v : BitVec 8) : State :=
  modCore s slot (fun c => let c := flagSet c f.toNat v; releaseWaiters c f (flagWaiters c f))

/-- A store to DBG_FLAG (R145). -/
def writeDbgFlag (s : State) (slot : Nat) (v : Word) : State :=
  let s := modCore s slot (fun c => csrSet c 0x9010 (v &&& 0x003F0000))
  if bitOf v 31 then dbgFlag s slot (bits v 16 6) (bits v 0 8) else s

/-- ARRIVE (R144): as the core's own arrival. -/
def dbgArrive (s : State) (slot : Nat) (n : BitVec 4) : State :=
  if isMember (getCore s slot) n.toNat then arrive s slot n.toNat else notMember s slot n

/-- WITHDRAW (R144): no effect once the network's last arrival, or this device's in a fabric tree, is recorded. -/
def dbgWithdraw (s : State) (slot : Nat) (n : BitVec 4) : State :=
  if bitOf s.barDue n.toNat || (spans s n.toNat && (getTree s n.toNat).ownBar) then s
  else modCore s slot (fun c => { c with barArr := c.barArr &&& ~~~oneAt 16 n.toNat })

/-- A store to DBG_BARRIER (R145). DESIGN CHOICE (log 99): with both bits set the core arrives and then withdraws. -/
def writeDbgBarrier (s : State) (slot : Nat) (v : Word) : State :=
  let s := modCore s slot (fun c => csrSet c 0x9014 (v &&& 0x000F0000))
  let s := if bitOf v 31 then dbgArrive s slot (bits v 16 4) else s
  if bitOf v 30 then dbgWithdraw s slot (bits v 16 4) else s

/-! ### The commands -/

/-- A debug access reaches a core, and wakes its cluster (R532). -/
def onDebug (s : State) (cpu : Cpu) (f : Nat → State → State) : Host.Outcome State Fault Refusal :=
  onCore s cpu (fun slot s => f slot (if isSo slot then s else wakeCause s (clusterOf slot)))

/-- DBG_STOP (R138). -/
def execDbgStop (cpu : Cpu) (t : Fin 4) (s : State) : Host.Outcome State Fault Refusal :=
  onDebug s cpu (fun slot s => requestStop s slot t)

/-- DEBUG_STOP_TAKEN (R138): the boundary at which a requested stop is taken. -/
def execDebugStopTaken (cpu : Cpu) (t : Fin 4) (s : State) : Host.Outcome State Fault Refusal :=
  onCore s cpu (fun slot s => if stopDue s slot t then takeStop s slot t else s)

/-- DBG_STEP (R140). -/
def execDbgStep (cpu : Cpu) (t : Fin 4) (s : State) : Host.Outcome State Fault Refusal :=
  onDebug s cpu (fun slot s => debugStep s slot t)

/-- DBG_RESUME (R145). -/
def execDbgResume (cpu : Cpu) (t : Fin 4) (s : State) : Host.Outcome State Fault Refusal :=
  onDebug s cpu (fun slot s => debugResume s slot t)

/-- DBG_EVENT (R123, R126). -/
def execDbgEvent (cpu : Cpu) (t : Fin 4) (s : State) : Host.Outcome State Fault Refusal :=
  onDebug s cpu (fun slot s => setEvent s slot t)

/-- DBG_STOP_ALL (R145). -/
def execDbgStopAll (cpu : Cpu) (s : State) : Host.Outcome State Fault Refusal :=
  onDebug s cpu (fun slot s => debugCmd s slot 5)

/-- DBG_RESUME_ALL (R145). -/
def execDbgResumeAll (cpu : Cpu) (s : State) : Host.Outcome State Fault Refusal :=
  onDebug s cpu (fun slot s => debugCmd s slot 6)

/-- DBG_DATA_ACCESS (R141): a read leaves its word as an output. -/
def execDbgDataAccess (cpu : Cpu) (write : Option (BitVec 32)) (s : State) : Host.Outcome State Fault Refusal :=
  onDebug s cpu (fun slot s =>
    match write with
    | some v => dbgWrite s slot v
    | none => let (s, v) := dbgRead s slot; { s with outbox := s.outbox ++ [.word v] })

/-- DBG_FLAG_WRITE (R143). -/
def execDbgFlagWrite (core : Nat) (index : BitVec 6) (value : BitVec 8) (s : State) : Host.Outcome State Fault Refusal :=
  onDebug s (.core core) (fun slot s => writeDbgFlag s slot (0x80000000 ||| (zext index <<< 16) ||| zext value))

/-- DBG_BARRIER_ARRIVE (R144). -/
def execDbgBarrierArrive (core : Nat) (net : BitVec 4) (s : State) : Host.Outcome State Fault Refusal :=
  onDebug s (.core core) (fun slot s => writeDbgBarrier s slot (0x80000000 ||| (zext net <<< 16)))

/-- DBG_BARRIER_WITHDRAW (R144). -/
def execDbgBarrierWithdraw (core : Nat) (net : BitVec 4) (s : State) : Host.Outcome State Fault Refusal :=
  onDebug s (.core core) (fun slot s => writeDbgBarrier s slot (0x40000000 ||| (zext net <<< 16)))

end Sys2Proof.Machine
end

