-- ==== Sys2Proof/Machine/Csr.lean ====
section
/-! DEFINITION. The core CSR pages (R111, R126 to R145, R182, R203, R237, R262 to R265, R301, R314, R346, R347, R371): what
a read returns, what a store does, and the rows of the table that are such stores. -/
namespace Sys2Proof.Machine

/-! ### Reads -/

/-- The state code of a thread (R112). -/
def stateCode : TState → Nat
  | .notRunning => 0
  | .running => 1
  | .waiting => 2
  | .stoppedFault => 3
  | .stoppedDebug => 4
  | .escalation => 5
  | .halted => 6

/-- The state code of a stream unit (R301). -/
def streamCode : SState → Nat
  | .idle => 0
  | .run => 1
  | .waitRing => 2
  | .waitData => 3
  | .layer => 4
  | .fault => 5

/-- The weight of thread `k` in the slot table in effect (R116). -/
def weightOf (c : Core) (k : Fin 4) : Nat :=
  ((upFrom 0 8).filter (fun p =>
    let e := csrGet c (0x1020 + 4 * p)
    !bitOf e 8 && (bits e 0 2).toNat == k.val)).length

/-- NOTIFY_PEND (R132). -/
def notifyPend (s : State) (slot : Nat) : Word :=
  (pendingNotes s slot).foldl (fun acc n => match n with
    | .stopped k _ _ _ => acc ||| oneAt 32 k.val
    | .orphan _ _ => acc ||| 0x10) 0

/-- Number of thread `k` of a per-thread group of registers that starts at `o0`. -/
def thIx (o o0 : Nat) : Fin 4 := Fin.ofNat 4 ((o - o0) / 4)

/-- CLOSE_STATk (R111). -/
def closeStat (s : State) (slot : Nat) (k : Fin 4) : Word :=
  match (getTh s slot k).closeEnd with
  | none => 0
  | some e => 0x80000000 ||| BitVec.ofNat 32 (min 0x7FF (e - clockOf s slot))

/-- The instruction that occupies a pipe of the tile engine (R237). -/
def pipeOp (s : State) (slot : Nat) (matrix : Bool) : Option TileOp :=
  (getCore s slot).tq.find? (fun o => o.isMatrix == matrix && decide (clockOf s slot < o.issued + o.occ))

/-- TILE_STAT (R237). -/
def tileStat (s : State) (slot : Nat) : Word :=
  let f (o : Option TileOp) (busy sh : Nat) : Word :=
    match o with
    | some o => oneAt 32 busy ||| (BitVec.ofNat 32 o.t.val <<< sh)
    | none => 0
  f (pipeOp s slot true) 31 18 ||| f (pipeOp s slot false) 30 16 ||| ofBool 32 (!(getCore s slot).tcfgPend.isEmpty)

/-- SSTATu (R301). -/
def streamStat (su : StreamUnit) : Word :=
  (BitVec.ofNat 32 (streamCode su.st) <<< 29) ||| (ofBool 32 su.err <<< 28) ||| (ofBool 32 su.nextHalf <<< 26) |||
    (zext su.held <<< 24) ||| (BitVec.ofNat 32 (su.pc % 64) <<< 16) ||| BitVec.ofNat 32 (su.last % 8192)

/-- The head of the dead-letter queue as DLQ_STAT shows it (R346). -/
def dlqStat (c : Core) : Word :=
  match c.dlq with
  | [] => 0
  | d :: _ => (BitVec.ofNat 32 c.dlq.length <<< 24) ||| (zext d.status <<< 16) ||| (zext d.kind <<< 8) ||| zext d.origin

/-- The current value of the word at offset `o` of the core CSR pages; DBG_DATA aside, whose read is `dbgRead`. -/
def csrView (s : State) (slot o : Nat) : Word :=
  let c := getCore s slot
  if o = 0x0044 then
    allThreads.foldl (fun acc k => acc ||| (BitVec.ofNat 32 c.th[k].pend.length <<< (8 * k.val))) 0
  else if 0x1040 ≤ o ∧ o < 0x1050 then
    let k := thIx o 0x1040
    let th := c.th[k]
    (BitVec.ofNat 32 (stateCode th.st) <<< 24) ||| (ofBool 32 th.ev <<< 20) ||| (BitVec.ofNat 32 (weightOf c k) <<< 16) |||
      zext th.cause
  else if o = 0x1060 then notifyPend s slot
  else if o = 0x1070 then cycleReg s slot
  else if o = 0x2018 then (upFrom 0 8).foldl (fun acc g => if (gateGet c g).isSome then acc ||| oneAt 32 g else acc) 0
  else if 0x2020 ≤ o ∧ o < 0x2030 then closeStat s slot (thIx o 0x2020)
  else if o = 0x2030 then
    (ofBool 32 c.halted <<< 31) ||| (ofBool 32 c.escActive <<< 30) ||| (BitVec.ofNat 32 c.escThread.val <<< 16) ||| zext c.escCause
  else if o = 0x3010 then bits c.seed 0 32
  else if o = 0x3014 then bits c.seed 32 32
  else if o = 0x4028 then zext c.accTypes
  else if o = 0x402C then tileStat s slot
  else if 0x5000 ≤ o ∧ o < 0x5400 then bits (handleGet c ((o - 0x5000) / 16)) (8 * (o % 16)) 32
  else if o = 0x5404 then (ofBool 32 c.rebind.isSome <<< 31) ||| zext c.rebinds
  else if 0x6400 ≤ o ∧ o < 0x6480 ∧ o % 0x20 = 0x0C then streamStat c.su[Fin.ofNat 4 ((o - 0x6400) / 0x20)]
  else if 0x6400 ≤ o ∧ o < 0x6480 ∧ o % 0x20 = 0x10 then BitVec.ofNat 32 (deadline c (Fin.ofNat 4 ((o - 0x6400) / 0x20)))
  else if 0x7010 ≤ o ∧ o < 0x7020 then csrGet c o ||| (BitVec.ofNat 32 c.queues[thIx o 0x7010].length <<< 16)
  else if o = 0x7020 then (ofBool 32 c.pdActive <<< 31) ||| zext c.pdQueue
  else if 0x7030 ≤ o ∧ o < 0x7040 then
    match c.dlq with
    | [] => 0
    | d :: _ => bits d.words (8 * (o - 0x7030)) 32
  else if o = 0x7040 then dlqStat c
  else if 0x7100 ≤ o ∧ o < 0x7200 ∧ o % 8 = 4 then
    let e := (o - 0x7100) / 8
    csrGet c o ||| (ofBool 32 (tget closedDefault c.chClosed e) <<< 30) ||| (zext (tget creditDefault c.credit e) <<< 8)
  else if 0x8000 ≤ o ∧ o < 0x8040 then
    leWord ((upFrom (o - 0x8000) 4).map (fun f => flagGet c f))
  else if o = 0x8084 then zext c.barArr
  else if o = 0x9004 then
    (ofBool 32 (attached s slot) <<< 31) ||| (ofBool 32 c.selErr <<< 30) |||
      allThreads.foldl (fun acc k => if c.th[k].st = .stoppedDebug then acc ||| oneAt 32 k.val else acc) 0
  else if o = 0x9010 then csrGet c o ||| zext (flagGet c (bits (csrGet c o) 16 6).toNat)
  else if o = 0x9014 then csrGet c o ||| ofBool 32 (bitOf c.barArr (bits (csrGet c o) 16 4).toNat)
  else csrGet c o

/-! ### The shadow of 64-bit registers (R8) -/

def shadowDefault (_ : Nat) : Option Word := none

/-- The key of a requester's shadow of the high word at `place`. -/
def shadowKey (req place : Nat) : Nat := req * 2 ^ 32 + place

/-- A read of the low word captures the high word. -/
def captureHigh (s : State) (req place : Nat) (high : Word) : State :=
  { s with shadows := tset shadowDefault s.shadows (shadowKey req place) (some high) }

/-- The next read of the high word returns the shadow and uses it up. -/
def takeHigh (s : State) (req place : Nat) (now : Word) : State × Word :=
  match tget shadowDefault s.shadows (shadowKey req place) with
  | some v => ({ s with shadows := tset shadowDefault s.shadows (shadowKey req place) none }, v)
  | none => (s, now)

/-- The requesters of register reads (R8): a thread, the window of a cluster, another device, and the host. -/
def reqThread (slot : Nat) (t : Fin 4) : Nat := 4 * slot + t.val
def reqWindow (c : Fin 8) : Nat := 4096 + c.val
def reqDevice (dev : BitVec 16) : Nat := 8192 + dev.toNat
def reqHost : Nat := 4200

/-- A read of VSEN or a VSCALE stalls while a vector instruction is in flight (R202). -/
def csrReadStalls (c : Core) (o : Nat) : Bool := decide (0x4C00 ≤ o ∧ o ≤ 0x4C40) && !c.vq.isEmpty

/-- A read of the word at `o` by the requester `req` (R4, R8, R141). -/
def csrLoad (s : State) (slot req o : Nat) : State × Word :=
  if o = 0x900C then dbgRead s slot
  else if o = 0x3010 then
    (captureHigh s req (corePlace slot 0x3014) (csrView s slot 0x3014), csrView s slot o)
  else if o = 0x3014 then takeHigh s req (corePlace slot o) (csrView s slot o)
  else (s, csrView s slot o)

/-! ### Stores that wait -/

/-- The storing thread stalls; the window has none. -/
def blockOn (s : State) (slot : Nat) (who : Requester) (b : Block) : State :=
  match who with
  | .thread t => modTh s slot t (fun th => { th with block := some b })
  | .window => s

/-- The storing thread goes on. -/
def unblock (s : State) (slot : Nat) (who : Requester) : State :=
  match who with
  | .thread t => modTh s slot t (fun th => { th with block := none })
  | .window => s

/-- A value loaded into the generator state: zero becomes the reset value (R177). -/
def seedOf (v : BitVec 64) : BitVec 64 := if v = 0 then 0x9E3779B97F4A7C15 else v

/-- The generator state is loaded, and draws that abandoned instructions kept are discarded (R176, R177). -/
def loadSeed (c : Core) (v : BitVec 64) : Core :=
  { c with seed := seedOf v, th := c.th.map (fun th => { th with kept := none }) }

/-- A store to NUMERIC_CTL or NUM_SEED_HI takes effect (R180). -/
def applyNum (c : Core) (p : PendSet) : Core :=
  let c := if p.off = 0x3000 then csrSet c 0x3000 (bits p.value 0 32 &&& 7) else loadSeed c p.value
  match p.who with
  | .thread t => coreModTh c t (fun th => { th with block := none })
  | .window => c

/-- The numeric settings take effect once no vector or tile instruction is in flight (R180). -/
def drainNum (c : Core) : Core :=
  if c.vq.isEmpty ∧ c.tq.isEmpty then c.numPend.foldl applyNum { c with numPend := [] } else c

/-- A store to NUMERIC_CTL or NUM_SEED_HI (R180). -/
def storeNumeric (s : State) (slot : Nat) (who : Requester) (o : Nat) (v : BitVec 64) : State :=
  let s := blockOn s slot who .settings
  modCore s slot (fun c => drainNum { c with numPend := c.numPend ++ [⟨who, o, v, 0⟩] })

/-- A store to NUMERIC_CTL by a program sets MODEW (R181). -/
def noteMode (s : State) (slot : Nat) (who : Requester) : State :=
  match who with
  | .thread _ => noteSet (modCore s slot (fun c => csrSet c 0x3008 1)) (corePlace slot 0x3008) 1
  | .window => s

/-- A store to VSEN or a VSCALE (R202): it takes effect at once where no vector instruction is in flight. -/
def storeVscale (s : State) (slot : Nat) (who : Requester) (o : Nat) (v : Word) : State :=
  let n := (getCore s slot).vq.length
  let v := (coreReg o).write 0 v
  if n = 0 then modCore s slot (fun c => csrSet c o v)
  else
    modCore (blockOn s slot who .vscale) slot (fun c =>
      { c with vscalePend := c.vscalePend ++ [⟨who, o, v.setWidth 64, n⟩] })

/-- A store to a TILE_CFG or TILE_OWN (R211): it takes effect at once where no tile instruction is in flight. -/
def storeTile (s : State) (slot : Nat) (who : Requester) (o : Nat) (v : Word) : State :=
  let v := (coreReg o).write 0 v
  let s := blockOn s slot who .tileCfg
  modCore s slot (fun c => drainTile { c with tcfgPend := c.tcfgPend ++ [⟨who, o, v.setWidth 64, 0⟩] })

/-! ### HREBIND (R262 to R264) -/

/-- The first invalid descriptor of a list, with its position and REASON. -/
def firstBad : Nat → List (BitVec 128) → Option (Nat × Nat)
  | _, [] => none
  | i, d :: ds =>
    match descBad d with
    | some r => some (i, r)
    | none => firstBad (i + 1) ds

/-- The address of the first poisoned word among the `n` bytes at `a` of the core's local memory. -/
def poisonAt (s : State) (slot a n : Nat) : Option Nat :=
  (wordsOf 4 a n).find? (fun w => memCheck (getCore s slot).mem w == .poison) |>.map (4 * ·)

/-- A read of the `n` bytes at `a` of local memory by a doorbell or a rebind, checked as a scalar read of the thread (R38,
R42, R45); through the window only poison is checked (R492). -/
def readBlock (s : State) (slot : Nat) (who : Requester) (a n : Nat) : Res (State × List Byte) :=
  let chk : Option FaultInfo :=
    match who with
    | .thread t => capCheck (getTh s slot t).ddc a n pLOAD
    | .window => none
  Res.check chk
    (if 0x80000 < a + n then .fault (addrFault cILLEGAL a)
     else if tileHolds s slot a n false then .stall
     else
       let s := settleLocal s slot a n
       match poisonAt s slot a n with
       | some p => .after s (addrFault cPOISON_CONSUMED p)
       | none => .ok (s, memBytes (getCore s slot).mem a n))

/-- The `n` descriptors in a run of bytes. -/
def descsOf : Nat → List Byte → List (BitVec 128)
  | 0, _ => []
  | n + 1, bs => BitVec.ofNat 128 (leNat (bs.take 16)) :: descsOf n (bs.drop 16)

/-- A store to HREBIND does not issue while the core is rebinding (R263). -/
def rebindHolds (s : State) (slot o : Nat) : Bool := o / 4 == 0x1500 && (getCore s slot).rebind.isSome

/-- A store to HREBIND (R262, R263). The flag says whether the storing thread's instruction completes: it does not where
a descriptor is invalid, because the fault then reports that instruction. While a rebind is in progress the store does not issue (R263). -/
def storeRebind (s : State) (slot : Nat) (who : Requester) (v : Word) : Res (State × Bool) :=
  let count := (bits v 8 7).toNat
  let first := (bits v 0 6).toNat
  let a := 16 * (bits v 16 15).toNat
  if (getCore s slot).rebind.isSome then .stall
  else if count = 0 ∨ 64 < count ∨ 64 < first + count then .fault ⟨cHANDLE, 0, handleInfo 2 7 first⟩
  else
    (readBlock s slot who a (16 * count)).andThen (fun (s, bs) =>
      let descs := descsOf count bs
      let pc := match who with
        | .thread t => (getTh s slot t).pc
        | .window => 0
      let r : Rebind := ⟨who, pc, first, a, descs, clockOf s slot + 8 + 4 * count⟩
      let s := modCore (blockOn s slot who .rebind) slot (fun c => { c with rebind := some r })
      .ok (s, (firstBad 0 descs).isNone))

/-- CL_STAT.CSRERR of the core's cluster is set (R492). -/
def windowRefused (s : State) (slot : Nat) : State :=
  let c := clusterOf slot
  noteSet (modCl s c (fun k => { k with csrErr := true })) (clBase c + 4) 0x20000000

/-- The handles from `first` take their descriptors. -/
def putHandles (m : Tab (BitVec 128)) : Nat → List (BitVec 128) → Tab (BitVec 128)
  | _, [] => m
  | h, d :: ds => putHandles (tset handleDefault m h d) (h + 1) ds

/-- The rebind in progress completes, or faults on the storing thread (R262 steps 4 and 5). -/
def finishRebind (s : State) (slot : Nat) : State :=
  match (getCore s slot).rebind with
  | none => s
  | some r =>
    let s := modCore (unblock s slot r.who) slot (fun c => { c with rebind := none })
    match firstBad 0 r.descs with
    | none =>
      modCore s slot (fun c => { c with handles := putHandles c.handles r.first r.descs, rebinds := c.rebinds + 1 })
    | some (i, reason) =>
      match r.who with
      | .thread t => takeFault s slot t ⟨cHANDLE, BitVec.ofNat 32 (r.addr + 16 * i), handleInfo 2 reason (r.first + i)⟩
      | .window => windowRefused s slot

/-! ### The doorbell and far reads from a core (R304, R312) -/

/-- A release at device scope waits for the thread's shared-SRAM stores (R356); the window has none. -/
def releaseWaits (s : State) (slot : Nat) (who : Requester) : Bool :=
  match who with
  | .thread t => !(getTh s slot t).pend.isEmpty
  | .window => false

/-- A store to CDOOR (R304): its checks and its handles are of the cycle in which it issues; on a channel that is not IDLE the
thread then waits for it. A window access waits at the window (R492). -/
def storeDoor (s : State) (slot : Nat) (who : Requester) (v : Word) : Res (State × Bool) :=
  let n := coreOf s slot
  let k := 16 * (clusterOf slot).val + (bits v 0 4).toNat
  let own := chReg s k 0x28
  if !bitOf own 31 || (bits own 0 10).toNat != n then .fault (addrFault cCAP_PERM 0x00106480)
  else
    let a := 32 * (bits v 16 14).toNat
    (readBlock s slot who a 32).andThen (fun (s, bs) =>
      (ringDoorbell s slot n k a bs).andThen (fun d =>
        if releaseWaits s slot who then .stall
        else if (getCh s k).st = .idle then .ok (takeDoor s d, true)
        else match who with
          | .thread _ => .ok (blockOn s slot who (.door d ⟨0, 0, none⟩), false)
          | .window => .stall))

/-- A store to FGOk (R312). -/
def storeFgo (s : State) (slot : Nat) (who : Requester) (k : Fin 4) (v : Word) : Res (State × Bool) :=
  (startFarRead s slot (coreOf s slot) k (0x00106494 + 8 * k.val) v).andThen (fun s =>
    if releaseWaits s slot who then .stall else .ok (s, true))

/-! ### Stores -/

/-- A nibble of FSCOPE: 6 and 7 store 1, and bit 3 is reserved (R347). -/
def scopeNibble (v : BitVec 4) : BitVec 4 := if 6 ≤ (bits v 0 3).toNat then 1 else v &&& 7

def scopeWord (v : Word) : Word :=
  (upFrom 0 8).foldl (fun w j => setBits w (4 * j) (scopeNibble (bits v (4 * j) 4))) v

/-- A store of `v` to the word at offset `o` of the core CSR pages, after the checks of R38, R7 and PCC. The flag says
whether the storing instruction completes now. -/
def csrStore (s : State) (slot : Nat) (who : Requester) (o : Nat) (v : Word) : Res (State × Bool) :=
  let done (s : State) : Res (State × Bool) := .ok (s, true)
  let put (f : Core → Core) : Res (State × Bool) := done (modCore s slot f)
  if o = 0x1004 then
    let k : Fin 4 := Fin.ofNat 4 (bits v 4 2).toNat
    done (if bits v 0 3 = 1 then doStart s slot k else if bits v 0 3 = 2 then doResume s slot k else s)
  else if 0x1020 ≤ o ∧ o < 0x1040 then
    put (fun c => { c with slotPend := c.slotPend ++ [(o, (coreReg o).write 0 v)] })
  else if o = 0x2010 then
    let n := (bits v 0 11).toNat
    put (fun c => csrSet c o (BitVec.ofNat 32 (min n 1024)))
  else if o = 0x2014 then put (fun c => csrSet c o (csrGet c o ||| (v &&& 0xFF)))
  else if o = 0x3000 then done (storeNumeric (noteMode s slot who) slot who o (v.setWidth 64))
  else if o = 0x3010 then put (fun c => { c with seedLo := v })
  else if o = 0x3014 then done (storeNumeric s slot who o (v ++ (getCore s slot).seedLo))
  else if 0x4000 ≤ o ∧ o < 0x4028 then done (storeTile s slot who o v)
  else if 0x4C00 ≤ o ∧ o ≤ 0x4C40 then done (storeVscale s slot who o v)
  else if o = 0x5400 then storeRebind s slot who v
  else if 0x6000 ≤ o ∧ o < 0x6400 then
    done (streamProgWrite s slot (Fin.ofNat 4 ((o - 0x6000) / 0x100)) (o % 0x100 / 4) v)
  else if 0x6400 ≤ o ∧ o < 0x6480 then
    let u : Fin 4 := Fin.ofNat 4 ((o - 0x6400) / 0x20)
    if o % 0x20 = 0 then done (csrPlain s slot o v)
    else if o % 0x20 = 4 then
      if bits v 30 2 = 1 then
        match streamStart s slot u (bits v 0 6).toNat with
        | .ok s => done s
        | .error info => .fault ⟨cSTREAM_PROGRAM, 0, info⟩
      else if bits v 30 2 = 2 then done (streamStop s slot u)
      else done s
    else if o % 0x20 = 8 then done (streamRelease s slot u (bits v 0 13).toNat)
    else if o % 0x20 = 12 then done (modSu s slot u (fun su =>
        if bitOf v 28 && !bitOf (setBitsNow s (corePlace slot o)) 28 then { su with err := false } else su))
    else done s
  else if o = 0x6480 then storeDoor s slot who v
  else if 0x6490 ≤ o ∧ o < 0x64B0 ∧ o % 8 = 4 then storeFgo s slot who (Fin.ofNat 4 ((o - 0x6490) / 8)) v
  else if 0x7010 ≤ o ∧ o < 0x7020 then done (writePostQ s slot (thIx o 0x7010) v)
  else if o = 0x7040 then (if bitOf v 7 then put (fun c => { c with dlq := c.dlq.drop 1 }) else done s)
  else if 0x7100 ≤ o ∧ o < 0x7200 ∧ o % 8 = 4 then done (writeChtHi s slot ((o - 0x7100) / 8) v)
  else if 0x8040 ≤ o ∧ o < 0x8060 then put (fun c => csrSet c o (scopeWord v))
  else if o = 0x8080 then done (writeBarMemb s slot v)
  else if o = 0x9000 then done (debugCmd s slot v)
  else if o = 0x9004 then put (fun c =>
      if bitOf v 30 && !bitOf (setBitsNow s (corePlace slot o)) 30 then { c with selErr := false } else c)
  else if o = 0x900C then done (dbgWrite s slot v)
  else if o = 0x9010 then done (writeDbgFlag s slot v)
  else if o = 0x9014 then done (writeDbgBarrier s slot v)
  else done (csrPlain s slot o v)

/-- The permission that PCC must carry for an access to the word at `o` (R136, R280), beside CSR on the base capability. -/
def csrPcc (o : Nat) : BitVec 16 :=
  if 0x6480 ≤ o ∧ o < 0x6484 ∨ 0x6490 ≤ o ∧ o < 0x64B0 then pCOURIER
  else if 0x6000 ≤ o ∧ o < 0x7000 then pSTREAM
  else if 0x9000 ≤ o ∧ o < 0xA000 then pDEBUG
  else 0

/-- The checks of an access to the CSR pages at `a` (R42): COURIER is checked first of all (R304, R312), another missing
permission of PCC where R42 ranks CAP_PERM. -/
def checkCsr (th : Thread) (c : Cap) (a n : Nat) (need : BitVec 16) : Option FaultInfo :=
  let p := csrPcc (a - 0x00100000)
  let noPcc := !capHas th.pcc p
  if p = pCOURIER ∧ noPcc then some (addrFault cCAP_PERM a)
  else if !c.tag then some (addrFault cCAP_TAG a)
  else if capSealed c then some (addrFault cCAP_SEALED a)
  else if noPcc then some (addrFault cCAP_PERM a)
  else match capCheck c a n (need ||| pCSR) with
    | some f => some f
    | none => if a % n ≠ 0 ∨ n ≠ 4 then some (addrFault cALIGN a) else none

/-- A store by a requester named in a row of the table: a word store of the thread to the register's address through
DDC, or an access of the window, which is refused where the thread would fault (R492). -/
def rowStore (s : State) (core : Nat) (who : Requester) (o : Nat) (v : Word) : Host.Outcome State Fault Refusal :=
  match who with
  | .thread t =>
    issue s (.core core) t (fun slot s =>
      let th := getTh s slot t
      if rebindHolds s slot o then .stall
      else Res.check (checkCsr th th.ddc (0x00100000 + o) 4 pSTORE)
        ((csrStore s slot who o v).andThen (fun (s, complete) =>
          .ok (if complete then advance s slot t id else s))))
  | .window =>
    onCore s (.core core) (fun slot s =>
      match csrStore s slot .window o v with
      | .ok (s', _) => s'
      | .fault _ => windowRefused s slot
      | .after s' _ => windowRefused s' slot
      | .stall => s)

/-! ### The rows of the table -/

/-- NUMERIC_CTL_WRITE (R180, R181). -/
def execNumericCtlWrite (core : Nat) (who : Requester) (v : BitVec 32) (s : State) : Host.Outcome State Fault Refusal :=
  rowStore s core who 0x3000 v

/-- NUM_SEED_LO_WRITE (R182). -/
def execNumSeedLoWrite (core : Nat) (v : BitVec 32) (s : State) : Host.Outcome State Fault Refusal :=
  rowStore s core .window 0x3010 v

/-- NUM_SEED_HI_WRITE (R180, R182). -/
def execNumSeedHiWrite (core : Nat) (who : Requester) (v : BitVec 32) (s : State) : Host.Outcome State Fault Refusal :=
  rowStore s core who 0x3014 v

/-- NUMERIC_SETTINGS_APPLY (R180). -/
def execNumericSettingsApply (core : Nat) (s : State) : Host.Outcome State Fault Refusal :=
  onCore s (.core core) (fun slot s => modCore s slot drainNum)

/-- VSCALE_WRITE (R202): `reg` 0 to 15 is VSCALEn, 16 and above VSEN. -/
def execVscaleWrite (core : Nat) (who : Requester) (reg : BitVec 5) (v : BitVec 32) (s : State) :
    Host.Outcome State Fault Refusal :=
  rowStore s core who (if reg.toNat < 16 then 0x4C00 + 4 * reg.toNat else 0x4C40) v

/-- TILE_CFG_WRITE (R211): `reg` 0 to 7 is TILE_CFGn, 8 TILE_OWN0, 9 and above TILE_OWN1. -/
def execTileCfgWrite (core : Nat) (who : Requester) (reg : BitVec 4) (v : BitVec 32) (s : State) :
    Host.Outcome State Fault Refusal :=
  rowStore s core who (if reg.toNat < 8 then 0x4000 + 4 * reg.toNat else if reg.toNat = 8 then 0x4020 else 0x4024) v

/-- HREBIND (R262). -/
def execHrebind (core : Nat) (who : Requester) (v : BitVec 32) (s : State) : Host.Outcome State Fault Refusal :=
  rowStore s core who 0x5400 v

/-- HANDLE_REBIND_DONE (R262, R263). -/
def execHandleRebindDone (core : Nat) (s : State) : Host.Outcome State Fault Refusal :=
  onCore s (.core core) (fun slot s => finishRebind s slot)

/-- STREAM_START (R298). -/
def execStreamStart (core : Nat) (who : Requester) (u : Fin 4) (entry : BitVec 6) (s : State) :
    Host.Outcome State Fault Refusal :=
  rowStore s core who (0x6404 + 0x20 * u.val) (0x40000000 ||| zext entry)

/-- SREL (R288). -/
def execSrel (core : Nat) (who : Requester) (u : Fin 4) (count : BitVec 13) (s : State) : Host.Outcome State Fault Refusal :=
  rowStore s core who (0x6408 + 0x20 * u.val) (zext count)

/-- CDOOR (R304). -/
def execCdoor (core : Nat) (who : Requester) (v : BitVec 32) (s : State) : Host.Outcome State Fault Refusal :=
  rowStore s core who 0x6480 v

/-- FGO (R312). -/
def execFgo (core : Nat) (who : Requester) (k : Fin 4) (v : BitVec 32) (s : State) : Host.Outcome State Fault Refusal :=
  rowStore s core who (0x6494 + 8 * k.val) v

end Sys2Proof.Machine
end

