-- ==== Sys2Proof/Machine/Runs.lean ====
section
/-! DEFINITION. Runs of bytes at global addresses of this device, as the sealing block and firmware read and write them
(R422, R456, R470), and free values (R503 and others). -/
namespace Sys2Proof.Machine

/-- `n` units from offset `o` of a space, with the poison of each 4-byte word; none where one answers with an error. -/
def readUnits : Nat → State → BitVec 4 → Nat → State × Option (List Byte × List Bool)
  | 0, s, _, _ => (s, some ([], []))
  | n + 1, s, space, o =>
    match readUnit s space o with
    | (s, none) => (s, none)
    | (s, some d) =>
      match readUnits n s space (o + 64) with
      | (s, none) => (s, none)
      | (s, some (bs, ps)) => (s, some (unitBytes d ++ bs, (upFrom 0 16).map (bitOf d.poison) ++ ps))

/-- The `n` bytes at offset `o` of a space, and whether a word among them is poisoned. -/
def readRun (s : State) (space : BitVec 4) (o n : Nat) : State × Option (List Byte × Bool) :=
  let first := o / 64
  let count := if n = 0 then 0 else (o + n - 1) / 64 + 1 - first
  match readUnits count s space (64 * first) with
  | (s, none) => (s, none)
  | (s, some (bs, ps)) => (s, some (slice bs (o % 64) n, (wordsOf 4 (o % 64) n).any (fun w => ps.getD w false)))

/-- The `n` bytes at a global address that names this device. -/
def readGlobal (s : State) (addr n : Nat) : State × Option (List Byte × Bool) :=
  let a := globalOf addr
  if isHere s a then readRun s a.space a.off n else (s, none)

/-- Bytes are merged into a unit; a word wholly written loses its poison, a word partly written keeps it (R45). -/
def mergeLine (d : Unit64) (o : Nat) (bs : List Byte) : Unit64 :=
  let old := unitBytes d
  let new := (old.take o ++ bs ++ old.drop (o + bs.length)).take 64
  let clean := (wordsOf 4 o bs.length).filter (fun w => o ≤ 4 * w && decide (4 * w + 4 ≤ o + bs.length))
  ⟨BitVec.ofNat 512 (leNat new), clean.foldl (fun p w => p &&& ~~~oneAt 16 w) d.poison⟩

/-- `n` whole units of a space are written from offset `u` on, the bytes beginning at byte `o` of the first one; a unit of
which only a part is given is read first (R376). -/
def writeUnits : Nat → State → BitVec 4 → Nat → Nat → List Byte → State × Bool
  | 0, s, _, _, _, _ => (s, true)
  | n + 1, s, space, u, o, bs =>
    let here := bs.take (64 - o)
    let r := if here.length = 64 then (s, some poisonedUnit) else readUnit s space u
    match r.2 with
    | none => (r.1, false)
    | some d =>
      match writeUnit r.1 space u (mergeLine d o here) with
      | (s, false) => (s, false)
      | (s, true) => writeUnits n s space (u + 64) 0 (bs.drop (64 - o))

/-- Bytes are written at offset `o` of space 0x0, 0x1 or 0x2; false where the memory is not there. -/
def writeRun (s : State) (space : BitVec 4) (o : Nat) (bs : List Byte) : State × Bool :=
  let stop := match space.toNat with
    | 0 => hbmEnd
    | 1 => if lpAvail s then lpEnd else 0
    | _ => 0x30000000
  if 2 < space.toNat ∨ stop < o + bs.length then (s, false)
  else if space = 2 then (storeSram s o bs, true)
  else writeUnits ((o % 64 + bs.length + 63) / 64) s space (64 * (o / 64)) (o % 64) bs

/-- Bytes are written at a global address that names this device. -/
def writeGlobal (s : State) (addr : Nat) (bs : List Byte) : State × Bool :=
  let a := globalOf addr
  if isHere s a then writeRun s a.space a.off bs else (s, false)

/-- The bytes of a digest that a fuse holds. -/
def digestOf (d : BitVec 384) : List Byte := beBytes 48 d.toNat

end Sys2Proof.Machine
end

