-- ==== Sys2Proof/Machine/Reset.lean ====
section
/-! DEFINITION. The cluster control of the Sorting Office: core reset and the CSR window (R113, R331, R491, R492). -/
namespace Sys2Proof.Machine

/-- The bytes of a store to shared SRAM that has left its thread and not arrived reach their slice (R363). -/
def landStore (s : State) (p : PendStore) : State :=
  if p.applied ∨ p.bytes.isEmpty then s
  else if p.tag then { s with sram := memStoreCap s.sram p.off p.bytes true } else storeSram s p.off p.bytes

/-- Every binding of a channel entry ends, so that credits of the old ones return to none (R318). -/
def endBindings (g : Tab Nat) : Tab Nat :=
  (upFrom 0 32).foldl (fun g e => tset genDefault g e (tget genDefault g e + 1)) g

/-- Core reset (R33, R84, R113, R331, R491): everything of the core takes its reset value but its local memory, which is
kept (R567), and what the debug port has selected (R136). -/
def resetCore (slot : Nat) (c : Core) : Core :=
  { coreDefault slot with mem := c.mem, gen := endBindings c.gen, jtag := c.jtag }

/-- The core is held in reset; barriers no longer count it (R339), and no post waits for its streams (R343). -/
def holdCore (s : State) (slot : Nat) : State :=
  let ps := ([0, 1, 2, 3] : List (Fin 4)).flatMap (fun t => (getTh s slot t).pend)
  let s := ([0, 1, 2, 3] : List (Fin 4)).foldl (fun s u => clearHalves s slot u (getSu s slot u).left) (ps.foldl landStore s)
  let s := modCore s slot (resetCore slot)
  (upFrom 0 16).foldl checkBarrier s

/-- The core leaves reset: all threads NOT_RUNNING, and CYCLE counts from here (R113, R127). A core of a cluster in OFF stays in
reset (R530, R534). -/
def releaseCore (s : State) (slot : Nat) : State :=
  if (getCl s (clusterOf slot)).power = .off then s
  else modCore s slot (fun c => if c.held then { c with held := false, cycBase := clockOf s slot } else c)

/-- The sites of the cluster's cores. -/
def clusterSites (s : State) (c : Fin 8) : List Nat := (s.coreSite.filterMap (·.2)).filter (fun x => clusterOf x == c)

/-- Every core of the cluster is held in reset. -/
def holdCluster (s : State) (c : Fin 8) : State := (clusterSites s c).foldl holdCore s

/-- The slot of logical core `n` if it lies in the cluster. -/
def coreIn (s : State) (c : Fin 8) (n : Nat) : Option Nat :=
  match siteOf s n with
  | some site => if clusterOf site = c then some site else none
  | none => none

/-- A store to CL_CMD (R491); a core outside the cluster is none of its cores. -/
def clCmd (s : State) (c : Fin 8) (v : Word) : State :=
  let n := (bits v 0 10).toNat
  match (bits v 30 2).toNat with
  | 1 => match coreIn s c n with
    | some site => holdCore s site
    | none => s
  | 2 => match coreIn s c n with
    | some site => releaseCore s site
    | none => s
  | 3 => holdCluster s c
  | _ => s

/-- CORE_RESET_HOLD (R491). -/
def execCoreResetHold (cluster : Fin 8) (core : Nat) (s : State) : Host.Outcome State Fault Refusal :=
  .next (clCmd s cluster (0x40000000 ||| BitVec.ofNat 32 (core % 1024)))

/-- CORE_RESET_RELEASE (R491, R113). -/
def execCoreResetRelease (cluster : Fin 8) (core : Nat) (s : State) : Host.Outcome State Fault Refusal :=
  .next (clCmd s cluster (0x80000000 ||| BitVec.ofNat 32 (core % 1024)))

/-- CLUSTER_RESET_HOLD (R491). -/
def execClusterResetHold (cluster : Fin 8) (s : State) : Host.Outcome State Fault Refusal :=
  .next (clCmd s cluster 0xC0000000)

/-- What CL_CSRA selects. -/
def csraCore (s : State) (c : Fin 8) : Nat := (bits (devGet s (clBase c + 8)) 16 10).toNat
def csraOff (s : State) (c : Fin 8) : Nat := (bits (devGet s (clBase c + 8)) 0 16).toNat

/-- The slot that a window access reaches, none where it is refused (R492). -/
def windowSlot (s : State) (c : Fin 8) (core o : Nat) : Option Nat :=
  match coreIn s c core with
  | none => none
  | some site =>
    if (getCore s site).held ∨ o % 4 ≠ 0 ∨ 0xA000 ≤ o ∨ (0x9000 ≤ o ∧ !bitOf s.dbgSession c.val) then none else some site

/-- A refused window access sets CSRERR (R492). -/
def windowError (s : State) (c : Fin 8) : State :=
  noteSet (modCl s c (fun k => { k with csrErr := true })) (clBase c + 4) 0x20000000

/-- A window read of the word at `o` of a core's CSR pages (R492); it is a wake cause (R532). -/
def windowRead (s : State) (c : Fin 8) (core o : Nat) : State × Word :=
  let s := wakeCause s c
  match windowSlot s c core o with
  | none => (windowError s c, 0)
  | some slot => csrLoad s slot (reqWindow c) o

/-- A window write (R492). -/
def windowWrite (s : State) (c : Fin 8) (core o : Nat) (v : Word) : State :=
  let s := wakeCause s c
  match windowSlot s c core o with
  | none => windowError s c
  | some slot =>
    match csrStore s slot .window o v with
    | .ok (s, _) => s
    | .fault _ => windowError s c
    | .after s _ => windowError s c
    | .stall => s

/-- A window write at which a thread would stall (R492). -/
def windowStalls (s : State) (c : Fin 8) (core o : Nat) (v : Word) : Bool :=
  match windowSlot s c core o with
  | none => false
  | some slot =>
    match csrStore s slot .window o v with
    | .stall => true
    | _ => false

/-- The window access has to wait: a read of VSEN or VSCALEn behind vector instructions, or a store behind a rebind, a busy
channel or sixteen far reads. -/
def windowWaits (s : State) (c : Fin 8) (write : Option Word) : Bool :=
  match write with
  | some v => windowStalls s c (csraCore s c) (csraOff s c) v
  | none =>
    match windowSlot s c (csraCore s c) (csraOff s c) with
    | none => false
    | some slot => csrReadStalls (getCore s slot) (csraOff s c)

/-- CL_CSRD_ACCESS (R492): the word read leaves as the answer of the read. -/
def execClCsrdAccess (cluster : Fin 8) (write : Option (BitVec 32)) (s : State) : Host.Outcome State Fault Refusal :=
  if dark s then .next s else
  if windowWaits s cluster write then .next (wakeCause s cluster)
  else match write with
    | some v => .next (windowWrite s cluster (csraCore s cluster) (csraOff s cluster) v)
    | none =>
      let (s, v) := windowRead s cluster (csraCore s cluster) (csraOff s cluster)
      .next { s with outbox := s.outbox ++ [.word v] }

/-! ### The JTAG port (R136) -/

/-- JTAG_SELECT (R136, R145): the JTAG port selects the core at a site, or ends that, or reads or writes a word of the DEBUG
page of a selected core that is out of reset; the word read leaves as the answer. It is a debug access, and wakes the core's
cluster (R532). -/
def execJtagSelect (site : Nat) (act : JtagAct) (s : State) : Host.Outcome State Fault Refusal :=
  if dark s then .next s else
  if 576 ≤ site then .next s
  else
    let cl := clusterOf site
    let s := wakeCause s cl
    let open' : Bool := (getCore s site).jtag && !(getCore s site).held
    match act with
    | .select => .next (modCore s site (fun c => { c with jtag := true }))
    | .deselect => .next (modCore s site (fun c => { c with jtag := false }))
    | .read reg =>
      let (s, v) := if open' then csrLoad s site (reqWindow cl) (0x9000 + 4 * reg.toNat) else (s, 0)
      .next { s with outbox := s.outbox ++ [.word v] }
    | .write reg v =>
      if !open' then .next s
      else match csrStore s site .window (0x9000 + 4 * reg.toNat) v with
        | .ok (s, _) => .next s
        | _ => .next s

end Sys2Proof.Machine
end

