-- ==== Sys2Proof/Machine/Parcels.lean ====
section
/-! DEFINITION. Parcels and bundles, and what firmware notices by itself: entries that open, are accepted or rejected, cores
that halt, seal jobs, deliveries, and drains that complete (R370, R456, R504 to R509, R565 to R567). -/
namespace Sys2Proof.Machine

/-! ### The Sorting Office's state -/

def modSeal (s : State) (f : Seal → Seal) : State := { s with so := { s.so with sealing := f s.so.sealing } }

def ptDefault (_ : Nat) : PEntry := PEntry.reset

/-- Parcel table entry `e` (R456). -/
def ptGet (s : State) (e : Nat) : PEntry := tget ptDefault s.so.sealing.pt e

def ptSet (s : State) (e : Nat) (x : PEntry) : State :=
  modSeal s (fun b => { b with pt := tset ptDefault b.pt e x })

def modPt (s : State) (e : Nat) (f : PEntry → PEntry) : State := ptSet s e (f (ptGet s e))

/-- Every parcel changes by `f`. -/
def mapParcels (s : State) (f : Parcel → Parcel) : State := modSo s (fun o => { o with parcels := o.parcels.map f })

/-- The parcel numbered `u` changes by `f`. -/
def modParcel (s : State) (u : Nat) (f : Parcel → Parcel) : State := mapParcels s (fun p => if p.uid = u then f p else p)

def parcelOf (s : State) (u : Nat) : Option Parcel := s.so.parcels.find? (fun p => p.uid == u)

/-- The states after which nothing more comes (R505). -/
def isFinal : ParcelSt → Bool
  | .pending => false
  | .opened => false
  | .running => false
  | .done => true
  | .rejected => true
  | .failed => true
  | .cancelled => true

/-- The parcel that holds table entry `e`. -/
def liveParcel (s : State) (e : Nat) : Option Parcel := s.so.parcels.find? (fun p => p.entry == e && !isFinal p.st)

/-! ### Ends of parcels -/

/-- The parcels of a bundle in a state. -/
def countIn (s : State) (b : BitVec 16) (st : ParcelSt) : Nat :=
  (s.so.parcels.filter (fun p => p.bundle == b && p.st == st)).length

/-- BUNDLE_DONE once every parcel of the bundle is final (R501); a bundle's status is kept until 64 that became final later are
final (R504; which bundles are the later ones is DEDUCED, log 113). -/
def bundleDone (s : State) (b : BitVec 16) : State :=
  if s.so.finals.contains b || s.so.parcels.any (fun p => p.bundle == b && !isFinal p.st) then s
  else
    let n (st : ParcelSt) : BitVec 16 := BitVec.ofNat 16 (countIn s b st)
    let s := pushEvent s 0x0001 b (n .cancelled ++ n .failed ++ n .rejected ++ n .done : BitVec 64)
    let finals := s.so.finals ++ [b]
    let gone := finals.take (finals.length - 64)
    modSo s (fun o =>
      { o with finals := finals.drop (finals.length - 64), parcels := o.parcels.filter (fun p => !gone.contains p.bundle) })

/-- The parcel takes a final state: its entry becomes FREE and its buffer is released (R504, R507). -/
def finishParcel (s : State) (u : Nat) (st : ParcelSt) (code : Byte) : State :=
  match parcelOf s u with
  | none => s
  | some p =>
    if isFinal p.st then s
    else
      let s := modParcel s u (fun p => { p with st := st, code := code })
      let s := modPt s p.entry (fun e => { e with st := .free })
      bundleDone (modSo s (fun o => { o with regions := o.regions.erase p.buf })) p.bundle

def failParcel (s : State) (u : Nat) (code : Byte) : State := finishParcel s u .failed code

/-! ### What firmware notices -/

/-- The table entry of a parcel has changed (R456, R457, R461). -/
def noticeEntry (s : State) (p : Parcel) : State :=
  if isFinal p.st ∨ p.st = .running then s
  else
    let e := ptGet s p.entry
    match e.st with
    | .opened => modParcel s p.uid (fun p => { p with st := .opened })
    | .accepted => modParcel s p.uid (fun p => { p with st := .opened })
    | .rejected => finishParcel s p.uid .rejected e.code
    | _ => s

def noticeEntries (s : State) : State := s.so.parcels.foldl noticeEntry s

/-- The parcels with a stage on a core, dispatched or in dispatch. -/
def parcelsOn (s : State) (core : Nat) : List Nat :=
  (s.so.active.filter (fun a => a.1 == core)).map (·.2) ++
    (s.so.dispatch.filter (fun j => j.core == core)).map (fun j => j.uid)

/-- A core has halted: it counts as ended, and its parcels fail (R506, R565). -/
def noticeHalt (s : State) (core : Nat) : State :=
  (parcelsOn s core).foldl (fun s u => failParcel s u 0x10) (modSo s (fun o =>
    { o with active := o.active.filter (fun a => a.1 != core), dispatch := o.dispatch.filter (fun j => j.core != core) }))

/-- A thread of a core has stopped under route 0: whether firmware resumes it is open, and where it does not, the parcels of the
core fail (R506; log 114). -/
def noticeStop (s : State) (core : Nat) : State :=
  if parcelsOn s core = [] then s
  else
    let (k, s) := freshNat s
    if Config.resumesStopped k then s else (parcelsOn s core).foldl (fun s u => failParcel s u 0x10) s

def noticeHalts (s : State) : State :=
  s.soNotes.foldl (fun s n => if n.2 then noticeHalt s n.1 else noticeStop s n.1) { s with soNotes := [] }

/-- A seal job has completed (R472, R506). -/
def noticeSeal (s : State) (n : SealNote) : State :=
  match liveParcel s n.entry with
  | none => s
  | some p =>
    if n.status ≠ 0 then failParcel s p.uid 0x12
    else modParcel s p.uid (fun p =>
      { p with records := p.records ++ [(n.out, n.batch, false)], lastSealed := p.lastSealed || n.last })

def noticeSeals (s : State) : State :=
  s.so.sealing.notes.foldl noticeSeal (modSeal s (fun b => { b with notes := [] }))

/-- The parcel with an undelivered record at an address: one that is not final where there is one. -/
def recordHolder (s : State) (a : Nat) : Option Parcel :=
  let has (p : Parcel) : Bool := p.records.any (fun r => r.1 == a && !r.2.2)
  match s.so.parcels.find? (fun p => !isFinal p.st && has p) with
  | some p => some p
  | none => s.so.parcels.find? has

/-- A copy that firmware started has ended: the record at its source is delivered, or undeliverable, which fails its parcel
(R506) and leaves no record of it to wait for (R477; log 148). -/
def noticeCopy (s : State) (c : Nat × Bool) : State :=
  match recordHolder s c.1 with
  | none => s
  | some p =>
    if !c.2 then failParcel (modParcel s p.uid (fun p => { p with records := p.records.filter (fun r => r.1 != c.1) })) p.uid 0x13
    else modParcel s p.uid (fun p =>
      { p with records := p.records.map (fun r => if r.1 = c.1 then (r.1, r.2.1, true) else r) })

def noticeCopies (s : State) : State :=
  s.so.doneCopies.foldl noticeCopy (modSo s (fun o => { o with doneCopies := [] }))

/-- RCPT_ACK (R477). -/
def rcptAck (s : State) : BitVec 32 := devGet s 0x80030

/-- The receipt of the batch has been forwarded. -/
def receiptSent (s : State) (b : BitVec 32) : Bool := decide ((rcptAck s - b - 1).toNat < 2 ^ 31)

/-! ### Plans (R508) -/

def planOf (s : State) (id : Word) : Option Plan := s.so.plans.find? (fun p => p.id == id)

def planStages (img : List Byte) : Nat := leAt img 10 2
def planModels (img : List Byte) : Nat := leAt img 12 2

/-- The record of stage `i`. -/
def stageRec (img : List Byte) (i : Nat) : List Byte := slice img (64 + 4 * planModels img + 32 * i) 32

/-- A stage of the parcel is on a core, or is being dispatched to one. -/
def stageRuns (s : State) (u : Nat) : Bool :=
  s.so.active.any (fun a => a.2 == u) || s.so.dispatch.any (fun j => j.uid == u)

/-- Every stage of the parcel has completed (R505, R509). -/
def stagesDone (s : State) (p : Parcel) : Bool :=
  match planOf s p.plan with
  | none => false
  | some plan => p.sent && decide (planStages plan.image ≤ p.stage + 1) && !stageRuns s p.uid

/-- The last record and its receipt have been delivered, and every stage has completed (R505). -/
def noticeDone (s : State) (p : Parcel) : State :=
  if p.st = .running && p.lastSealed && stagesDone s p && p.records.all (fun r => r.2.2 && receiptSent s r.2.1) then
    finishParcel s p.uid .done 0
  else s

/-- A logical core lies in the cluster. -/
def inCluster (s : State) (c : Fin 8) (n : Nat) : Bool :=
  match siteOf s n with
  | some site => clusterOf site == c
  | none => false

/-- A stage dispatched, or in dispatch, on the cluster has not ended (R565). -/
def clusterBusy (s : State) (c : Fin 8) : Bool :=
  s.so.active.any (fun a => inCluster s c a.1) || s.so.dispatch.any (fun j => inCluster s c j.core)

def codeDefault (_ : Nat) : Option (Word × Nat) := none

/-- Steps 4 and 5 of R565, and R567: the cluster is drained. -/
def finishDrain (s : State) (c : Fin 8) : State :=
  let sites := clusterSites s c
  let s := holdCluster s c
  let s := modSo s (fun o => { o with code := sites.foldl (fun t x => tset codeDefault t x none) o.code })
  let s := modCl s c (fun k => { k with service := .drained, drainTicks := 0 })
  (upFrom 0 16).foldl checkBarrier s

def allClusters : List (Fin 8) := [0, 1, 2, 3, 4, 5, 6, 7]

/-- A mask of clusters that satisfy `p`. -/
def clusterMask (p : Fin 8 → Bool) : BitVec 8 :=
  allClusters.foldl (fun m c => if p c then m ||| oneAt 8 c.val else m) 0

def isDrained (s : State) (c : Fin 8) : Bool := (getCl s c).service == .drained

/-- A CLUSTER_DRAIN completes once every cluster of its mask is drained, or unavailable (R565). -/
def finishDrains (s : State) (d : BitVec 6 × BitVec 8) : State :=
  let open_ (c : Fin 8) : Bool :=
    bitOf d.2 c.val && ((getCl s c).service == .draining || (getCl s c).service == .inService)
  if allClusters.any open_ then s
  else
    let s := modSo s (fun o => { o with drains := o.drains.erase d })
    okHole s d.1 [clusterMask (fun c => bitOf d.2 c.val && isDrained s c)]

def noticeDrains (s : State) : State :=
  let s := allClusters.foldl (fun s c =>
    if (getCl s c).service = .draining ∧ !clusterBusy s c then finishDrain s c else s) s
  s.so.drains.foldl finishDrains s

/-! ### A dispatch at the window (R492, R509) -/

/-- A window write of firmware: none while it waits (R492). -/
def windowTry (s : State) (c : Fin 8) (n o : Nat) (v : Word) : Option State :=
  if windowStalls s c n o v then none else some (windowWrite s c n o v)

/-- A window write has not completed: it is a rebind in progress, or a setting that waits for instructions in flight (R492). -/
def windowPending (s : State) (site : Nat) : Bool :=
  let c := getCore s site
  (match c.rebind with
    | some r => r.who == .window
    | none => false) || (c.numPend ++ c.vscalePend ++ c.tcfgPend).any (fun p => p.who == .window)

/-- One step of a dispatch (R177, R181, R492, R509): none while it waits at the window. -/
def dispatchStep (s : State) (j : StageJob) (site : Nat) (d : DStep) : Option State :=
  let c := clusterOf site
  let n := j.core
  match d with
  | .write o v => windowTry s c n o v
  | .mode m => windowTry s c n 0x3000 ((csrGet (getCore s site) 0x3000 &&& 4) ||| m)
  | .detach => if bitOf s.dbgSession c.val then some s else windowTry s c n 0x0040 0
  | .start a =>
    some (if (getTh s site 0).st = .notRunning then windowWrite (windowWrite s c n 0x1010 a) c n 0x1004 1 else s)
  | .post q tag =>
    let desc := words4 (BitVec.ofNat 32 j.entry) (BitVec.ofNat 32 j.stage) tag (word3Of s stageCore 0 0)
    let s := { s with msgs := s.msgs ++ [.post (.here stageCore 0 0) n q desc] }
    some (modSo s (fun o => { o with active := o.active ++ [(n, j.uid)] }))

/-- The steps of a dispatch are taken in order until one has to wait; the steps that remain. -/
def runSteps (j : StageJob) : List DStep → State → State × List DStep
  | [], s => (s, [])
  | d :: rest, s =>
    match siteOf s j.core with
    | none => (s, [])
    | some site =>
      if windowPending s site then (s, d :: rest)
      else match dispatchStep s j site d with
        | none => (s, d :: rest)
        | some s => runSteps j rest s

/-- A dispatch goes on as far as it can. -/
def goOnJob (s : State) (j : StageJob) : State :=
  match runSteps j j.steps s with
  | (s, []) => s
  | (s, rest) => modSo s (fun o => { o with dispatch := o.dispatch ++ [{ j with steps := rest }] })

/-- The dispatches that wait at the window go on (DESIGN CHOICE, log 115: when firmware next looks). -/
def goOnDispatch (s : State) : State := s.so.dispatch.foldl goOnJob (modSo s (fun o => { o with dispatch := [] }))

/-- Firmware notices everything that has come about since it last looked. -/
def settleSo (s : State) : State :=
  let s := goOnDispatch (noticeCopies (noticeSeals (noticeHalts (noticeEntries s))))
  noticeDrains (s.so.parcels.foldl noticeDone s)

/-! ### Stages (R508, R509) -/

def stageLo (r : List Byte) : Nat := leAt r 0 2
def stageHi (r : List Byte) : Nat := leAt r 2 2

/-- The cores of a stage. -/
def stageCores (r : List Byte) : List Nat := upFrom (stageLo r) (stageHi r + 1 - stageLo r)

/-- The cluster of a logical core, by the numbering in force (R18). -/
def clusterOfCore (s : State) (n : Nat) : Fin 8 := Fin.ofNat 8 (if s.perCluster = 0 then 0 else n / s.perCluster)

/-- A global address lies in space 0x1 of this device. -/
def inLp (s : State) (a : Nat) : Bool := isHere s (globalOf a) && (globalOf a).space == 1

/-- Firmware holds new work that addresses space 0x1: a test of a package waits or runs (R574; DEDUCED, log 116). -/
def lpHolds (s : State) : Bool :=
  s.so.tickets.any (fun t => t.2.unit == 5) || s.so.running.any (fun t => t.2.unit == 5) ||
    s.so.tests.any (fun t => t.2.unit == 5)

/-- The model of a stage is resident in space 0x1 (R508). -/
def stageInLp (s : State) (img r : List Byte) : Bool :=
  decide (leAt r 5 1 < planModels img) &&
    s.so.models.any (fun m => m.place.space == 1 && m.id == BitVec.ofNat 32 (leAt img (64 + 4 * leAt r 5 1) 4))

/-- Everything that R509 lets a stage wait for is there, and R574 does not hold it. -/
def stageReady (s : State) (img r : List Byte) : Bool :=
  !(lpHolds s && stageInLp s img r) &&
  (leAt img 8 2 == 0 || leAt img 8 2 == logicalCount s) &&
    (stageCores r).all (fun n =>
      let k := getCl s (clusterOfCore s n)
      (siteOf s n).isSome && k.service == .inService && k.run.toNat == leAt img 7 1)

/-- The configuration digest C (R473), from the settings now in force. -/
def configDigest (s : State) (img : List Byte) : List Byte :=
  sha384 (leBytes 2 (logicalCount s) ++ leBytes 1 (leAt img 7 1) ++ leBytes 1 (leAt img 6 1) ++
    leBytes 4 s.so.version.toNat ++ List.replicate 8 0)

/-- The weight-set digest W (R473): the digests of the plan's models, in plan order. -/
def weightsDigest (s : State) (img : List Byte) : List Byte :=
  sha384 ((upFrom 0 (planModels img)).flatMap (fun i =>
    let id : Word := BitVec.ofNat 32 (leAt img (64 + 4 * i) 4)
    match s.so.models.find? (fun m => m.id == id) with
    | some m => m.digest
    | none => []))

/-- The value that seeds LSUM for a stage on a core (R177). -/
def stageSeed (s : State) (p : Parcel) (digestP : List Byte) (n : Nat) : BitVec 64 :=
  BitVec.ofNat 64 (leNat ((sha384 (digestP ++ p.weights ++ (ptGet s p.entry).idig ++ p.cfg ++ leBytes 4 n ++
    leBytes 4 p.stage)).take 8))

/-- A list of CSR records as steps. -/
def recordSteps : Nat → List Byte → List DStep
  | 0, _ => []
  | k + 1, bs => .write (leAt bs 0 4) (BitVec.ofNat 32 (leAt bs 4 4)) :: recordSteps k (bs.drop 8)

/-- Steps 2 to 4 of a dispatch on core `n` (R509, and R492 for the start of T0). -/
def stageSteps (s : State) (p : Parcel) (plan : Plan) (r : List Byte) (n : Nat) : List DStep :=
  let img := plan.image
  let seed := stageSeed s p plan.digest n
  recordSteps (leAt r 24 2) (img.drop (leAt r 20 4)) ++
    [.write 0x3010 (bits seed 0 32), .write 0x3014 (bits seed 32 32), .mode (BitVec.ofNat 32 (leAt img 6 1)),
     .write 0x3008 1, .detach, .start (BitVec.ofNat 32 (leAt r 16 4)),
     .post (BitVec.ofNat 2 (leAt r 4 1)) (BitVec.ofNat 32 (leAt r 28 4))]

/-- Dispatch of a parcel's stage on core `n` (R371, R509): the code is copied unless the core holds it, and the steps that follow
are taken as the window lets them. -/
def dispatchCore (s : State) (p : Parcel) (plan : Plan) (r : List Byte) (n : Nat) : State :=
  match siteOf s n with
  | none => s
  | some site =>
    let c := clusterOf site
    let img := plan.image
    let s := releaseCore s site
    let s :=
      if tget codeDefault s.so.code site = some (plan.id, p.stage) then s
      else
        let s := modCore (wakeCause s c) site (fun k =>
          { k with mem := memStore 4 k.mem (leAt r 16 4) (slice img (leAt r 8 4) (leAt r 12 4)) })
        modSo s (fun o => { o with code := tset codeDefault o.code site (some (plan.id, p.stage)) })
    goOnJob s ⟨n, p.uid, p.entry, p.stage, stageSteps s p plan r n⟩

/-- A DEBUG_ATTACH session covers a core of the stage (R469, R514). -/
def stageDebugged (s : State) (r : List Byte) : Bool :=
  (stageCores r).any (fun n => bitOf s.dbgSession (clusterOfCore s n).val)

/-- STAGE_DISPATCH (R505, R509, R572): the next stage of the parcel in table entry `parcel`, once all it waits for is
there. -/
def execStageDispatch (parcel : Nat) (s : State) : Host.Outcome State Fault Refusal :=
  let s := settleSo s
  match liveParcel s parcel with
  | none => .next s
  | some p =>
    match planOf s p.plan with
    | none => .next s
    | some plan =>
      let img := plan.image
      let r := stageRec img p.stage
      if p.sent ∨ (ptGet s parcel).st ≠ .accepted ∨ planStages img ≤ p.stage ∨ (p.stage = 0 ∧ s.so.hand ≠ 0) ∨
          !stageReady s img r then .next s
      else
        let p := { p with
          st := .running, sent := true, code := BitVec.ofNat 8 p.stage, dbg := p.dbg || stageDebugged s r,
          cfg := if p.stage = 0 then configDigest s img else p.cfg,
          weights := if p.stage = 0 then weightsDigest s img else p.weights }
        let s := modParcel s p.uid (fun _ => p)
        .next ((stageCores r).foldl (fun s n => dispatchCore s p plan r n) s)

/-- A core of the stage has MODEW set (R181). -/
def stageModeWritten (s : State) (r : List Byte) : Bool :=
  (stageCores r).any (fun n => match siteOf s n with
    | some site => bitOf (csrGet (getCore s site) 0x3008) 0
    | none => false)

/-- Every core of the parcel's stage has ended it: the next stage may follow (R181, R506, R509). -/
def stageOver (s : State) (u : Nat) : State :=
  match parcelOf s u with
  | none => s
  | some p =>
    if isFinal p.st ∨ stageRuns s u then s
    else match planOf s p.plan with
      | none => s
      | some plan =>
        if stageModeWritten s (stageRec plan.image p.stage) then failParcel s u 0x11
        else if p.stage + 1 < planStages plan.image then
          modParcel s u (fun p => { p with stage := p.stage + 1, sent := false })
        else s

/-- STAGE_END (R505, R506, R509): the post in the stage queue ends the oldest stage dispatched to its core. -/
def execStageEnd (core : Nat) (word2 : BitVec 32) (s : State) : Host.Outcome State Fault Refusal :=
  let s := settleSo s
  match s.stageQ.find? (fun q => q.1 == core && q.2.1 == word2) with
  | none => .next s
  | some q =>
    let s := returnCredit { s with stageQ := s.stageQ.erase q } (some q.2.2)
    match s.so.active.find? (fun a => a.1 == core) with
    | none => .next s
    | some a =>
      let s := modSo s (fun o => { o with active := o.active.erase a })
      .next (settleSo (if word2 ≠ 0 then failParcel s a.2 0x10 else stageOver s a.2))

end Sys2Proof.Machine
end

