-- ==== Sys2Proof/Machine/Clock.lean ====
section
/-! DEFINITION. A mesh cycle in which nothing is commanded (R30, R127, R528, R530, R536, R537, R580). -/
namespace Sys2Proof.Machine

/-- A cluster edge begins in mesh cycle `m` at operating point `p` (R580). -/
def edgeAt (p : BitVec 2) (m : Nat) : Bool :=
  match p.toNat with
  | 0 => true
  | 1 => m % 4 != 3
  | 2 => m % 2 == 0
  | _ => m % 4 == 0

/-- A cluster's cycle count in mesh cycle `m`: it counts in RUN, but not while its clock stops for a change of point. -/
def clusterCycle (m : Nat) (k : Cluster) : Cluster :=
  if k.power = .run ∧ !k.waking ∧ k.stopUntil ≤ m ∧ edgeAt k.run m then { k with cyc := k.cyc + 1 } else k

/-- The mesh clock runs from the strobe of phase A on, except in DORMANT, in SHUTDOWN and while MRST# is low. -/
def meshRuns (s : State) : Bool := s.mod.mrst && s.mod.mode == .active && s.mod.started && s.mod.phase != 0

/-- A mesh cycle passes, and firmware notices what has come about. -/
def idleCycle (s : State) : State :=
  let s := { s with setNow := [] }
  if !meshRuns s then s
  else settleSo { s with clusters := s.clusters.map (clusterCycle s.meshCycle), meshCycle := s.meshCycle + 1 }

end Sys2Proof.Machine
end

