-- ==== Sys2Proof/Machine/Fec.lean ====
section
/-! DEFINITION. The lanes of a fabric port: the Gray map of PAM4, the Reed–Solomon codes over GF(2¹⁰), and the spread of a
unit's flits over the eight lanes (R397, R399 to R402). -/
namespace Sys2Proof.Machine

/-- A symbol of ten bits. -/
abbrev Sym := BitVec 10

/-! ### PAM4 (R397) -/

/-- The level of a bit pair: 00, 01, 11, 10 are levels 0, 1, 2, 3. The map is its own inverse. -/
def grayLevel (b : BitVec 2) : BitVec 2 := if b = 3 then 2 else if b = 2 then 3 else b

/-- The five levels of a symbol, its bits [1:0] first. -/
def symLevels (x : Sym) : List (BitVec 2) := (upFrom 0 5).map (fun i => grayLevel (bits x (2 * i) 2))

/-- The symbol that five levels spell. -/
def levelSym (ls : List (BitVec 2)) : Sym :=
  BitVec.ofNat 10 ((upFrom 0 5).foldl (fun acc i => acc + (grayLevel (ls.getD i 0)).toNat * 2 ^ (2 * i)) 0)

/-! ### GF(2¹⁰) with x¹⁰ + x³ + 1 (R399) -/

/-- The element times α, which is x. -/
def symX (a : Sym) : Sym := if bitOf a 9 then (a <<< 1) ^^^ 9 else a <<< 1

/-- The product of two elements. -/
def symMul (a b : Sym) : Sym :=
  (upFrom 0 10).foldl (fun acc i => symX acc ^^^ (if bitOf b (9 - i) then a else 0)) 0

def symPow (a : Sym) : Nat → Sym
  | 0 => 1
  | n + 1 => symMul a (symPow a n)

/-- The inverse of a non-zero element. -/
def symInv (a : Sym) : Sym := symPow a 1022

/-- α to a power; powers repeat after 1,023. -/
def symAlpha (n : Nat) : Sym := symPow 2 (n % 1023)

/-! ### The codes (R399) -/

/-- The generator polynomial with roots α⁰ to αⁿ⁻¹, highest coefficient first. -/
def genPoly : Nat → List Sym
  | 0 => [1]
  | n + 1 =>
    let p := genPoly n
    List.zipWith (· ^^^ ·) (p ++ [0]) (0 :: p.map (symMul (symAlpha n)))

/-- One step of the division by the generator: `reg` is the remainder so far, highest coefficient first. -/
def checkStep (gen : List Sym) (reg : List Sym) (x : Sym) : List Sym :=
  let f := x ^^^ reg.headD 0
  List.zipWith (· ^^^ ·) (reg.drop 1 ++ [0]) (gen.map (symMul f))

/-- The `2 t` check symbols of a lane's data symbols; the first symbol sent is the highest coefficient (PRESUMED, log 100). -/
def rsCheck (t : Nat) (data : List Sym) : List Sym :=
  data.foldl (checkStep ((genPoly (2 * t)).drop 1)) (List.replicate (2 * t) 0)

/-- The value of a polynomial, highest coefficient first. -/
def symEval (p : List Sym) (x : Sym) : Sym := p.foldl (fun acc c => symMul acc x ^^^ c) 0

/-- The syndromes of a received word. -/
def syndromes (t : Nat) (w : List Sym) : List Sym := (upFrom 0 (2 * t)).map (fun j => symEval w (symAlpha j))

/-- The search for the shortest recurrence of the syndromes: the locator and its previous form, lowest coefficient first,
its length, the steps since the last change, and the discrepancy there. -/
structure Locate where
  c : List Sym
  b : List Sym
  len : Nat
  m : Nat
  d : Sym
deriving DecidableEq, Repr

/-- The sum of two polynomials, lowest coefficient first. -/
def polyAdd : List Sym → List Sym → List Sym
  | [], q => q
  | p, [] => p
  | x :: p, y :: q => (x ^^^ y) :: polyAdd p q

/-- Syndrome `n` is taken in. -/
def locateStep (s : List Sym) (x : Locate) (n : Nat) : Locate :=
  let d := (upFrom 0 (x.len + 1)).foldl (fun acc i => acc ^^^ symMul (x.c.getD i 0) (s.getD (n - i) 0)) 0
  if d = 0 then { x with m := x.m + 1 }
  else
    let c := polyAdd x.c (List.replicate x.m 0 ++ x.b.map (symMul (symMul d (symInv x.d))))
    if 2 * x.len ≤ n then ⟨c, x.c, n + 1 - x.len, 1, d⟩ else { x with c := c, m := x.m + 1 }

/-- The error locator of a list of syndromes, and the number of errors that it stands for. -/
def locator (s : List Sym) : List Sym × Nat :=
  let x := (upFrom 0 s.length).foldl (locateStep s) ⟨[1], [1], 0, 1, 1⟩
  (x.c, x.len)

/-- The error value at the position whose locator is `X` (first root α⁰). -/
def errorValue (t : Nat) (s loc : List Sym) (X : Sym) : Sym :=
  let inv := symInv X
  let at' (p : List Sym) : Sym := symEval p.reverse inv
  let omega := (upFrom 0 (2 * t)).map (fun n =>
    (upFrom 0 (n + 1)).foldl (fun acc i => acc ^^^ symMul (s.getD i 0) (loc.getD (n - i) 0)) 0)
  let deriv := (upFrom 0 (loc.length - 1)).map (fun i => if i % 2 = 0 then loc.getD (i + 1) 0 else 0)
  symMul X (symMul (at' omega) (symInv (at' deriv)))

/-- The received word corrected in at most `t` symbols, with the number corrected; none where no codeword is so near. -/
def rsCorrect (t : Nat) (w : List Sym) : Option (List Sym × Nat) :=
  let s := syndromes t w
  if s.all (· == 0) then some (w, 0)
  else
    let (loc, n) := locator s
    let power (i : Nat) : Sym := symAlpha (w.length - 1 - i)
    let bad := (upFrom 0 w.length).filter (fun i => symEval loc.reverse (symInv (power i)) == 0)
    let w' := bad.foldl (fun w i => w.modify i (· ^^^ errorValue t s loc (power i))) w
    if n ≤ t ∧ bad.length = n ∧ (syndromes t w').all (· == 0) then some (w', n) else none

/-! ### Units and lanes (R399 to R401) -/

/-- The symbols that a code corrects: long-reach RS(544,514), short-reach RS(128,120). -/
def fecT (long : Bool) : Nat := if long then 15 else 4

/-- The data symbols of a lane's codeword. -/
def laneSyms (long : Bool) : Nat := if long then 514 else 120

/-- The flits of a unit: a round of 64 slots, or a block of 15. -/
def unitFlits (long : Bool) : Nat := if long then 64 else 15

/-- The unit's data bits as a number: its flits in order, then in long-reach mode the round field. -/
def unitNumber (long : Bool) (flits : List (BitVec 640)) (ctr : BitVec 16) : Nat :=
  flits.foldr (fun f acc => f.toNat + 2 ^ 640 * acc) (if long then ctr.toNat else 0)

/-- The data symbols of lane `l`: symbols `l`, `l + 8`, and so on, of the unit. -/
def laneData (long : Bool) (n l : Nat) : List Sym :=
  (upFrom 0 (laneSyms long)).map (fun j => BitVec.ofNat 10 (n / 2 ^ (10 * (8 * j + l))))

/-- What each lane sends for a unit: the levels of its data symbols, then of its check symbols. -/
def unitLanes (long : Bool) (flits : List (BitVec 640)) (ctr : BitVec 16) : List (List (BitVec 2)) :=
  let n := unitNumber long flits ctr
  (upFrom 0 8).map (fun l =>
    let d := laneData long n l
    (d ++ rsCheck (fecT long) d).flatMap symLevels)

/-- The symbols of a run of levels. -/
def symsOf : Nat → List (BitVec 2) → List Sym
  | 0, _ => []
  | n + 1, ls => levelSym ls :: symsOf n (ls.drop 5)

/-- The codeword received for lane `l` of the peer: from lane `7 - l` where the lanes are reversed, its levels turned over
where that lane is inverted (R397). -/
def laneWord (long rev : Bool) (pol : BitVec 8) (lanes : List (List (BitVec 2))) (l : Nat) : List Sym :=
  let at' := if rev then 7 - l else l
  let ls := lanes.getD at' []
  symsOf (laneSyms long + 2 * fecT long) (if bitOf pol at' then ls.map (fun x => 3 - x) else ls)

/-- The flits of a unit whose data symbols each lane holds. -/
def unitOfLanes (long : Bool) (data : List (List Sym)) : List (BitVec 640) :=
  let n := (upFrom 0 (8 * laneSyms long)).foldr (fun s acc =>
    ((data.getD (s % 8) []).getD (s / 8) 0).toNat + 1024 * acc) 0
  (upFrom 0 (unitFlits long)).map (fun i => BitVec.ofNat 640 (n / 2 ^ (640 * i)))

end Sys2Proof.Machine
end

