-- ==== Sys2Proof/Machine/Links.lean ====
section
/-! DEFINITION. The fabric ports' link layer (R396 to R421), and what becomes of a port's units when it fails or is retired
(R446 to R448). -/
namespace Sys2Proof.Machine

/-! ### Flits (R405, R406, R408) -/

/-- One bit of the link CRC. -/
def crcBit (c : BitVec 16) : BitVec 16 := if bitOf c 15 then (c <<< 1) ^^^ 0x8BB7 else c <<< 1

def crcBits : Nat → BitVec 16 → BitVec 16
  | 0, c => c
  | n + 1, c => crcBits n (crcBit c)

/-- The link CRC of a run of bytes (R405). -/
def crc16 (bs : List Byte) : BitVec 16 :=
  bs.foldl (fun c b => crcBits 8 (c ^^^ (b ++ 0#8))) 0xFFFF

/-- The flit's CRC over bytes 2 to 79. -/
def flitCrc (f : BitVec 640) : BitVec 16 := crc16 ((leBytes 80 f.toNat).drop 2)

/-- The flit with its CRC in place. -/
def sealFlit (f : BitVec 640) : BitVec 640 := setBits f 0 (flitCrc f)

/-- A PKT flit of a unit (R405). -/
def pktFlit (u : FUnit) (seq : BitVec 12) : BitVec 640 :=
  let head : BitVec 128 :=
    1#2 ++ u.vc ++ bits u.op 0 4 ++ ofBool 1 u.pzn ++ u.dst ++ u.src ++ u.eseq ++ u.space ++ u.unit ++ seq ++ 0#16
  u.data ++ head

/-- A CTRL flit (R408). -/
def ctrlFlit (ctype : BitVec 4) (data : BitVec 512) : BitVec 640 := data ++ (2#2 ++ ctype ++ 0#122)

/-- The unit that a PKT flit carries. -/
def flitUnit (f : BitVec 640) : FUnit where
  op := (bits f 119 4).setWidth 8
  vc := bits f 123 3
  src := bits f 86 16
  dst := bits f 102 16
  eseq := bits f 70 16
  space := bits f 66 4
  unit := bits f 28 38
  pzn := bitOf f 118
  data := bits f 128 512

/-- Long-reach mode (R421 FEC). -/
def longReach (s : State) (p : Nat) : Bool := bitOf (devGet s (portBase p + 4)) 28

/-- A flit fills the next slot of the port's unit; a full block or round goes onto the lanes (R399, R400). -/
def fillUnit (s : State) (p : Nat) (f : BitVec 640) : State :=
  let long := longReach s p
  let q := getPort s p
  let unit := q.unit ++ [sealFlit f]
  let s := { s with outbox := s.outbox ++ [.flit p (sealFlit f)] }
  if unit.length < unitFlits long then modPort s p (fun q => { q with unit := unit })
  else
    modPort { s with outbox := s.outbox ++ [.lanes p (unitLanes long unit q.roundCtr)] } p (fun q =>
      { q with unit := [], roundCtr := if long then q.roundCtr + 1 else q.roundCtr })

/-- The next slot carries a NULL flit by the round counter (R401). -/
def mustNull (s : State) (p : Nat) : Bool :=
  longReach s p && (getPort s p).unit.length == 63 && (getPort s p).roundCtr.toNat % 4 == 3

/-- A flit leaves on the port. -/
def emitFlit (s : State) (p : Nat) (f : BitVec 640) : State :=
  fillUnit (if mustNull s p then fillUnit s p 0 else s) p f

/-- The operation may travel on the VC (R406). -/
def opVcOk (op : BitVec 8) (vc : BitVec 3) : Bool :=
  let bulk := decide (5 ≤ vc.toNat)
  match op.toNat with
  | 1 => vc == 1
  | 2 => vc == 2
  | 3 => vc == 1 || bulk
  | 4 => vc == 2
  | 5 => vc == 3 || bulk
  | 6 => vc == 3 || bulk
  | 7 => vc == 4
  | 8 => vc == 4
  | 9 => vc == 3
  | 10 => bulk
  | 11 => bulk
  | 12 => vc == 3
  | 13 => vc == 0
  | _ => false

/-- The operation may arrive on an ingest port (R418), or on a fabric port. -/
def opPortOk (ingest : Bool) (op : BitVec 8) : Bool :=
  if ingest then op == opINGEST || op == opINGEST_LAST || op == opWRITE_ACK || op == opMGMT
  else op != opINGEST && op != opINGEST_LAST && op != opINGEST_STATUS

/-! ### Management units (R416, R417, R449) -/

/-- A MGMT unit with its first data bytes. -/
def mgmtUnit (s : State) (dst : BitVec 16) (mtype : Byte) (rest : List Byte) : FUnit :=
  { op := opMGMT, vc := 0, src := fabDev s, dst := dst, eseq := 0, space := 0, unit := 0, pzn := false,
    data := BitVec.ofNat 512 (leNat ([mtype, 0] ++ rest)) }

/-- The peer's device number (R421). -/
def portPeer (s : State) (p : Nat) : BitVec 16 := bits (devGet s (portBase p + 4)) 0 16

/-- PORT_LAT. -/
def portLat (s : State) (p : Nat) : Nat := (bits (devGet s (portBase p + 8)) 0 10).toNat

/-- A link-local MGMT unit to the port's peer. -/
def sendLocalMgmt (s : State) (p : Nat) (mtype : Byte) : State := pushTx s p (mgmtUnit s (portPeer s p) mtype [])

/-- The port sends no new unit of VC1 to VC7 (R417, R423). -/
def dataStopped (s : State) (p : Nat) : Bool :=
  let q := getPort s p
  q.stopTx || q.asked || (isFabric s p && fabDev s == 0xFFFF)

/-- The state of a port that carries traffic: QUIESCED while its data is stopped, otherwise ACTIVE (R417, R421, R423). -/
def settlePort (s : State) (p : Nat) : State :=
  if portState s p = 2 ∨ portState s p = 3 then setPortState s p (if dataStopped s p then 3 else 2) else s

/-! ### Timing events (R412, R447, R501) -/

/-- A timing event of a port (R585). -/
def portTiming (s : State) (p : Nat) : State := timingEvent s 6 p

/-- The first re-send after a failure is logged as it leaves (R447, R585). -/
def logResend (s : State) (u : FUnit) : State :=
  let ps := ((s.fab.resendDue.filter (fun r => r.2 == u)).map (·.1)).eraseDups
  ps.foldl portTiming { s with fab := { s.fab with resendDue := s.fab.resendDue.filter (fun r => !ps.contains r.1) } }

/-! ### Failure and retirement (R446 to R448) -/

/-- The offsets of all route entries (R450). -/
def routeEntries : List Nat :=
  (upFrom 0 512).map (fun g => 0x71000 + 4 * g) ++ (upFrom 0 128).map (fun m => 0x71800 + 4 * m)

/-- The port that an entry chooses for VC1 to VC7 (R428). -/
def chosenPort (e : Word) : Option Nat :=
  if bitOf e 29 then (if bitOf e 30 then some (bits e 4 4).toNat else none)
  else if bitOf e 31 then some (bits e 0 4).toNat
  else none

/-- Step 1 of R446: USE_ALT is set where the alternate can serve. -/
def useAlternates (s : State) (p : Nat) : State :=
  routeEntries.foldl (fun s o =>
    let e := devGet s o
    if chosenPort e = some p ∧ !bitOf e 29 ∧ bitOf e 30 ∧ inService s (bits e 4 4).toNat then
      devSet s o (e ||| 0x20000000)
    else s) s

/-- Steps 2 and 3 of R446 for one unit. -/
def moveUnit (s : State) (p : Nat) (u : FUnit) : State :=
  match egress s u.dst u.vc with
  | some q =>
    if q = p then s
    else if u.vc = 0 then pushTx s q u
    else modPort s q (fun k => { k with resent := k.resent ++ [u] })
  | none => if u.vc = 0 then s else noRouteFor s u

/-- The units of the replay buffer, oldest first; one for an endpoint with the ESEQ that it had on its way here (R435). -/
def replayUnits (q : Port) : List FUnit :=
  q.replay.map (fun e => match q.orig.find? (fun o => o.1 == e.1) with
    | some o => { e.2.1 with eseq := o.2 }
    | none => e.2.1)

/-- R446: entries switch to their alternates, and the port's units take their new ways. An endpoint's acknowledgements can
reach the port no longer (R418). -/
def recoverPort (s : State) (p : Nat) : State :=
  let q := getPort s p
  let units := replayUnits q ++ q.resent ++ q.txq
  let s := modPort s p (fun q => { q with replay := [], orig := [], resend := 0, resent := [], txq := [], fwd := [] })
  units.foldl (fun s u => moveUnit s p u) (useAlternates s p)

/-- The command that waits for the port ends (R575). -/
def portHole (s : State) (p : Nat) (status : BitVec 16) (resp : List Byte) : State :=
  match (getPort s p).hole with
  | none => s
  | some h => completeHole (modPort s p (fun q => { q with hole := none })) h status 0 0 resp

/-- The port becomes FAILED (R403, R412, R446, R447). -/
def portFailed (s : State) (p : Nat) : State :=
  let s := setPortState s p 5
  let s := modPort s p (fun q => { q with asked := false, quiesced := false, quiesceThen := 0, stopTx := false, answer := false })
  let s := pushEvent s 0x0021 (BitVec.ofNat 16 p) ((devGet s (portBase p + 4)).setWidth 64)
  let moved := (replayUnits (getPort s p)).map (fun u => (p, u))
  let s := portTiming (recoverPort s p) p
  let s := { s with fab := { s.fab with resendDue := s.fab.resendDue.filter (fun r => r.1 != p) ++ moved } }
  portHole s p stUNAVAILABLE []

/-- The port is RETIRED once it is quiet (R448); it carries nothing of VC1 to VC7 before a ROUTE_LOAD names it (R575). -/
def portRetired (s : State) (p : Nat) : State :=
  let s := recoverPort (setPortState s p 6) p
  let s := modPort s p (fun q => { q with shut := true, asked := false, quiesced := false, quiesceThen := 0, stopTx := false, answer := false })
  portHole s p stOK []

/-! ### Training (R403, R404, R407, R415) -/

/-- The port is training (R421). -/
def inTraining (s : State) (p : Nat) : Bool := portState s p == 1 || portState s p == 4

def byteZero (_ : Nat) : Byte := 0
def tapDefault (_ : Nat) : Int := 0

/-- A request of the peer for a tap of lane `l`'s transmitter (R403): hold changes nothing; the others move the tap by one step
within its range, or to its preset, and leave their status. A transmitter has taps 0 to 4. -/
def takeCoef (q : Port) (l : Nat) (req : Byte) : Port :=
  let tap := (bits req 0 3).toNat
  let v := tget tapDefault q.coefs (8 * l + tap)
  let put (v : Int) : Port :=
    { q with coefs := tset tapDefault q.coefs (8 * l + tap) v, coefStat := tset byteZero q.coefStat l 0 }
  let limit : Port := { q with coefStat := tset byteZero q.coefStat l 1 }
  match (bits req 3 2).toNat with
  | 0 => q
  | a =>
    if 4 < tap then { q with coefStat := tset byteZero q.coefStat l 2 }
    else if a = 3 then put 0
    else if a = 1 then (if v < ((Config.tapRange tap).2 : Int) then put (v + 1) else limit)
    else if -((Config.tapRange tap).1 : Int) < v then put (v - 1) else limit

/-- The requests that each lane's receiver makes. -/
def putRequests (l : List Byte) : Tab Byte :=
  (upFrom 0 8).foldl (fun t i => tset byteZero t i (l.getD i 0)) []

/-- The training frame of one lane (R403). -/
def trainFrame (s : State) (p lane : Nat) : List Byte :=
  let q := getPort s p
  let ingest := isIngest s p
  let ready := q.phase != .detect && (q.phase != .equalise || q.eqDone)
  let role := (if ingest then 3 else 1) + 4 + 8 + (if ready then 16 else 0) + (if q.phase = .fecStart then 32 else 0)
  let body : List Byte :=
    [0x96, 0xF0, 0x5A, 0x0F, BitVec.ofNat 8 lane, BitVec.ofNat 8 role] ++ leBytes 2 (fabDev s).toNat ++
      leBytes 2 q.expect.toNat ++ [tget byteZero q.coefReq lane, tget byteZero q.coefStat lane] ++ leBytes 2 (if ingest then (bits q.cfg 0 16).toNat else 0) ++
      List.replicate 16 0
  body ++ leBytes 2 (crc16 body).toNat

/-- The frames of a phase leave on the eight lanes. -/
def sendFrames (s : State) (p : Nat) : State :=
  { s with outbox := s.outbox ++ (upFrom 0 8).map (fun l => .frame p (trainFrame s p l)) }

/-- The port enters a training phase. -/
def enterPhase (s : State) (p : Nat) (ph : TPhase) : State :=
  let s := modPort s p (fun q => { q with phase := ph })
  match ph with
  | .equalise => sendFrames s p
  | .identify => sendFrames s p
  | .fecStart => sendFrames s p
  | _ => s

/-- A training starts (R403, R412, R416, R421): it takes PORT_CFG, and a port that carried traffic counts and logs a retrain.
A fast one keeps the coefficients and needs a port that has them. A port whose MODE is off does not train. -/
def startTraining (s : State) (p : Nat) (fast : Bool) : State :=
  let cfg := devGet s (portBase p)
  let st := portState s p
  if (bits cfg 30 2 ≠ 1 ∧ bits cfg 30 2 ≠ 2) ∨ inTraining s p then s
  else
    let live := st == 2 || st == 3
    let fast := fast && live
    let s := if live then portTiming (devCount s (portBase p + 0x18) 16 16 1) p else s
    let s := setPortState s p (if fast then 4 else 1)
    let s := if bits cfg 30 2 = 2 then devSet s (portBase p + 4) (devGet s (portBase p + 4) &&& 0xF7FFFFFF) else s
    modPort s p (fun q =>
      { q with
        cfg := cfg, phase := .detect, fast := fast, again := live, serOk := false, sawStart := false, eqDone := false,
        peerRole := 0, probes := [], ownLat := none,
        proposed := none, coefReq := [], resend := 0, nakSeq := none, ignore := none, replays := 0, lastReplay := none })

/-- The units of a list on a VC. -/
def onVc (l : List FUnit) (v : Nat) : Nat := (l.filter (fun u => u.vc.toNat == v)).length

/-- FEC START (R407, R412, R413, R415, R435): the replay buffer resumes at the peer's EXPLSEQ, there is no credit before the
peer's first LINK flit, the numbers towards an endpoint start again, and the sixteen latency probes leave. -/
def fecStart (s : State) (p : Nat) : State :=
  let s := modPort s p (fun q =>
    let kept := q.replay.filter (fun e => decide (2048 ≤ (q.peerSeq - e.1 - 1).toNat))
    let again := kept.zipIdx.map (fun e => (q.peerSeq + BitVec.ofNat 12 e.2, e.1.2))
    let orig := kept.zipIdx.filterMap (fun e =>
      (q.orig.find? (fun o => o.1 == e.1.1)).map (fun o => (q.peerSeq + BitVec.ofNat 12 e.2, o.2)))
    let sent := (upFrom 0 8).foldl (fun t v =>
      tset ctrDefault t v (BitVec.ofNat 16 (onVc (again.map (fun e => e.2.1)) v))) []
    { q with
      replay := again, resend := again.length, nextSeq := q.peerSeq + BitVec.ofNat 12 again.length,
      sent := sent, cred := sent, freed := [], linkDue := true, waiting := false, nakDue := false, slots := 0, unit := [], roundCtr := 0,
      badRuns := [], eseq := [], orig := orig })
  let s := enterPhase s p .latency
  (upFrom 0 16).foldl (fun s _ => emitFlit s p (ctrlFlit 1 (BitVec.ofNat 512 (s.meshCycle % 2 ^ 32)))) s

/-- LATENCY ends (R415, R417, R423, R575): both sides adopt the larger value. A quiesce that waits survives a fast retrain, and the
full training for which it was asked ends it. -/
def trained (s : State) (p lat : Nat) : State :=
  let s := devSet s (portBase p + 8) (BitVec.ofNat 32 (min lat 1023))
  let s := settlePort (setPortState s p 2) p
  let s := if (getPort s p).quiesceThen = 1 ∧ !(getPort s p).fast then
      settlePort (sendLocalMgmt (modPort s p (fun q => { q with asked := false, quiesced := false, quiesceThen := 0 })) p 3) p
    else s
  let s := if (getPort s p).again then portTiming s p else s
  if (getPort s p).quiesceThen ≠ 0 then s
  else portHole s p stOK (leBytes 4 (devGet s (portBase p + 4)).toNat ++ leBytes 4 (portLat s p))

/-- The FEC mode that R404 chooses: `some true` for long-reach, none where the port fails. -/
def fecChoice (cfg : Word) (role : BitVec 8) (serOk : Bool) : Option Bool :=
  let req := (bits cfg 28 2).toNat
  if bitOf role 2 && req != 2 && serOk then some false
  else if bitOf role 3 && req != 1 then some true
  else none

/-- The peer's role and number are those R403 and R418 ask for. -/
def peerOk (q : Port) : Bool :=
  if bits q.cfg 30 2 = 1 then bits q.peerRole 0 2 == 1
  else bits q.peerRole 0 2 == 2 && q.peerDev == bits q.cfg 0 16

/-- What the end of IDENTIFY leaves in PORT_STAT (R397, R416, R421). Only a part that uses REFCLK25 can be frequency-locked (R595). -/
def identifiedStat (q : Port) (refExt : Bool) (old : Word) (obs : TrainObs) : Word :=
  setBits (setBits (setBits (setBits old 27 (ofBool 1 (obs.refLocked && refExt && bits q.cfg 30 2 == 1))) 26 (ofBool 1 obs.rev))
    18 obs.pol) 0 q.peerDev

/-- The current phase ends with what the port has observed. EQUALISE ends once both sides report it done: this side in READY of
its frames, the peer in READY of those it has sent (R403). -/
def phaseEnd (s : State) (p : Nat) (obs : TrainObs) : State :=
  let q := getPort s p
  match q.phase with
  | .detect => if obs.lanes = 0xFF then enterPhase s p (if q.fast then .identify else .equalise) else s
  | .equalise =>
    let own := q.eqDone || obs.phaseDone
    let s := modPort s p (fun q => { q with eqDone := own, coefReq := if own then [] else putRequests obs.coef })
    if own && bitOf q.peerRole 4 then enterPhase s p .identify else sendFrames s p
  | .identify =>
    if !obs.phaseDone then s
    else if !peerOk q then portFailed s p
    else enterPhase (devSet s (portBase p + 4) (identifiedStat q s.mod.refExt (devGet s (portBase p + 4)) obs)) p .measure
  | .measure =>
    match fecChoice q.cfg q.peerRole obs.serOk with
    | none => portFailed s p
    | some long => enterPhase (devSet s (portBase p + 4) (setBits (devGet s (portBase p + 4)) 28 (ofBool 1 long))) p .fecStart
  | .fecStart => if q.sawStart then fecStart s p else s
  | .latency =>
    match q.ownLat, q.proposed with
    | some a, some b => trained s p (max a b)
    | _, _ => s

/-- TRAINING_START (R403, R412). -/
def execTrainingStart (port : Fin 16) (fast : Bool) (s : State) : Host.Outcome State Fault Refusal :=
  .next (startTraining s port.val fast)

/-- TRAINING_FRAME (R403): a frame of the peer arrives intact. -/
def execTrainingFrame (port : Fin 16) (frame : List (BitVec 8)) (s : State) : Host.Outcome State Fault Refusal :=
  let p := port.val
  let body := frame.take 30
  if inTraining s p ∧ frame.length = 32 ∧ frame.take 4 = [0x96, 0xF0, 0x5A, 0x0F] ∧
      leAt frame 30 2 = (crc16 body).toNat then
    .next (modPort s p (fun q =>
      let l := leAt frame 4 1 % 8
      let q := takeCoef q l (BitVec.ofNat 8 (leAt frame 10 1))
      { q with
        peerRole := BitVec.ofNat 8 (leAt frame 5 1), peerDev := BitVec.ofNat 16 (leAt frame 6 2),
        peerSeq := BitVec.ofNat 12 (leAt frame 8 2), sawStart := q.sawStart || leAt frame 5 1 / 32 % 2 == 1
        coefAns := tset byteZero q.coefAns l (BitVec.ofNat 8 (leAt frame 11 1)) }))
  else .next s

/-- TRAINING_PHASE_END (R403, R404). -/
def execTrainingPhaseEnd (port : Fin 16) (obs : TrainObs) (s : State) : Host.Outcome State Fault Refusal :=
  .next (if inTraining s port.val then phaseEnd s port.val obs else s)

/-- TRAINING_TIMEOUT (R403): a phase or the whole training has overrun its limit. -/
def execTrainingTimeout (port : Fin 16) (s : State) : Host.Outcome State Fault Refusal :=
  .next (if inTraining s port.val then portFailed s port.val else s)

/-- The port is in its LATENCY phase. -/
def inLatency (s : State) (p : Nat) : Bool := inTraining s p && (getPort s p).phase == .latency

/-- A probe arrives and is echoed (R415). -/
def latpAction (s : State) (p : Nat) (stamp : Word) : State :=
  if inLatency s p then emitFlit s p (ctrlFlit 2 (stamp.setWidth 512)) else s

/-- An echo arrives; the sixteenth gives this side's value (R415). -/
def lateAction (s : State) (p : Nat) (stamp hold : Word) : State :=
  if !inLatency s p || (getPort s p).ownLat.isSome then s
  else
    let trip := (BitVec.ofNat 32 s.meshCycle - stamp).toNat
    let probes := (getPort s p).probes ++ [trip - hold.toNat - 40]
    if probes.length < 16 then modPort s p (fun q => { q with probes := probes })
    else
      let v := (probes.foldl max 0 + 1) / 2
      emitFlit (modPort s p (fun q => { q with probes := probes, ownLat := some v })) p (ctrlFlit 3 (BitVec.ofNat 512 v))

/-- The peer's proposal arrives (R415). -/
def latrAction (s : State) (p : Nat) (v : BitVec 16) : State :=
  if inLatency s p then modPort s p (fun q => { q with proposed := some v.toNat }) else s

/-- LATP (R415). -/
def execLatp (port : Fin 16) (stamp : BitVec 32) (s : State) : Host.Outcome State Fault Refusal :=
  .next (latpAction s port.val stamp)

/-- LATE (R415). -/
def execLate (port : Fin 16) (stamp hold : BitVec 32) (s : State) : Host.Outcome State Fault Refusal :=
  .next (lateAction s port.val stamp hold)

/-- LATR (R415). -/
def execLatr (port : Fin 16) (value : BitVec 16) (s : State) : Host.Outcome State Fault Refusal :=
  .next (latrAction s port.val value)

/-! ### Sending (R407, R409, R413, R430, R435) -/

/-- The buffer of a VC (R413). -/
def bufSize (v : Nat) : Nat := if v = 0 then 16 else if v < 5 then 512 else 2048

/-- The LINK flit that tells the receiver's state (R408, R410, R413). -/
def linkData (q : Port) : BitVec 512 :=
  let cred := (upFrom 0 8).foldl (fun acc v =>
    acc + ((bufSize v + (tget ctrDefault q.freed v).toNat) % 2 ^ 16) * 2 ^ (32 + 16 * v)) 0
  BitVec.ofNat 512
    ((q.expect - 1).toNat + (if q.ackv then 2 ^ 12 else 0) + (if q.waiting then 2 ^ 13 + q.expect.toNat * 2 ^ 16 else 0) + cred)

/-- A LINK flit leaves. -/
def sendLink (s : State) (p : Nat) : State :=
  let s := emitFlit s p (ctrlFlit 0 (linkData (getPort s p)))
  modPort s p (fun q => { q with nakDue := false, linkDue := false, changed := false, slots := 0 })

/-- Credit on a VC (R413). -/
def hasCredit (q : Port) (v : Nat) : Bool := tget ctrDefault q.cred v != tget ctrDefault q.sent v

/-- Two units of one flow. -/
def sameFlow (a b : FUnit) : Bool := a.src == b.src && a.dst == b.dst && a.vc == b.vc

/-- The unit of VC `v` that leaves next: one that recovery has moved here, once the flow's earlier units on this port are
acknowledged (R446), or the first that waits; not a WRITE to an endpoint that has 4,096 unacknowledged (R435). -/
def candidate (q : Port) (v : Nat) : Option FUnit :=
  let full := decide (4096 ≤ q.fwd.length) && bits q.cfg 30 2 == 2
  let ok (u : FUnit) : Bool := u.vc.toNat == v && !(full && u.op == opWRITE)
  match q.resent.find? (fun u => ok u && !q.replay.any (fun e => sameFlow e.2.1 u)) with
  | some u => some u
  | none => q.txq.find? (fun u => ok u && !q.resent.any (sameFlow u))

/-- The list without the first occurrence of a unit. -/
def dropUnit (l : List FUnit) (u : FUnit) : List FUnit := l.erase u

/-- A new unit leaves on the port: it takes its LSEQ and a place in the replay buffer, and one for an endpoint its number
there (R407, R435). -/
def sendNew (s : State) (p : Nat) (u : FUnit) : State :=
  let q := getPort s p
  let v := u.vc.toNat
  let ingest := bits q.cfg 30 2 == 2 && v != 0
  let there := tget ctrDefault q.eseq v
  let u' := if ingest then { u with eseq := there } else u
  let s := modPort s p (fun q =>
    { q with
      resent := if q.resent.contains u then dropUnit q.resent u else q.resent
      txq := if q.resent.contains u then q.txq else dropUnit q.txq u
      replay := q.replay ++ [(q.nextSeq, u', s.meshCycle)]
      nextSeq := q.nextSeq + 1
      sent := tset ctrDefault q.sent v (tget ctrDefault q.sent v + 1)
      eseq := if ingest then tset ctrDefault q.eseq v (there + 1) else q.eseq
      orig := if ingest then q.orig ++ [(q.nextSeq, u.eseq)] else q.orig
      fwd := if ingest && u.op == opWRITE then q.fwd ++ [(u.vc, there, u.src, u.eseq)] else q.fwd
      lastVc := if v = 0 then q.lastVc else v
      slots := q.slots + 1 })
  emitFlit (logResend s u) p (pktFlit u' q.nextSeq)

/-- The VCs after the last one served, in rotating order. -/
def vcOrder (last : Nat) : List Nat := (upFrom 0 7).map (fun i => (last + i) % 7 + 1)

/-- The next new unit on VC1 to VC7, if any may leave. -/
def nextData (s : State) (p : Nat) : Option FUnit :=
  let q := getPort s p
  if dataStopped s p then none
  else (vcOrder q.lastVc).findSome? (fun v => if hasCredit q v then candidate q v else none)

/-- The slot carries nothing (R405). -/
def sendNull (s : State) (p : Nat) : State := emitFlit (modPort s p (fun q => { q with slots := q.slots + 1 })) p 0

/-- What fills a slot of a port that carries traffic, in the order of R409. -/
def fillSlot (s : State) (p : Nat) : State :=
  let q := getPort s p
  let room := decide (q.replay.length < 2048)
  if q.nakDue || q.linkDue then sendLink s p
  else if 0 < q.resend then
    match q.replay[q.replay.length - q.resend]? with
    | some (seq, u, _) =>
      emitFlit (modPort s p (fun q => { q with resend := q.resend - 1, slots := q.slots + 1 })) p (pktFlit u seq)
    | none => sendNull s p
  else match (if room && hasCredit q 0 then candidate q 0 else none) with
    | some u => sendNew s p u
    | none =>
      if q.changed && decide (16 ≤ q.slots) then sendLink s p
      else match (if room then nextData s p else none) with
        | some u => sendNew s p u
        | none => sendNull s p

/-- FLIT_SLOT (R401, R409): a slot of the port's direction is filled. In training only LINK flits leave, after FEC START. -/
def execFlitSlot (port : Fin 16) (s : State) : Host.Outcome State Fault Refusal :=
  let p := port.val
  let live := portState s p = 2 ∨ portState s p = 3
  if !(live ∨ inLatency s p) then .next s
  else if mustNull s p then .next (fillUnit (modPort s p (fun q => { q with slots := q.slots + 1 })) p 0)
  else if live then .next (fillSlot s p)
  else if (getPort s p).linkDue then .next (sendLink s p)
  else .next (sendNull s p)

/-! ### What waits for acknowledgements (R417, R448, R449, R575) -/

/-- Every unit that the port sent on VC1 to VC7 is acknowledged. -/
def dataAcked (s : State) (p : Nat) : Bool := (getPort s p).replay.all (fun e => e.2.1.vc == 0)

/-- PORT_QUIESCED is sent when it is owed and due (R417). -/
def payQuiesced (s : State) (p : Nat) : State :=
  if (getPort s p).answer && dataAcked s p then
    sendLocalMgmt (modPort s p (fun q => { q with answer := false })) p 2
  else s

/-- A full training or a retirement goes on once the quiesce is complete (R448, R575). -/
def afterQuiesce (s : State) (p : Nat) : State :=
  let q := getPort s p
  if q.asked && q.quiesced && dataAcked s p then
    if q.quiesceThen = 1 then startTraining s p false
    else if q.quiesceThen = 2 then portRetired s p
    else s
  else s

/-- A unit of VC1 to VC7 that this device sent to `dst` is not acknowledged, be it held under a switching entry. -/
def unackedTo (s : State) (dst : BitVec 16) : Bool :=
  (upFrom 0 16).any (fun p =>
    let q := getPort s p
    q.replay.any (fun e => e.2.1.dst == dst && e.2.1.vc != 0 && e.2.1.src == fabDev s) ||
      (q.resent ++ q.txq).any (fun u => u.dst == dst && u.vc != 0 && u.src == fabDev s)) ||
    s.fab.waiting.any (fun w => w.numbered && w.unit.dst == dst && w.unit.vc != 0 && w.unit.src == fabDev s)

/-- A MGMT unit of this device takes any available route (R429). -/
def sendMgmt (s : State) (dst : BitVec 16) (mtype : Byte) (rest : List Byte) : State :=
  sendUnit s (mgmtUnit s dst mtype rest) none

/-- INJECT_STOPPED is sent to those to whom it is owed and due (R449). -/
def payStopped (s : State) : State :=
  let due := s.fab.stopOwed.filter (fun d => !unackedTo s d)
  due.foldl (fun s d => sendMgmt s d 0x16 [])
    { s with fab := { s.fab with stopOwed := s.fab.stopOwed.filter (fun d => unackedTo s d) } }

/-! ### Receiving (R406 to R413, R418) -/

/-- The entries that an ACK leaves: those after the acknowledged LSEQ. -/
def afterAck (l : List (BitVec 12 × FUnit × Nat)) (ack : BitVec 12) : List (BitVec 12 × FUnit × Nat) :=
  if l.any (fun e => e.1 == ack) then (l.dropWhile (fun e => e.1 != ack)).drop 1 else l

/-- The contents of a LINK flit take effect (R408, R410, R411, R413). -/
def linkAction (s : State) (p : Nat) (data : BitVec 512) : State :=
  let s := modPort s p (fun q =>
    let left := if bitOf data 12 then afterAck q.replay (bits data 0 12) else q.replay
    let nak := bits data 16 12
    let ignored := match q.ignore with
      | some (n, until_) => n == nak && decide (s.meshCycle < until_)
      | none => false
    { q with
      replay := left
      orig := q.orig.filter (fun o => left.any (fun e => e.1 == o.1))
      resend := min q.resend left.length
      replays := if left.length < q.replay.length then 0 else q.replays
      lastReplay := if left.length < q.replay.length then none else q.lastReplay
      nakSeq := if bitOf data 13 && !ignored then some nak else q.nakSeq
      cred := (upFrom 0 8).foldl (fun t v => tset ctrDefault t v (bits data (32 + 16 * v) 16)) q.cred })
  payStopped (afterQuiesce (payQuiesced s p) p)

/-- A buffer of the port becomes free (R413); credit of VC0 is due at once (R409). -/
def freeBuffer (s : State) (p : Nat) (vc : BitVec 3) : State :=
  modPort s p (fun q =>
    { q with
      freed := tset ctrDefault q.freed vc.toNat (tget ctrDefault q.freed vc.toNat + 1)
      changed := true
      linkDue := q.linkDue || vc == 0 })

/-- A link-local MGMT unit (R417). -/
def linkLocal (u : FUnit) : Bool := u.op == opMGMT && decide (1 ≤ (bits u.data 0 8).toNat ∧ (bits u.data 0 8).toNat ≤ 3)

/-- The unit is for this device, or for an endpoint that it hosts (R422, R435). -/
def isForHere (s : State) (u : FUnit) : Bool := u.dst == fabDev s || (endpointPort s u.dst).isSome

/-- A MGMT unit of an MTYPE that R417 and R449 do not list is discarded. -/
def strayMgmt (u : FUnit) : Bool :=
  let m := (bits u.data 0 8).toNat
  u.op == opMGMT && !(decide (1 ≤ m ∧ m ≤ 3) || decide (0x10 ≤ m ∧ m ≤ 0x17))

/-- An accepted PKT flit's unit (R406, R418): it is discarded and counted, passes on, or waits in its buffer to be
applied. -/
def acceptUnit (s : State) (p : Nat) (u : FUnit) : State :=
  let ingest := isIngest s p
  if !opVcOk u.op u.vc || !opPortOk ingest u.op then devCount (freeBuffer s p u.vc) (portBase p + 0x14) 0 16 1
  else if strayMgmt u && (ingest || isForHere s u) then freeBuffer s p u.vc
  else if ingest || linkLocal u || isForHere s u then modPort s p (fun q => { q with rx := q.rx ++ [u] })
  else transit (freeBuffer s p u.vc) u

/-- A PKT flit whose CRC passes (R410). -/
def receivePkt (s : State) (p : Nat) (f : BitVec 640) : State :=
  let q := getPort s p
  if bits f 16 12 = q.expect then
    acceptUnit (modPort s p (fun q =>
      { q with expect := q.expect + 1, waiting := false, nakDue := false, ackv := true, changed := true })) p (flitUnit f)
  else if q.waiting then s
  else modPort s p (fun q => { q with waiting := true, nakDue := true })

/-- A CTRL flit whose CRC passes (R408). -/
def receiveCtrl (s : State) (p : Nat) (f : BitVec 640) : State :=
  let d : BitVec 512 := bits f 128 512
  match (bits f 122 4).toNat with
  | 0 => linkAction s p d
  | 1 => latpAction s p (bits d 0 32)
  | 2 => lateAction s p (bits d 0 32) (bits d 32 32)
  | 3 => latrAction s p (bits d 0 16)
  | _ => s

/-- A flit arrives, whole as the decoder gives it; `ok` says that no codeword under it was uncorrectable (R402, R405, R410). -/
def receiveFlit (s : State) (p : Nat) (flit : BitVec 640) (ok : Bool) : State :=
  let live := portState s p = 2 ∨ portState s p = 3
  let kind := (bits flit 126 2).toNat
  if !(live ∨ inLatency s p) then s
  else if !ok ∨ kind = 3 ∨ bits flit 0 16 ≠ flitCrc flit then
    let s := devCount s (portBase p + 0x10) 16 16 1
    if kind = 1 ∧ live ∧ !(getPort s p).waiting then
      modPort s p (fun q => { q with waiting := true, nakDue := true }) else s
  else if kind = 1 then (if live then receivePkt s p flit else s)
  else if kind = 2 then receiveCtrl s p flit
  else s

def runDefault (_ : Nat) : Nat := 0

/-- The codeword of a lane is decoded (R399, R402): its data symbols, and whether it could be corrected. Corrected symbols are
counted for the lane, an uncorrectable codeword for the port and in the lane's run of them. -/
def decodeLane (s : State) (p : Nat) (long : Bool) (l : Nat) (w : List Sym) : State × List Sym × Bool :=
  let run (s : State) (n : Nat) : State := modPort s p (fun q => { q with badRuns := tset runDefault q.badRuns l n })
  match rsCorrect (fecT long) w with
  | some (w, n) => (run (devCount s (portBase p + 0x20 + 4 * l) 0 24 n) 0, w.take (laneSyms long), true)
  | none =>
    (run (devCount s (portBase p + 0x14) 16 16 1) (tget runDefault (getPort s p).badRuns l + 1), w.take (laneSyms long), false)

/-- The eight lanes of a unit are decoded. -/
def decodeLanes (s : State) (p : Nat) (lanes : List (List (BitVec 2))) : State × List (List Sym) × Bool :=
  let stat := devGet s (portBase p + 4)
  let long := longReach s p
  (upFrom 0 8).foldl (fun (s, data, ok) l =>
    let (s, d, good) := decodeLane s p long l (laneWord long (bitOf stat 26) (bits stat 18 8) lanes l)
    (s, data ++ [d], ok && good)) (s, [], true)

/-- A lane has lost block lock (R402): four consecutive codewords were uncorrectable. -/
def lockLost (s : State) (p : Nat) : Bool := (getPort s p).badRuns.any (fun r => decide (4 ≤ r.2))

/-- A unit arrives on the lanes (R399 to R402): it is decoded, and its flits are received in order; an uncorrectable codeword
touches all of them, since each flit is spread over all lanes. -/
def receiveLanes (s : State) (p : Nat) (lanes : List (List (BitVec 2))) : State :=
  if !(portState s p = 2 ∨ portState s p = 3 ∨ inLatency s p) then s
  else
    let (s, data, ok) := decodeLanes s p lanes
    let s := (unitOfLanes (longReach s p) data).foldl (fun s f => receiveFlit s p f ok) s
    if lockLost s p ∧ (portState s p = 2 ∨ portState s p = 3) then startTraining s p true else s

/-- FLIT_RECEIVE (R402, R405, R408, R410): a flit arrives on a port that carries traffic or has passed FEC START. -/
def execFlitReceive (port : Fin 16) (rx : Rx) (s : State) : Host.Outcome State Fault Refusal :=
  match rx with
  | .flit f => .next (receiveFlit s port.val f true)
  | .lanes levels => .next (receiveLanes s port.val levels)

/-- LINK_CTRL (R408): the data field of a LINK flit arrives. -/
def execLinkCtrl (port : Fin 16) (data : BitVec 512) (s : State) : Host.Outcome State Fault Refusal :=
  let p := port.val
  .next (if portState s p = 2 ∨ portState s p = 3 ∨ inLatency s p then linkAction s p data else s)

/-! ### Replay and retrains (R402, R411, R412) -/

/-- The transmitter replays from entry `i` of its buffer (R411); eight consecutive replays of one LSEQ start a fast retrain
(R412). -/
def replayFrom (s : State) (p i : Nat) : State :=
  match (getPort s p).replay[i]? with
  | none => s
  | some (seq, _, x) =>
    let s := devCount s (portBase p + 0x10) 0 16 1
    let lat := portLat s p
    let s := modPort s p (fun q =>
      { q with
        resend := q.replay.length - i
        nakSeq := none
        ignore := some (seq, x + 4 * lat + 96)
        replays := if q.lastReplay = some seq then q.replays + 1 else 1
        lastReplay := some seq })
    if 8 ≤ (getPort s p).replays then startTraining s p true else s

/-- REPLAY_NAK (R411): the NAK for flit `seq` is served. -/
def execReplayNak (port : Fin 16) (seq : BitVec 12) (s : State) : Host.Outcome State Fault Refusal :=
  let p := port.val
  let q := getPort s p
  .next (if (portState s p = 2 ∨ portState s p = 3) ∧ q.nakSeq = some seq then
    match q.replay.findIdx? (fun e => e.1 == seq) with
    | some i => replayFrom s p i
    | none => modPort s p (fun q => { q with nakSeq := none })
  else s)

/-- REPLAY_TIMEOUT (R411): no ACK has advanced for the oldest unacknowledged flit. -/
def execReplayTimeout (port : Fin 16) (s : State) : Host.Outcome State Fault Refusal :=
  let p := port.val
  .next (if (portState s p = 2 ∨ portState s p = 3) ∧ (getPort s p).resend < (getPort s p).replay.length then
    replayFrom s p 0 else s)

/-- LOSS_OF_SIGNAL (R412). -/
def execLossOfSignal (port : Fin 16) (_lane : Fin 8) (s : State) : Host.Outcome State Fault Refusal :=
  let p := port.val
  .next (if portState s p = 2 ∨ portState s p = 3 then startTraining s p true else s)

/-- BLOCK_LOCK_LOSS (R402, R412): four consecutive uncorrectable codewords on a lane, of which those that the port has decoded
are counted already. -/
def execBlockLockLoss (port : Fin 16) (lane : Fin 8) (s : State) : Host.Outcome State Fault Refusal :=
  let p := port.val
  let more := 4 - tget runDefault (getPort s p).badRuns lane.val
  .next (if portState s p = 2 ∨ portState s p = 3 then startTraining (devCount s (portBase p + 0x14) 16 16 more) p true else s)

/-! ### Quiescing (R417, R448, R575) -/

/-- This side quiesces the port, for a full training (1) or a retirement (2). -/
def askQuiesce (s : State) (p what : Nat) : State :=
  let s := modPort s p (fun q => { q with asked := true, quiesced := false, quiesceThen := what })
  settlePort (sendLocalMgmt s p 1) p

/-- The oldest unit in the port's buffers for which `f` holds leaves its buffer (R413). -/
def takeRx (s : State) (p : Nat) (f : FUnit → Bool) : State :=
  match (getPort s p).rx.find? f with
  | none => s
  | some u => freeBuffer (modPort s p (fun q => { q with rx := dropUnit q.rx u })) p u.vc

/-- A MGMT unit of this MTYPE. -/
def isMgmt (m : Nat) (u : FUnit) : Bool := u.op == opMGMT && decide ((bits u.data 0 8).toNat = m)

/-- PORT_QUIESCE (R417): received from a peer device; an endpoint does not send it (R418). One that meets a retrain survives
it. -/
def execPortQuiesce (port : Fin 16) (s : State) : Host.Outcome State Fault Refusal :=
  let p := port.val
  let s := takeRx s p (isMgmt 1)
  if (inService s p ∨ inTraining s p) ∧ isFabric s p then
    let s := settlePort (modPort s p (fun q => { q with stopTx := true, answer := true })) p
    .next (payQuiesced s p)
  else .next s

/-- PORT_QUIESCED (R417). -/
def execPortQuiesced (port : Fin 16) (s : State) : Host.Outcome State Fault Refusal :=
  let p := port.val
  let s := takeRx s p (isMgmt 2)
  if (getPort s p).asked then .next (afterQuiesce (modPort s p (fun q => { q with quiesced := true })) p) else .next s

/-- PORT_RESUME (R417). -/
def execPortResume (port : Fin 16) (s : State) : Host.Outcome State Fault Refusal :=
  let p := port.val
  let s := takeRx s p (isMgmt 3)
  if isFabric s p then .next (settlePort (modPort s p (fun q => { q with stopTx := false, answer := false })) p) else .next s

end Sys2Proof.Machine
end

