-- ==== Sys2Proof/Machine/Fabric.lean ====
section
/-! DEFINITION. What arrives over the fabric (R422 to R450): end-to-end order, remote operations and their answers, trees,
management units and route changes. -/
namespace Sys2Proof.Machine

/-! ### Answers to this device's own operations (R436, R438, R333) -/

/-- A late answer is counted (R438). -/
def countLate (s : State) : State := devCount s 0x70014 0 16 1

/-- A line that control core `k` wrote back has been acknowledged: after the last one its thread goes on (R489). -/
def endCmo (s : State) (k : Nat) : State :=
  if cmoOpen s k then s
  else modTh s (576 + k) 0 (fun th => if th.block = some .cmo then { th with block := none } else th)

/-- A remote operation completes: with the data of a read, or with an error (R312, R436, R438). -/
def finishRemote (s : State) (what : Asked) (err : Bool) (data : Option Unit64) : State :=
  match what with
  | .farRead slot id =>
    match (getCore s slot).far.find? (fun f => f.id == id) with
    | some f => finishFarRead (wakeCause s (clusterOf slot)) slot f (if err then none else data)
    | none => s
  | .post core entry gen => { s with msgs := s.msgs ++ [.credit core entry gen] }
  | .signal _ _ _ => s
  | .streamRead slot u id => streamAnswer s slot (Fin.ofNat 4 u) id (if err then none else data)
  | .streamWrite slot u id => ackWrite s slot (Fin.ofNat 4 u) id err
  | .courierRead ch id => courierAnswer s ch id (if err then none else data)
  | .courierWrite ch off =>
    if !err then s
    else modCh s ch (fun c => { c with result := some (firstResult c.result (3, off)) })
  | .record => { s with fab := { s.fab with recordErrs := s.fab.recordErrs ++ [err] } }
  | .soRead k line => { s with so := { s.so with ret := tset retDefault s.so.ret k (tget retDefault s.so.ret k ++ [(line, if err then none else data)]) } }
  | .cmo k => endCmo s k
  | .plain => s

/-- The operation that an answer from `src` names: it is known by its destination. An error may come from a device on the way
that found no route (R437), and an acknowledgement from the device that hosts an endpoint (R435); `away` says so, and the answer then names the one operation that fits, if there is just one. -/
def findRemote (s : State) (src : BitVec 16) (away : Bool) (p : Remote → Bool) : Option Remote :=
  match s.fab.remote.find? (fun r => p r && r.dst == src) with
  | some r => some r
  | none =>
    if !away || s.fab.lapsed.any (fun r => p r && r.dst == src) then none
    else match (s.fab.remote ++ s.fab.lapsed).filter p with
      | [r] => s.fab.remote.find? (· == r)
      | _ => none

/-- An answer that comes too late, or to nothing: it is counted, and the operation that timed out is forgotten (R438). -/
def lateAnswer (s : State) (src : BitVec 16) (p : Remote → Bool) : State :=
  let s := countLate s
  match s.fab.lapsed.find? (fun r => p r && r.dst == src) with
  | some r => { s with fab := { s.fab with lapsed := s.fab.lapsed.erase r } }
  | none => s

/-- The operation is answered and forgotten. -/
def takeRemote (s : State) (r : Remote) : State := { s with fab := { s.fab with remote := s.fab.remote.erase r } }

/-- A READ_RESP arrives (R436, R438). -/
def readAnswer (s : State) (u : FUnit) : State :=
  let p (r : Remote) : Bool := r.isRead && r.tag == u.unit.toNat
  match findRemote s u.src (u.space != 0) p with
  | none => lateAnswer s u.src p
  | some r => finishRemote (takeRemote s r) r.what (u.space != 0) (some ⟨u.data, if u.pzn then 0xFFFF else 0⟩)

/-- The VC and ESEQ that a WRITE_ACK or DEAD names (R406). -/
def namedVc (u : FUnit) : BitVec 3 := bits u.unit 16 3
def namedSeq (u : FUnit) : BitVec 16 := bits u.unit 0 16

/-- A post or a signal, which alone come back as dead letters. -/
def mayReturn (r : Remote) : Bool :=
  match r.what with
  | .post _ _ _ => true
  | .signal _ _ _ => true
  | _ => false

/-- A post. -/
def isPost (r : Remote) : Bool :=
  match r.what with
  | .post _ _ _ => true
  | _ => false

/-- A WRITE_ACK arrives (R436): for a post it is the credit, from its destination alone, and an error is the answer to a WRITE.
That of a WRITE to an endpoint comes from the device that hosts it (R435). -/
def writeAnswer (s : State) (u : FUnit) : State :=
  let p (r : Remote) : Bool := !r.isRead && r.vc == namedVc u && r.eseq == namedSeq u &&
    (!mayReturn r || (u.space == 0 && isPost r))
  let r := match findRemote s u.src false p with
    | some r => some r
    | none => findRemote s u.src true (fun r => p r && !isPost r)
  match r with
  | none => lateAnswer s u.src p
  | some r => finishRemote (takeRemote s r) r.what (u.space != 0) none

/-- A unit returns as a dead letter (R332, R333). -/
def deadAnswer (s : State) (u : FUnit) : State :=
  match findRemote s u.src (u.space == 7) (fun r => mayReturn r && r.vc == namedVc u && r.eseq == namedSeq u) with
  | none => s
  | some r =>
    let s := takeRemote s r
    let st : BitVec 8 := u.space.setWidth 8
    match r.what with
    | .post core entry _ => deliverMsg s (.dead core ⟨bits u.data 0 128, st, 0, BitVec.ofNat 6 entry⟩)
    | .signal core entry w3 =>
      deliverMsg s (.dead core ⟨words4 (bits u.data 0 32) 0 0 w3, st, 1, BitVec.ofNat 6 entry⟩)
    | _ => s

/-! ### Trees (R441 to R445) -/

/-- A tree unit from a device that is neither a listed child, going up, nor the parent, going down (R441). -/
def treeStray (s : State) (u : FUnit) (f : Nat) : Bool :=
  !bitOf (ftCtl s f) 31 ||
    (if bitOf u.unit 8 then bitOf (ftCtl s f) 30 || u.src != ftParent s f else !(ftChildren s f).contains u.src)

def markStray (s : State) (f : Nat) : State :=
  devOr s (0x7202C + 0x40 * f) 0x40000000

/-- The words of a 64-byte value unit. -/
def unitWords (d : BitVec 512) : List Word := (upFrom 0 16).map (fun i => bits d (32 * i) 32)

/-- A REDUCE arrives (R442, R443). -/
def reduceArrives (s : State) (u : FUnit) : State :=
  let f := (bits u.unit 0 4).toNat
  if treeStray s u f then markStray s f
  else
    let i := (bits u.unit 6 2).toNat
    let n := mrElems s (bits (ftCtl s f) 16 6).toNat
    let units := (4 * n + 63) / 64
    if bitOf u.unit 8 then
      let s := modTree s f (fun t => { t with down := t.down.filter (fun x => x.1 != i) ++ [(i, unitWords u.data, u.pzn)] })
      let got := (getTree s f).down
      if (upFrom 0 units).all (fun j => got.any (fun x => x.1 == j)) then
        let ws := ((upFrom 0 units).flatMap (fun j => ((got.find? (fun x => x.1 == j)).map (·.2.1)).getD [])).take n
        treeReduce (treeResult s f ws (got.any (·.2.2))) f
      else s
    else
      treeReduce (modTree s f (fun t =>
        let q : TreePart := ⟨u.src, bitOf u.unit 9, i, unitWords u.data, u.pzn⟩
        { t with parts := t.parts.filter (fun x => !(x.child == q.child && x.parity == q.parity && x.index == i)) ++ [q] })) f

/-- A BARRIER arrives (R443, R445). -/
def barrierArrives (s : State) (u : FUnit) : State :=
  let f := (bits u.unit 0 4).toNat
  if treeStray s u f then markStray s f
  else if bitOf u.unit 8 then treeRelease s f
  else treeBarrier (modTree s f (fun t => { t with bars := if t.bars.contains u.src then t.bars else t.bars ++ [u.src] })) f

/-! ### Operations on this device (R424, R436) -/

/-- A READ reaches its target. -/
def readArrives (s : State) (u : FUnit) : State :=
  let r := readUnit s u.space (64 * u.unit.toNat)
  let (st, d) : BitVec 4 × Unit64 := match r.2 with
    | some d => (0, d)
    | none => (1, ⟨0, 0⟩)
  sendUnit r.1
    { op := opREAD_RESP, vc := 2, src := 0, dst := u.src, eseq := 0, space := st, unit := bits u.data 0 38,
      pzn := d.poison != 0, data := d.data } none

/-- The acknowledgement of a unit. -/
def ackOf (u : FUnit) (st : BitVec 4) : FUnit :=
  { op := opWRITE_ACK, vc := 2, src := 0, dst := u.src, eseq := 0, space := st,
    unit := (u.vc.setWidth 38 <<< 16) ||| u.eseq.setWidth 38, pzn := false, data := 0 }

/-- A WRITE reaches its target; a poisoned one poisons the whole unit (R387, R420). -/
def writeArrives (s : State) (u : FUnit) : State :=
  let r := writeUnit s u.space (64 * u.unit.toNat) ⟨u.data, if u.pzn then 0xFFFF else 0⟩
  sendUnit r.1 (ackOf u (if r.2 then 0 else 1)) none

/-- A POST reaches this device (R326, R424); the Sorting Office's stage queue is not reached over the fabric (R509). -/
def postArrives (s : State) (u : FUnit) : State :=
  let core := u.unit.toNat / 4
  let org : Org := .far u.src u.vc u.eseq
  let desc : BitVec 128 := bits u.data 0 128
  if noSuchCore s core ∨ u.space ≠ 5 then refuse s org 0 desc 0x03
  else deliverMsg s (.post org core (bits u.unit 0 2) desc)

/-- A SIGNAL reaches this device (R424). -/
def signalArrives (s : State) (u : FUnit) : State :=
  let core := u.unit.toNat / 64
  let f : BitVec 6 := bits u.unit 0 6
  let org : Org := .far u.src u.vc u.eseq
  if noSuchCore s core ∨ u.space ≠ 4 then refuse s org 1 (words4 (signalWord f) 0 0 0) 0x03
  else deliverMsg s (.signal org core f 0)

/-- A unit of this flow waits for the end of an LPDDR5X calibration: those behind it wait too (R354, R574). -/
def behindHeld (s : State) (u : FUnit) : Bool :=
  s.fab.lpHeld.any (fun x => match x with
    | .unit v => v.src == u.src && v.vc == u.vc
    | .access _ _ _ => false)

/-- The unit accesses space 0x1. -/
def lpAccess (u : FUnit) : Bool := (u.op == opREAD || u.op == opWRITE) && u.space == 1

/-- A unit in order takes its effect: on this device, or it is forwarded to an endpoint (R432, R435). -/
def applyUnit (s : State) (u : FUnit) : State :=
  match endpointPort s u.dst with
  | some p => if inService s p then pushTx s p u else noRouteFor s u
  | none =>
    if (lpAccess u && lpCalibrating s) || behindHeld s u then
      { s with fab := { s.fab with lpHeld := s.fab.lpHeld ++ [.unit u] } }
    else match u.op.toNat with
    | 1 => readArrives s u
    | 2 => readAnswer s u
    | 3 => writeArrives s u
    | 4 => writeAnswer s u
    | 5 => postArrives s u
    | 6 => signalArrives s u
    | 7 => reduceArrives s u
    | 8 => barrierArrives s u
    | 9 => deadAnswer s u
    | _ => s

/-! ### End-to-end order (R431 to R433) -/

def expectedOf (s : State) (k : Nat) : BitVec 16 := tget ctrDefault s.fab.expected k
def setExpected (s : State) (k : Nat) (e : BitVec 16) : State :=
  { s with fab := { s.fab with expected := tset ctrDefault s.fab.expected k e } }

/-- The flow of a unit (R431, R435): its source and VC, and the hosted endpoint for which it is, if any. -/
def flowOf (s : State) (u : FUnit) : Nat :=
  match endpointPort s u.dst with
  | some p => 2 ^ 19 * (p + 1) + flowKey u.src u.vc
  | none => flowKey u.src u.vc

/-- Held units of the flow that now match are delivered, in order. -/
def drainFlow : Nat → State → Nat → State
  | 0, s, _ => s
  | n + 1, s, k =>
    let e := expectedOf s k
    match s.fab.store.find? (fun p => flowOf s p.1 == k && p.1.eseq == e) with
    | none => s
    | some p =>
      let s := setExpected { s with fab := { s.fab with store := s.fab.store.erase p } } k (e + 1)
      drainFlow n (applyUnit s p.1) k

/-- A unit of VC1 to VC7 arrives at its destination device (R432, R433). -/
def receiveUnit (s : State) (u : FUnit) : State :=
  let key := flowOf s u
  let e := expectedOf s key
  let k := (u.eseq - e).toNat
  if k = 0 then
    let s := applyUnit (setExpected s key (e + 1)) u
    drainFlow s.fab.store.length s key
  else if 32768 ≤ k ∨ s.fab.store.any (fun p => flowOf s p.1 == key && p.1.eseq == u.eseq) then devCount s 0x70010 16 16 1
  else if 2048 ≤ s.fab.store.length then devCount s 0x70010 0 16 1
  else { s with fab := { s.fab with store := s.fab.store ++ [(u, s.meshCycle)] } }

/-! ### Arrival of a unit -/

/-- The port in whose buffers the unit waits. -/
def rxPort (s : State) (u : FUnit) : Option Nat := (upFrom 0 16).find? (fun p => (getPort s p).rx.contains u)

/-- An acknowledgement of an endpoint names the number that the unit had there; it is translated back (R435). -/
def endpointAck (s : State) (p : Nat) (u : FUnit) : State :=
  match (getPort s p).fwd.find? (fun f => f.1 == namedVc u && f.2.1 == namedSeq u) with
  | none => countLate s
  | some f =>
    let s := modPort s p (fun q => { q with fwd := q.fwd.erase f })
    let u' : FUnit := { u with unit := (f.1.setWidth 38 <<< 16) ||| f.2.2.2.setWidth 38 }
    if f.2.2.1 = fabDev s then writeAnswer s u'
    else sendUnit s { u' with dst := f.2.2.1, pzn := false, data := 0 } none

/-- A unit of VC1 to VC7 takes its way into the device: out of a port's buffer, as an answer of the device to itself, or as
it arrives at the ingress. -/
def arriveUnit (s : State) (u : FUnit) : State :=
  match rxPort s u with
  | some p =>
    let s := takeRx s p (· == u)
    if isIngest s p then (if u.op = opWRITE_ACK then endpointAck s p u else s) else receiveUnit s u
  | none =>
    if s.fab.answers.contains u then applyUnit { s with fab := { s.fab with answers := s.fab.answers.erase u } } u
    else if opVcOk u.op u.vc ∧ isForHere s u then receiveUnit s u
    else s

/-- A row of the table names its operation; nothing arrives at a part in reset or off. -/
def arriveOp (s : State) (u : FUnit) (op : BitVec 8) : Host.Outcome State Fault Refusal :=
  if dark s then .next s else .next (if u.op = op then arriveUnit s u else s)

/-- READ (R424, R436). -/
def execRead (u : FUnit) (s : State) : Host.Outcome State Fault Refusal := arriveOp s u opREAD

/-- READ_RESP (R436, R438). -/
def execReadResp (u : FUnit) (s : State) : Host.Outcome State Fault Refusal := arriveOp s u opREAD_RESP

/-- WRITE (R424, R436). -/
def execWrite (u : FUnit) (s : State) : Host.Outcome State Fault Refusal := arriveOp s u opWRITE

/-- WRITE_ACK (R435, R436). -/
def execWriteAck (u : FUnit) (s : State) : Host.Outcome State Fault Refusal := arriveOp s u opWRITE_ACK

/-- SIGNAL (R424). -/
def execSignal (u : FUnit) (s : State) : Host.Outcome State Fault Refusal := arriveOp s u opSIGNAL

/-- DEAD (R333). -/
def execDead (u : FUnit) (s : State) : Host.Outcome State Fault Refusal := arriveOp s u opDEAD

/-- REDUCE (R441, R442). -/
def execReduce (u : FUnit) (s : State) : Host.Outcome State Fault Refusal := arriveOp s u opREDUCE

/-- BARRIER (R441, R445). -/
def execBarrier (u : FUnit) (s : State) : Host.Outcome State Fault Refusal := arriveOp s u opBARRIER

/-- POST_ARRIVAL (R326): from the message plane, or a POST of the fabric. -/
def execPostArrival (src : Arrival) (s : State) : Host.Outcome State Fault Refusal :=
  match src with
  | .transit i => .next (transitArrival s i (fun m => match m with
    | .post _ _ _ _ => true
    | _ => false))
  | .fabric u => arriveOp s u opPOST

/-- REORDER_TIMEOUT (R433): the oldest held unit of a flow, on a VC from the first device of `pair` to the second, has waited
too long. -/
def execReorderTimeout (pair : BitVec 16 × BitVec 16) (vc : BitVec 3) (s : State) : Host.Outcome State Fault Refusal :=
  let (src, dst) := pair
  let key := match endpointPort s dst with
    | some p => 2 ^ 19 * (p + 1) + flowKey src vc
    | none => flowKey src vc
  let e := expectedOf s key
  let gap (u : FUnit) : Nat := (u.eseq - e).toNat
  let held := (s.fab.store.filter (fun p => flowOf s p.1 == key)).map (·.1)
  match held with
  | [] => .next s
  | u :: us =>
    if bits (devGet s 0x70004) 0 20 = 0 then .next s
    else
      let lost := us.foldl (fun m x => min m (gap x)) (gap u)
      let s := devCount (setExpected s key (e + BitVec.ofNat 16 lost)) 0x70014 16 16 lost
      let s := pushEvent s 0x0020 src (BitVec.ofNat 32 lost ++ vc.setWidth 32)
      .next (drainFlow s.fab.store.length s key)

/-- REMOTE_TIMEOUT (R438): the `i`-th operation without an answer completes with an error, and an answer will be
late; a post has no such limit. -/
def execRemoteTimeout (i : Nat) (s : State) : Host.Outcome State Fault Refusal :=
  match s.fab.remote[i]? with
  | none => .next s
  | some r =>
    let limited : Bool := match r.what with
      | .post _ _ _ => false
      | .signal _ _ _ => false
      | _ => true
    if limited && bits (devGet s 0x70004) 0 20 != 0 then
      let s := { takeRemote s r with fab := { (takeRemote s r).fab with lapsed := s.fab.lapsed ++ [r] } }
      .next (finishRemote s r.what true none)
    else .next s

/-! ### Restart and injection (R434, R449) -/

/-- A MGMT unit of this MTYPE from a device leaves the buffer in which it waits, if one does. -/
def takeMgmt (s : State) (m : Nat) (src : BitVec 16) : State :=
  match (upFrom 0 16).find? (fun p => (getPort s p).rx.any (fun u => isMgmt m u && u.src == src)) with
  | some p => takeRx s p (fun u => isMgmt m u && u.src == src)
  | none => s

/-- The values of every VC of a device return to zero, in the flows to this device and to each hosted endpoint. -/
def zeroFlows (t : Tab (BitVec 16)) (dev : BitVec 16) : Tab (BitVec 16) :=
  t.filter (fun p => p.1 % 2 ^ 19 / 8 != dev.toNat)

def epochDefault (_ : Nat) : Option (BitVec 16) := none

/-- SEQ_RESTART (R434). -/
def execSeqRestart (src : BitVec 16) (epoch : BitVec 16) (s : State) : Host.Outcome State Fault Refusal :=
  if dark s then .next s else
  let s := takeMgmt s 0x10 src
  let s :=
    if tget epochDefault s.fab.epochs src.toNat = some epoch then s
    else
      { s with fab := { s.fab with
          store := s.fab.store.filter (fun p => p.1.src != src)
          expected := zeroFlows s.fab.expected src
          sendCtr := zeroFlows s.fab.sendCtr src
          epochs := tset epochDefault s.fab.epochs src.toNat (some epoch) } }
  .next (sendMgmt s src 0x11 (leBytes 2 epoch.toNat))

/-- SEQ_RESTART_ACK (R434, R449). -/
def execSeqRestartAck (src : BitVec 16) (epoch : BitVec 16) (s : State) : Host.Outcome State Fault Refusal :=
  if dark s then .next s else
  let s := takeMgmt s 0x11 src
  if epoch = s.fab.epoch then
    .next (flushWaiting { s with fab := { s.fab with
        barred := tset noBool s.fab.barred src.toNat false, acked := tset noBool s.fab.acked src.toNat true } })
  else .next s

/-- INJECT_STOP (R449). -/
def execInjectStop (src : BitVec 16) (s : State) : Host.Outcome State Fault Refusal :=
  if dark s then .next s else
  let s := takeMgmt s 0x15 src
  .next (payStopped
    { s with fab := { s.fab with
        stopped := tset noBool s.fab.stopped src.toNat true
        stopOwed := if s.fab.stopOwed.contains src then s.fab.stopOwed else s.fab.stopOwed ++ [src] } })

/-- INJECT_STOPPED (R449). -/
def execInjectStopped (src : BitVec 16) (s : State) : Host.Outcome State Fault Refusal :=
  if dark s then .next s else
  let s := takeMgmt s 0x16 src
  .next { s with fab := { s.fab with stoppedBy := tset noBool s.fab.stoppedBy src.toNat true } }

/-- INJECT_RESUME (R449). -/
def execInjectResume (src : BitVec 16) (s : State) : Host.Outcome State Fault Refusal :=
  let s := takeMgmt s 0x17 src
  .next (flushWaiting
    { s with fab := { s.fab with
        stopped := tset noBool s.fab.stopped src.toNat false, stopOwed := s.fab.stopOwed.filter (· != src) } })

/-- CSR_RESP (R449): the answer of a device that this one manages is taken; its value goes to the firmware that asked. -/
def execCsrResp (src : BitVec 16) (_tag : BitVec 16) (_status : BitVec 8) (v : BitVec 32) (s : State) :
    Host.Outcome State Fault Refusal :=
  if dark s then .next s else
  let s := takeMgmt s 0x14 src
  .next { s with outbox := s.outbox ++ [.word v] }

/-- The devices that the tables reach (R434): the members of every group whose entry has a port, and this group's own. -/
def reachable (s : State) : List (BitVec 16) :=
  let live (o : Nat) : Bool := bitOf (devGet s o) 31 || bitOf (devGet s o) 30
  let own := (bits (fabDev s) 7 9).toNat
  let groups := (upFrom 0 512).flatMap (fun g =>
    if g ≠ own ∧ live (0x71000 + 4 * g) then (upFrom 0 128).map (fun m => BitVec.ofNat 16 (128 * g + m)) else [])
  let members := (upFrom 0 128).filterMap (fun m =>
    if live (0x71800 + 4 * m) then some (BitVec.ofNat 16 (128 * own + m)) else none)
  (groups ++ members).filter (fun d => d != fabDev s && d != 0xFFFF)

/-- SEQ_RESTART goes to every device of the list, to which nothing of VC1 to VC7 is sent before it answers (R434); the counters
of its flows start from 0 (R431). -/
def restartTo (s : State) (devs : List (BitVec 16)) : State :=
  let s := { s with fab := { s.fab with
    barred := devs.foldl (fun t d => tset noBool t d.toNat true) s.fab.barred
    sendCtr := devs.foldl zeroFlows s.fab.sendCtr
    expected := devs.foldl zeroFlows s.fab.expected
    store := s.fab.store.filter (fun p => !devs.contains p.1.src) } }
  devs.foldl (fun s d => sendMgmt s d 0x10 (leBytes 2 s.fab.epoch.toNat)) s

/-- FABRIC_RESET_EXIT (R431, R434): the epoch rises, every counter starts from zero, and every device that can be reached is
told. -/
def execFabricResetExit (s : State) : Host.Outcome State Fault Refusal :=
  if dark s then .next s else
  let s := { s with fab := { s.fab with
    epoch := s.fab.epoch + 1, sendCtr := [], expected := [], store := [], out := true, acked := [], barred := [] } }
  let s := { s with flash := { s.flash with epoch := some s.fab.epoch } }
  .next (restartTo s (if fabDev s = 0xFFFF then [] else reachable s))

/-- The tables have changed (R434): a device that they reach now, and that has not been told since the reset, is told. -/
def restartNew (s : State) : State :=
  if !s.fab.out || fabDev s == 0xFFFF then s
  else restartTo s ((reachable s).filter (fun d => !tget noBool s.fab.acked d.toNat && !tget noBool s.fab.barred d.toNat))

/-! ### Route changes (R430) -/

/-- A unit of VC1 to VC7 travels under the entry at `off`. -/
def underEntry (s : State) (off : Nat) (u : FUnit) : Bool := u.vc != 0 && routeOff s u.dst == off

/-- The units that wait for port `p` under the entry are held, in order (R430 step 1): they arrived before those that wait
already, for something else. -/
def holdUnder (s : State) (off p : Nat) : State :=
  let q := getPort s p
  let mine := (q.resent ++ q.txq).filter (underEntry s off)
  let s := modPort s p (fun q =>
    { q with resent := q.resent.filter (fun u => !underEntry s off u), txq := q.txq.filter (fun u => !underEntry s off u) })
  { s with fab := { s.fab with waiting := mine.map (fun u => ⟨u, none, true⟩) ++ s.fab.waiting } }

/-- The entry takes its new word, and what waited for it is released in arrival order (R430). -/
def switchEntry (s : State) (off : Nat) (w : Word) : State :=
  flushWaiting (devSet { s with fab := { s.fab with routeHold := s.fab.routeHold.filter (fun h => h.1 != off) } } off w)

/-- ROUTE_ENTRY_SWITCH (R430): every unit already sent under the entry on its old port is acknowledged. -/
def execRouteEntrySwitch (off : BitVec 16) (s : State) : Host.Outcome State Fault Refusal :=
  let o := 0x70000 + off.toNat
  match s.fab.routeHold.find? (fun h => h.1 == o) with
  | none => .next s
  | some h =>
    match chosenPort (devGet s o) with
    | some p =>
      if (getPort s p).replay.any (fun e => underEntry s o e.2.1) then .next s else .next (restartNew (switchEntry s o h.2))
    | none => .next (restartNew (switchEntry s o h.2))

/-! ### Tree registers (R441, R450) -/

/-- A write of a register of tree `f` at offset `r` within it: one of FT_CTL, FT_PARENT and FT_CHILD discards the open
round's inputs at this device. -/
def writeTreeReg (s : State) (f r : Nat) (v : Word) : State :=
  let o := 0x72000 + 0x40 * f + r
  let w := (devReg o).writeNow (setBitsNow s o) (devGet s o) v
  let w := if r = 0 ∧ 16 < (bits w 0 5).toNat then setBits w 0 16#5 else w
  let s := devSet s o w
  if r < 0x28 then
    modTree s f (fun t => { t with own := [], parts := [], ownBar := false, bars := [], sentUp := false, down := [] })
  else s

/-- FT_WRITE (R450): `reg` counts words from +0x00 to +0x2C. -/
def execFtWrite (f : Fin 16) (reg : BitVec 4) (v : BitVec 32) (s : State) : Host.Outcome State Fault Refusal :=
  if dark s then .next s else .next (if reg.toNat < 12 then writeTreeReg s f.val (4 * reg.toNat) v else s)

end Sys2Proof.Machine
end

