-- ==== Sys2Proof/Machine/Ingest.lean ====
section
/-! DEFINITION. Ingest: envelopes on the streams of ingest ports, their pipelines, header checks, plaintext, digests and
ends, and the parcel table's commands (R418, R419, R452 to R463). A plaintext unit is written as soon as the bytes it needs
are there; the rows give the points at which the timed checks fall. -/
namespace Sys2Proof.Machine

/-! ### The header (R453) -/

/-- The header of an envelope. -/
def hdrOf (e : Envelope) : List Byte := slice e.bytes 0 256

def envMode (e : Envelope) : Nat := leAt (hdrOf e) 6 1
def envKslot (e : Envelope) : Nat := leAt (hdrOf e) 8 2
def envAccount (e : Envelope) : Nat := leAt (hdrOf e) 10 2
def envChunk (e : Envelope) : Nat := leAt (hdrOf e) 12 4
def envObject (e : Envelope) : List Byte := slice (hdrOf e) 16 16
def envPtLen (e : Envelope) : Nat := leAt (hdrOf e) 32 8
def envNonce (e : Envelope) : List Byte := slice (hdrOf e) 40 8
def envCount (e : Envelope) : Nat := leAt (hdrOf e) 52 4
def isGcm (e : Envelope) : Bool := envMode e == 1

def allZero (bs : List Byte) : Bool := bs.all (· == 0)

/-- ⌈a ÷ b⌉. -/
def ceilDiv (a b : Nat) : Nat := (a + b - 1) / b

/-- Step 1 of R457: every field lies within R453. -/
def fieldsOk (e : Envelope) : Bool :=
  let h := hdrOf e
  let xts := envMode e == 2
  slice h 0 4 == [0x46, 0x56, 0x32, 0x45] && leAt h 4 2 == 1 && (isGcm e || xts) && leAt h 7 1 == 0 &&
    decide (envKslot e < 8192) && decide (envAccount e < 1024) &&
    decide (64 ≤ envChunk e ∧ envChunk e ≤ 65536 ∧ envChunk e % 64 = 0) &&
    decide (1 ≤ envPtLen e ∧ envPtLen e ≤ 2 ^ 34) && (!xts || envPtLen e % 16 == 0) &&
    allZero (slice h 48 4) && envCount e == ceilDiv (envPtLen e) (envChunk e) && allZero (slice h 56 184) &&
    (!xts || allZero (slice h 240 16))

/-! ### Chunks (R452, R454, R455) -/

def tagLen (e : Envelope) : Nat := if isGcm e then 16 else 0

/-- Plaintext bytes of chunk `i`. -/
def chunkLen (e : Envelope) (i : Nat) : Nat := min (envChunk e * (i + 1)) (envPtLen e) - envChunk e * i

/-- The offset of chunk `i` in the envelope. -/
def chunkAt (e : Envelope) (i : Nat) : Nat := 256 + i * (envChunk e + tagLen e)

/-- The length of the envelope. -/
def envLen (e : Envelope) : Nat := 256 + envPtLen e + tagLen e * envCount e

/-- The index of the unit that ends it. -/
def lastUnit (e : Envelope) : Nat := (envLen e - 1) / 64

/-- Plaintext units of a full chunk, and of the envelope. -/
def unitsPer (e : Envelope) : Nat := envChunk e / 64
def unitTotal (e : Envelope) : Nat := ceilDiv (envPtLen e) 64

/-- The chunk of plaintext unit `k`, and its place in that chunk. -/
def unitChunk (e : Envelope) (k : Nat) : Nat × Nat := (k / unitsPer e, k % unitsPer e)

/-- Plaintext unit `k` is the last of its chunk. -/
def endsChunk (e : Envelope) (k : Nat) : Bool :=
  decide (chunkLen e (unitChunk e k).1 ≤ 64 * ((unitChunk e k).2 + 1))

/-- The bytes of the envelope that plaintext unit `k` needs: its ciphertext, and with the last of a chunk its tag (R457). -/
def unitNeeds (e : Envelope) (k : Nat) : Nat :=
  let (i, j) := unitChunk e k
  if endsChunk e k then chunkAt e i + chunkLen e i + tagLen e else chunkAt e i + 64 * (j + 1)

/-- The nonce of chunk `i`. -/
def chunkNonce (e : Envelope) (i : Nat) : List Byte := envNonce e ++ beBytes 4 i

/-- The data-unit number of chunk `i`. -/
def dataUnit (e : Envelope) (i : Nat) : Nat := leNat (envNonce e) + i

/-- The plaintext of unit `k`, at its true length. -/
def plainUnit (e : Envelope) (k : Nat) : List Byte :=
  let (i, j) := unitChunk e k
  let ct := slice e.bytes (chunkAt e i + 64 * j) (min 64 (chunkLen e i - 64 * j))
  if isGcm e then gcmCrypt (aesKeys e.key) (chunkNonce e i) (4 * j) ct
  else if 2 ^ 64 ≤ dataUnit e i then (leBytes 64 (Config.xtsBeyond (dataUnit e i) j).toNat).take ct.length
  else xtsDecrypt e.key (dataUnit e i) (4 * j) ct

/-- The plaintext of chunk `i`. -/
def plainChunk (e : Envelope) (i : Nat) : List Byte :=
  (upFrom (i * unitsPer e) (ceilDiv (chunkLen e i) 64)).flatMap (plainUnit e)

/-- The tag of chunk `i` verifies. -/
def tagOk (e : Envelope) (i : Nat) : Bool :=
  let ct := slice e.bytes (chunkAt e i) (chunkLen e i)
  gcmTag e.key (chunkNonce e i) [] ct == slice e.bytes (chunkAt e i + chunkLen e i) 16

/-- HTAG verifies (R454). -/
def headerTagOk (e : Envelope) (key : List Byte) : Bool :=
  gcmTag key (envNonce e ++ [0xFF, 0xFF, 0xFF, 0xFF]) (slice (hdrOf e) 0 240) [] == slice (hdrOf e) 240 16

/-- Lane `l` of a chunk (R459): its 128-byte blocks `b` with b mod 4 = l. -/
def lane (pt : List Byte) (l : Nat) : List Byte :=
  ((upFrom 0 (ceilDiv pt.length 128)).filter (fun b => b % 4 == l)).flatMap (fun b => (pt.drop (128 * b)).take 128)

/-- The digest of a chunk (R459). -/
def chunkDigest (pt : List Byte) : List Byte := sha384 ((upFrom 0 4).flatMap (fun l => sha384 (lane pt l)))

/-- The input digest IDIG (R459). -/
def inputDigest (e : Envelope) : List Byte :=
  sha384 (envObject e ++ leBytes 8 (envPtLen e) ++
    (upFrom 0 (envCount e)).flatMap (fun i => chunkDigest (plainChunk e i)))

/-! ### Pipelines (R457) -/

def pipeDefault (_ : Nat) : Option Envelope := none

def getPipe (s : State) (p : Nat) : Option Envelope := tget pipeDefault s.so.sealing.pipes p

def setPipe (s : State) (p : Nat) (e : Option Envelope) : State :=
  modSeal s (fun b => { b with pipes := tset pipeDefault b.pipes p e })

/-- The lowest-numbered free pipeline. -/
def freePipe (s : State) : Option Nat := (upFrom 0 32).find? (fun p => (getPipe s p).isNone)

/-- The pipeline whose envelope is open on a stream of a port. -/
def streamPipe (s : State) (port : Nat) (stream : BitVec 4) : Option Nat :=
  (upFrom 0 32).find? (fun p => match getPipe s p with
    | some e => e.port == port && e.stream == stream && !e.last
    | none => false)

/-- A unit of the input buffer at a global address is written. -/
def putUnit (s : State) (addr : Nat) (d : Unit64) : State :=
  let a := globalOf addr
  if isHere s a then (writeUnit s a.space a.off d).1 else s

/-- Where plaintext unit `k` is written (R458). -/
def unitDest (s : State) (e : Envelope) (k : Nat) : Nat :=
  (ptGet s e.entry).buf.toNat + envChunk e * (unitChunk e k).1 + 64 * (unitChunk e k).2

/-- Plaintext units are written while the bytes they need have arrived; at most `n` of them. -/
def writePlain : Nat → State → Envelope → State × Envelope
  | 0, s, e => (s, e)
  | n + 1, s, e =>
    if e.written < unitTotal e ∧ unitNeeds e e.written ≤ e.bytes.length then
      writePlain n (putUnit s (unitDest s e e.written) (goodUnit (plainUnit e e.written)))
        { e with written := e.written + 1 }
    else (s, e)

/-- The envelope in pipeline `p` goes on as far as its bytes allow. -/
def runPipe (s : State) (p : Nat) (e : Envelope) : State :=
  let (s, e) := if e.checked then writePlain (unitTotal e - e.written) s e else (s, e)
  setPipe s p (some e)

/-! ### Ends (R419, R460 to R462) -/

/-- INGEST_STATUS (R419). -/
def ingestStatus (s : State) (e : Envelope) (code : Byte) : State :=
  let object := if 4 ≤ e.units then envObject e else List.replicate 16 0
  sendUnit s
    { op := opINGEST_STATUS, vc := 3, src := 0, dst := bits (getPort s e.port).cfg 0 16, eseq := 0,
      space := e.stream, unit := 0, pzn := false,
      data := BitVec.ofNat 512 (leNat ([code, 0, 0, 0] ++ leBytes 4 e.units ++ object)) } none

/-- Envelopes closed with a code are counted (R483 ING_OUT). -/
def countOut (s : State) (code : Byte) : State := devCount s (0x80100 + 4 * code.toNat) 0 32 1

/-- Every unit written for a chunk whose tag has not been verified is poisoned (R458, R461). -/
def poisonWritten (s : State) (e : Envelope) : State :=
  (upFrom 0 e.written).foldl (fun s k =>
    if (unitChunk e k).1 < e.verified then s else putUnit s (unitDest s e k) poisonedUnit) s

/-- The envelope in pipeline `p` is aborted: a matched entry becomes REJECTED, and the pipeline is freed. -/
def endEnvelope (s : State) (p : Nat) (e : Envelope) (code : Byte) : State :=
  let s := if e.checked then
      modPt (poisonWritten s e) e.entry (fun x => { x with st := .rejected, code := code })
    else s
  countOut (setPipe s p none) code

/-- An abort that the endpoint hears of. -/
def abortEnvelope (s : State) (p : Nat) (e : Envelope) (code : Byte) : State := ingestStatus (endEnvelope s p e code) e code

/-- An abort by the failure or retirement of the port (R462). -/
def loseEnvelope (s : State) (p : Nat) (e : Envelope) : State :=
  let entry : BitVec 16 := if e.checked then BitVec.ofNat 16 e.entry else 0xFFFF
  pushEvent (endEnvelope s p e 4) 0x0022 (BitVec.ofNat 16 e.port) (0#40 ++ (4#8 ++ entry))

/-- A report of the hub die to the Franking die: the frame is sent twice (R552). -/
def reportWork (s : State) (account counter inc : Nat) : State :=
  let f : ReportFrame :=
    { account := BitVec.ofNat 10 account, counter := Fin.ofNat 3 counter, inc := BitVec.ofNat 64 inc, seq := s.mod.hubSeq,
      intact := true }
  { s with mod := { s.mod with hubSeq := s.mod.hubSeq + 1 }, outbox := s.outbox ++ [.report f, .report f] }

/-! ### The rows -/

/-- A unit reaches the envelope in pipeline `p` (R419, R457, R461). -/
def joinEnvelope (s : State) (p : Nat) (e : Envelope) (u : FUnit) (isLast : Bool) : State :=
  let index := e.units
  let e := { e with units := e.units + 1 }
  if u.unit.toNat ≠ index then abortEnvelope s p e 5
  else if u.pzn then abortEnvelope s p e 7
  else
    let e := { e with bytes := e.bytes ++ leBytes 64 u.data.toNat, last := isLast }
    if isLast && (decide (index < 3) || (fieldsOk e && index != lastUnit e)) then abortEnvelope s p e 3
    else runPipe s p e

/-- A pipeline's input buffer is full: 256 units wait behind the header (R457). -/
def pipeFull (e : Envelope) : Bool := !e.checked && decide (260 ≤ e.units)

/-- The unit may leave the head of its VC: one for a pipeline whose input buffer is full waits, whatever it is (R457). -/
def mayEnter (s : State) (port : Nat) (u : FUnit) (isLast : Bool) : Bool :=
  match streamPipe s port u.space with
  | some p =>
    match getPipe s p with
      | some e => !pipeFull e
      | none => true
  | none => u.unit != 0 || isLast || (freePipe s).isSome

/-- The unit stands first on its VC in the port's buffers, or comes straight from an ingest port in service (R418). -/
def atHead (s : State) (p : Nat) (u : FUnit) : Bool :=
  match (getPort s p).rx.find? (fun x => x.vc == u.vc) with
  | some x => x == u
  | none => inService s p && isIngest s p && opVcOk u.op u.vc

/-- A unit enters the ingest block (R419, R461). -/
def enterUnit (s : State) (port : Nat) (u : FUnit) (isLast : Bool) : State :=
  let fresh : Envelope :=
    { port := port, stream := u.space, units := 0, bytes := [], last := false, checked := false, kslot := 0, key := [],
      entry := 0, written := 0, verified := 0 }
  match streamPipe s port u.space with
  | some p =>
    match getPipe s p with
    | none => s
    | some e =>
      if u.unit = 0 ∧ !isLast then
        let s := abortEnvelope s p e 5
        match freePipe s with
        | some p => joinEnvelope s p fresh u false
        | none => s
      else joinEnvelope s p e u isLast
  | none =>
    if u.unit ≠ 0 ∨ isLast then s
    else match freePipe s with
      | some p => joinEnvelope s p fresh u false
      | none => s

/-- An INGEST or INGEST_LAST unit at the head of its VC: it enters, or waits. -/
def ingestUnit (s : State) (port : Nat) (u : FUnit) (isLast : Bool) : State :=
  if atHead s port u && mayEnter s port u isLast then enterUnit (takeRx s port (· == u)) port u isLast else s

/-- INGEST (R419, R457). -/
def execIngest (port : Fin 16) (u : FUnit) (s : State) : Host.Outcome State Fault Refusal :=
  .next (ingestUnit s port.val { u with op := opINGEST } false)

/-- INGEST_LAST (R419, R457). -/
def execIngestLast (port : Fin 16) (u : FUnit) (s : State) : Host.Outcome State Fault Refusal :=
  .next (ingestUnit s port.val { u with op := opINGEST_LAST } true)

def kslotDefault (_ : Nat) : KSlot := KSlot.reset

def getKey (s : State) (k : Nat) : KSlot := tget kslotDefault s.so.sealing.ks k

def lostDefault (_ : Nat) : Bool := false

/-- The storage key SK, a key of the device like DIK and DKA (R478). -/
def storageKey : List Byte := hkdf384 (digestOf Config.uds) [] [3] 32

/-- The key check value (R465). -/
def keyCheck (key : List Byte) : List Byte := (hmac384 key (List.replicate 16 0)).take 16

/-- An ACTIVE slot that holds a key: its storage is written with the key wrapped under SK (R465). -/
def wrapKey (typ : Byte) (nonce key : List Byte) : KSlot :=
  let ct := gcmCrypt (aesKeys storageKey) nonce 0 key
  ⟨.active, typ, keyCheck key, nonce, ct ++ gcmTag storageKey nonce [] ct⟩

/-- The key that the storage of a slot holds, unwrapped under SK (R465). -/
def unwrapSlot (x : KSlot) : List Byte :=
  gcmCrypt (aesKeys storageKey) x.nonce 0 (x.wrapped.take (x.wrapped.length - 16))

/-- The key of slot `k` in the key cache. -/
def cachedKey (s : State) (k : Nat) : Option (List Byte) := (s.so.sealing.cache.find? (fun x => x.1 == k)).map (·.2)

/-- A use of slot `k` must read its storage, being a miss of the key cache, and finds it uncorrectable (R465). -/
def keyLost (s : State) (k : Nat) : Bool :=
  tget lostDefault s.so.sealing.lost k && (cachedKey s k).isNone

/-- The key of slot `k`: the key cache holds it, or its storage is unwrapped (R465). -/
def keyOf (s : State) (k : Nat) : List Byte :=
  match cachedKey s k with
  | some key => key
  | none => unwrapSlot (getKey s k)

/-- The key of an ACTIVE slot of a TYPE, none for any other slot or one whose storage is lost (R457, R465, R470). -/
def activeKey (s : State) (k typ : Nat) : Option (List Byte) :=
  if (getKey s k).st = .active ∧ (getKey s k).typ.toNat = typ ∧ keyLost s k = false then some (keyOf s k) else none

/-- A use of slot `k` as a key of a TYPE reads it: one found uncorrectable becomes unusable as if RETIRING, and KSPOIS is
set (R465). -/
def readKeySlot (s : State) (k typ : Nat) : State :=
  if (getKey s k).st = .active ∧ (getKey s k).typ.toNat = typ ∧ keyLost s k = true then
    devOr (modSeal s (fun b => { b with ks := tset kslotDefault b.ks k { getKey s k with st := .retiring } }))
      0x80008 0x80000000
  else s

/-- Step 2 of R457: the key of an ACTIVE slot of the type for the mode. -/
def envelopeKey (s : State) (e : Envelope) : Option (List Byte) := activeKey s (envKslot e) (envMode e)

/-- Step 4 of R457. -/
def matchEntry (s : State) (e : Envelope) : Option Nat :=
  (s.so.sealing.pt.find? (fun x =>
    x.2.st == .pending && x.2.object == envObject e && decide (envCount e * envChunk e ≤ x.2.bufLen.toNat))).map (·.1)

/-- A key is used: it stands first in the key cache, which keeps 64 and loses the least recently used (R465). -/
def touchKey (s : State) (k : Nat) : State :=
  let key := keyOf s k
  modSeal s (fun b => { b with cache := ((k, key) :: b.cache.filter (fun x => x.1 != k)).take 64 })

/-- The key cache is looked up for every header, whatever its checks say; a slot that holds no ACTIVE key of the type for its
mode is a miss and leaves the cache (R463). -/
def lookUpKey (s : State) (e : Envelope) : State :=
  if isGcm e || envMode e == 2 then
    let s := readKeySlot s (envKslot e) (envMode e)
    if (envelopeKey s e).isSome then touchKey s (envKslot e) else s
  else s

/-- The checks of R457, in their order: the code of the first failure, or the key and the entry. -/
def headerChecks (s : State) (e : Envelope) : Except Byte (List Byte × Nat) :=
  if !fieldsOk e then .error 3
  else match envelopeKey s e with
    | none => .error 2
    | some key =>
      if isGcm e && !headerTagOk e key then .error 1
      else match matchEntry s e with
        | none => .error 6
        | some entry => .ok (key, entry)

/-- HEADER_CHECKS_DONE (R457, R463): acts on a pipeline whose header is complete and not yet checked. -/
def execHeaderChecksDone (pipe : Fin 32) (s : State) : Host.Outcome State Fault Refusal :=
  match getPipe s pipe.val with
  | none => .next s
  | some e =>
    if e.units < 4 ∨ e.checked then .next s
    else
      let s := lookUpKey s e
      match headerChecks s e with
      | .error code => .next (abortEnvelope s pipe.val e code)
      | .ok (key, entry) =>
        let s := modPt s entry (fun x =>
          { x with st := .opened, account := BitVec.ofNat 16 (envAccount e), ptLen := BitVec.ofNat 64 (envPtLen e) })
        .next (runPipe s pipe.val { e with checked := true, kslot := envKslot e, key := key, entry := entry })

/-- Every plaintext unit of chunk `i` is written. -/
def chunkWritten (e : Envelope) (i : Nat) : Bool :=
  decide (i < envCount e ∧ min ((i + 1) * unitsPer e) (unitTotal e) ≤ e.written)

/-- CHUNK_TAG_VERIFY (R458): the next chunk of a GCM envelope, once its last unit has left the pipeline. -/
def execChunkTagVerify (pipe : Fin 32) (s : State) : Host.Outcome State Fault Refusal :=
  match getPipe s pipe.val with
  | none => .next s
  | some e =>
    if e.checked && isGcm e && chunkWritten e e.verified then
      .next (if tagOk e e.verified then setPipe s pipe.val (some { e with verified := e.verified + 1 })
        else abortEnvelope s pipe.val e 1)
    else .next s

/-- Every condition of R460 holds. -/
def acceptable (e : Envelope) : Bool :=
  e.checked && e.last && decide (unitTotal e ≤ e.written) && (!isGcm e || decide (envCount e ≤ e.verified))

/-- ENVELOPE_ACCEPTED (R459, R460). -/
def execEnvelopeAccepted (pipe : Fin 32) (s : State) : Host.Outcome State Fault Refusal :=
  match getPipe s pipe.val with
  | none => .next s
  | some e =>
    if !acceptable e then .next s
    else
      let s := modPt s e.entry (fun x => { x with st := .accepted, code := 0, idig := inputDigest e })
      let s := ingestStatus (countOut (setPipe s pipe.val none) 0) e 0
      .next (reportWork s (envAccount e) 0 (envLen e))

/-- Every byte received has been taken, so that the input buffer holds no unit of the envelope (R457, R462). -/
def bufferEmpty (e : Envelope) : Bool :=
  e.units == 4 || (decide (4 < e.units) &&
    (let last := min (64 * e.units) (envLen e) - 1
     let i := min ((last - 256) / (envChunk e + tagLen e)) (envCount e - 1)
     let o := last - chunkAt e i
     let k := i * unitsPer e + (if o < chunkLen e i then o / 64 else ceilDiv (chunkLen e i) 64 - 1)
     decide (k < e.written)))

/-- INGEST_IDLE_TIMEOUT (R462): only an envelope that has opened an entry counts its idle cycles. -/
def execIngestIdleTimeout (pipe : Fin 32) (s : State) : Host.Outcome State Fault Refusal :=
  match getPipe s pipe.val with
  | none => .next s
  | some e =>
    if devGet s 0x80000 ≠ 0 ∧ e.checked ∧ !e.last ∧ bufferEmpty e then .next (abortEnvelope s pipe.val e 4) else .next s

/-- INGEST_ABORT (R462): every open envelope of a port that is FAILED or RETIRED; one that INGEST_LAST has closed completes or
is rejected as it would (R419). -/
def execIngestAbort (port : Fin 16) (s : State) : Host.Outcome State Fault Refusal :=
  if portState s port.val = 5 ∨ portState s port.val = 6 then
    .next ((upFrom 0 32).foldl (fun s p => match getPipe s p with
      | some e => if e.port = port.val ∧ !e.last then loseEnvelope s p e else s
      | none => s) s)
  else .next s

/-! ### The parcel table's commands (R456, R483) -/

def stNat : EntrySt → Nat
  | .free => 0
  | .pending => 1
  | .opened => 2
  | .accepted => 3
  | .rejected => 4

/-- The 128 bytes of an entry. -/
def entryBytes (x : PEntry) : List Byte :=
  leBytes 1 (stNat x.st) ++ [x.code] ++ leBytes 2 x.account.toNat ++ leBytes 4 0 ++ slice x.object 0 16 ++
    leBytes 8 x.buf.toNat ++ leBytes 8 x.bufLen.toNat ++ leBytes 8 x.ptLen.toNat ++ leBytes 16 0 ++ slice x.idig 0 48 ++
    leBytes 16 0

/-- The entry image in PT_W0 to PT_W31. -/
def ptImage (s : State) : List Byte := (upFrom 0 32).flatMap (fun i => leBytes 4 (devGet s (0x80200 + 4 * i)).toNat)

/-- The Sorting Office writes an entry: only the transitions of R456 are accepted, and only its own fields change. -/
def writeEntry (s : State) (e : Nat) (img : List Byte) : State :=
  let old := ptGet s e
  let st := leAt img 0 1
  let ok := (old.st == .free && st ≤ 1) || ((old.st == .accepted || old.st == .rejected) && st == 0)
  if !ok then devOr s 0x80284 0x80000000
  else ptSet s e
    { old with
      st := if st = 1 then .pending else .free
      object := slice img 8 16
      buf := BitVec.ofNat 64 (leAt img 24 8)
      bufLen := BitVec.ofNat 64 (leAt img 32 8) }

/-- PT_WRITE (R456). -/
def execPtWrite (entry : BitVec 13) (s : State) : Host.Outcome State Fault Refusal :=
  .next (writeEntry s entry.toNat (ptImage s))

/-- An entry is copied into the entry image. -/
def readEntry (s : State) (e : Nat) : State :=
  let img := entryBytes (ptGet s e)
  (upFrom 0 32).foldl (fun s i => devSet s (0x80200 + 4 * i) (leWord (slice img (4 * i) 4))) s

/-- PT_READ (R456). -/
def execPtRead (entry : BitVec 13) (s : State) : Host.Outcome State Fault Refusal := .next (readEntry s entry.toNat)

end Sys2Proof.Machine
end

