-- ==== Sys2Proof/Machine/Sealing.lean ====
section
/-! DEFINITION. The key store, seal jobs, batches and receipts, attestation and firmware verification (R464 to R483). -/
namespace Sys2Proof.Machine

/-! ### Identity (R22, R478) -/

/-- IDENT_CORES (R22). -/
def identCores (s : State) : Word :=
  BitVec.ofNat 32 ((if s.compat512 then 2 ^ 24 else 0) + s.perCluster * 2 ^ 16 + logicalCount s)

/-- A private scalar from the fuse secret (R478). -/
def deviceScalar (info : Byte) : Nat := beNat (hkdf384 (digestOf Config.uds) [] [info] 56) % (bpN - 1) + 1

/-- The public keys DIK and DKA. -/
def dikPublic : List Byte := encodePoint (pointMul (deviceScalar 1) bpG)
def dkaPublic : List Byte := encodePoint (pointMul (deviceScalar 2) bpG)

/-- A signature of the device (R476, R479). -/
def deviceSign (m : List Byte) : List Byte := ecdsaSign (deviceScalar 1) m

/-- A 64-bit register pair. -/
def devPair (s : State) (o : Nat) : Nat := (devGet s o).toNat + 2 ^ 32 * (devGet s (o + 4)).toNat

/-! ### Keys (R464 to R468) -/

/-- The key length of a TYPE. -/
def keyLen (typ : Nat) : Option Nat :=
  match typ with
  | 1 => some 32
  | 2 => some 64
  | 3 => some 32
  | 4 => some 48
  | _ => none

/-- Slot `k` and its storage are written. -/
def setKey (s : State) (k : Nat) (x : KSlot) : State :=
  modSeal s (fun b => { b with ks := tset kslotDefault b.ks k x, lost := tset lostDefault b.lost k false })

/-- Steps 3 to 7 of R467 on a blob for `slot`: the code of the first failure, or the type and the key. -/
def unwrapBlob (slot : Nat) (b : List Byte) : Except Byte (Byte × List Byte) :=
  if b = [] then .error 5
  else if leAt b 2 2 ≠ slot then .error 6
  else match keyLen (leAt b 1 1) with
    | none => .error 5
    | some n =>
      if leAt b 0 1 ≠ 1 ∨ b.length ≠ 144 + n ∨ !allZero (slice b 4 4 ++ slice b 105 7 ++ slice b 124 4) then .error 5
      else
        let z := match pointMul (deviceScalar 2) (decodePoint (slice b 8 97)) with
          | some (x, _) => beBytes 48 x
          | none => []
        let kek := hkdf384 z (sha384 dkaPublic) (slice b 0 4) 32
        let wkey := slice b 128 n
        let nonce := slice b 112 12
        if decodePoint (slice b 8 97) = none then .error 3
        else if gcmTag kek nonce (slice b 0 128) wkey ≠ slice b (128 + n) 16 then .error 4
        else .ok (BitVec.ofNat 8 (leAt b 1 1), gcmCrypt (aesKeys kek) nonce 0 wkey)

/-- An envelope already matched, or a seal job already queued, uses the key of the slot (R468). -/
def keyUsed (s : State) (k : Nat) : Bool :=
  (upFrom 0 32).any (fun p => match getPipe s p with
    | some e => e.checked && e.kslot == k
    | none => false) ||
  s.so.sealing.jobs.any (fun j => j.status.isNone && (leAt j.desc 30 2 == k || leAt j.desc 32 2 == k))

/-- The command of the mailbox that a key command serves completes (R515). -/
def keyHole (s : State) (hole : Option (BitVec 6)) (res : Byte) : State :=
  match hole with
  | none => s
  | some h => if res = 0 then okHole s h [] else failHole s h (0x30 + res.setWidth 16) res.toNat

/-- The head of the key commands begins: a retire of an ACTIVE slot makes it RETIRING, one of an EMPTY slot ends, and the
next begins (R468). At most `n` commands begin. -/
def startKeys : Nat → State → State
  | 0, s => s
  | n + 1, s =>
    match s.so.sealing.ksRun with
    | .retire k hole :: rest =>
      match (getKey s k).st with
      | .empty => startKeys n (keyHole (modSeal s (fun b => { b with ksRun := rest, ksRes := 2 })) hole 2)
      | _ => setKey s k { getKey s k with st := .retiring }
    | _ => s

/-- A key command is queued, and begins if none runs. -/
def queueKey (s : State) (c : KsCmd) : State :=
  let idle := s.so.sealing.ksRun.isEmpty
  let s := modSeal s (fun b => { b with ksRun := b.ksRun ++ [c] })
  if idle then startKeys 1 s else s

/-- The head of the key commands ends with a result, and the next begins. -/
def endKey (s : State) (hole : Option (BitVec 6)) (res : Byte) : State :=
  let s := keyHole (modSeal s (fun b => { b with ksRun := b.ksRun.drop 1, ksRes := res })) hole res
  startKeys s.so.sealing.ksRun.length s

/-- A run of bytes without poison, empty where it cannot be read. -/
def cleanRun (s : State) (addr n : Nat) : State × List Byte :=
  match readGlobal s addr n with
  | (s, some (bs, false)) => (s, bs)
  | (s, _) => (s, [])

/-- The blob at an address, as long as its TYPE says (R466). -/
def readBlob (s : State) (addr : Nat) : State × List Byte :=
  let (s, head) := cleanRun s addr 128
  match keyLen (leAt head 1 1) with
  | none => (s, head)
  | some n => cleanRun s addr (144 + n)

/-- A store to KS_CMD: ignored while a key command runs (R467, R468, R483). -/
def ksImport (s : State) (slot : Nat) : State :=
  if s.so.sealing.ksRun ≠ [] then s
  else
    let (s, blob) := readBlob s (devPair s 0x80038)
    queueKey s (.importKey slot blob none)

def ksRetire (s : State) (slot : Nat) : State :=
  if s.so.sealing.ksRun ≠ [] then s else queueKey s (.retire slot none)

/-- KS_IMPORT (R467). -/
def execKsImport (slot : BitVec 13) (s : State) : Host.Outcome State Fault Refusal :=
  if dark s then .next s else .next (ksImport s slot.toNat)

/-- KS_RETIRE (R468). -/
def execKsRetire (slot : BitVec 13) (s : State) : Host.Outcome State Fault Refusal :=
  if dark s then .next s else .next (ksRetire s slot.toNat)

/-- KS_IMPORT_DONE (R467). -/
def execKsImportDone (s : State) : Host.Outcome State Fault Refusal :=
  match s.so.sealing.ksRun with
  | .importKey k blob hole :: _ =>
    if (getKey s k).st ≠ .empty then .next (endKey s hole 1)
    else match unwrapBlob k blob with
      | .error r => .next (endKey s hole r)
      | .ok (typ, key) =>
        let (n, s) := freshNat s
        .next (endKey (setKey s k (wrapKey typ ((digestOf (Config.openBytes n)).take 12) key)) hole 0)
  | _ => .next s

/-- Every retire of the slot that is queued or running completes (R468). -/
def endRetires (s : State) (k : Nat) : State :=
  let isIt (c : KsCmd) : Option (Option (BitVec 6)) := match c with
    | .retire j hole => if j = k then some hole else none
    | _ => none
  let done := s.so.sealing.ksRun.filterMap isIt
  let wasHead := match s.so.sealing.ksRun with
    | c :: _ => (isIt c).isSome
    | [] => false
  let s := modSeal s (fun b =>
    { b with ksRun := b.ksRun.filter (fun c => (isIt c).isNone), ksRes := if wasHead then 0 else b.ksRes })
  let s := done.foldl (fun s h => keyHole s h 0) s
  if wasHead then startKeys s.so.sealing.ksRun.length s else s

/-- KEY_ERASE (R468): a RETIRING slot that nothing uses any more becomes EMPTY. -/
def execKeyErase (slot : BitVec 13) (s : State) : Host.Outcome State Fault Refusal :=
  let k := slot.toNat
  if (getKey s k).st = .retiring ∧ !keyUsed s k then
    let s := modSeal (setKey s k KSlot.reset) (fun b => { b with cache := b.cache.filter (fun x => x.1 != k) })
    .next (endRetires s k)
  else .next s

/-! ### Batches (R474 to R477) -/

/-- The active image of a kind (R482). -/
def activeImage (s : State) (kind : Nat) : Image :=
  match tget (fun _ => (none : Option Image)) s.so.sealing.active kind with
  | some i => i
  | none => Image.none

/-- A level of the tree (R475). -/
def pairUp : List (List Byte) → List (List Byte)
  | a :: b :: rest => sha384 (1 :: (a ++ b)) :: pairUp rest
  | l => l

/-- The root of leaf hashes, over at most `n` levels (R475). -/
def rootOf : Nat → List (List Byte) → List Byte
  | 0, l => l.headD []
  | n + 1, l => if l.length ≤ 1 then l.headD [] else rootOf n (pairUp l)

/-- The batch's close is held: 16 receipts wait for RCPT_ACK (R477). -/
def closeHeld (s : State) : Bool := decide (16 ≤ (s.so.sealing.batch.num - rcptAck s).toNat)

/-- Bytes 0 to 111 of a receipt's body (R476). -/
def receiptBody (s : State) (b : Batch) : List Byte :=
  [1, 1] ++ leBytes 2 (fabDev s).toNat ++ leBytes 4 b.num.toNat ++ leBytes 2 b.leaves.length ++ leBytes 2 0 ++
    leBytes 4 (activeImage s 1).version.toNat ++ slice (rootOf 11 b.leaves) 0 48 ++ sha384 dikPublic

/-- The open batch closes, or its close is held; a batch without leaves never closes (R474, R477). -/
def closeBatch (s : State) : State :=
  let b := s.so.sealing.batch
  if b.leaves = [] then s
  else if closeHeld s then modSeal s (fun x => { x with closeDue := true })
  else
    let r : Receipt := ⟨b.num, receiptBody s b, b.leaves⟩
    modSeal s (fun x => { x with signing := x.signing ++ [r], batch := ⟨b.num + 1, [], []⟩, closeDue := false })

/-- BATCH_CTL fields. -/
def maxLeaf (s : State) : Nat := (bits (devGet s 0x80018) 16 11).toNat
def batchIdle (s : State) : Nat := (bits (devGet s 0x80018) 0 16).toNat

/-- An ACTIVATE of a Sorting Office image is pending (R474). -/
def activatePending (s : State) : Bool :=
  s.so.sealing.fw.any (fun c => match c with
    | .activate kind _ => kind == 1
    | .verify _ _ _ => false)

/-- The batch has to close before a leaf for this destination joins (R474). -/
def closesFor (s : State) (dest : BitVec 16) : Bool :=
  let b := s.so.sealing.batch
  activatePending s || decide (maxLeaf s ≤ b.leaves.length) || (!b.dests.contains dest && decide (64 ≤ b.dests.length))

/-- BATCH_CLOSE_CMD (R474). -/
def execBatchCloseCmd (s : State) : Host.Outcome State Fault Refusal := .next (closeBatch s)

/-- BATCH_IDLE_TIMEOUT (R474). -/
def execBatchIdleTimeout (s : State) : Host.Outcome State Fault Refusal :=
  if batchIdle s = 0 then .next s else .next (closeBatch s)

/-- The receipt of a batch as a record of TYPE 2 (R476). -/
def receiptRecord (s : State) (r : Receipt) : List Byte :=
  let body := r.body ++ deviceSign r.body ++ r.leaves.flatten
  [1, 2] ++ leBytes 2 0 ++ leBytes 4 body.length ++ leBytes 20 0 ++ leBytes 2 (fabDev s).toNat ++ leBytes 2 0 ++ body

/-- BATCH_SIGNED (R476, R477): the oldest closed batch's receipt is written, and firmware is signalled. -/
def execBatchSigned (s : State) : Host.Outcome State Fault Refusal :=
  match s.so.sealing.signing with
  | [] => .next s
  | r :: rest =>
    let s := modSeal s (fun b => { b with signing := rest, receipts := b.receipts ++ [r.num] })
    .next (writeGlobal s (devPair s 0x80028 + 0x10000 * (r.num.toNat % 16)) (receiptRecord s r)).1

/-- RCPT_ACK takes a count: the receipts before it have been forwarded, and a held close goes on (R477). -/
def ackReceipts (s : State) (v : Word) : State :=
  let s := devSet s 0x80030 v
  let s := modSeal s (fun b => { b with receipts := b.receipts.filter (fun n => !receiptSent s n) })
  if s.so.sealing.closeDue && !closeHeld s then closeBatch s else s

/-- A record of the batch has not been delivered, as far as firmware knows (R477). -/
def undelivered (s : State) (b : BitVec 32) : Bool :=
  s.so.parcels.any (fun p => p.records.any (fun r => r.2.1 == b && !r.2.2)) ||
    s.so.sealing.notes.any (fun n => n.status == 0 && n.batch == b)

/-- Firmware has been signalled every receipt before the count, and every record of their batches has completed with DONE, so
that it may have forwarded them (R477). -/
def mayForward (s : State) (v : Word) : Bool :=
  let n := (v - rcptAck s).toNat
  decide (n ≤ 16) && (upFrom 0 n).all (fun k =>
    let b := rcptAck s + BitVec.ofNat 32 k
    s.so.sealing.receipts.contains b && !undelivered s b)

/-- RCPT_ACK_WRITE (R477): firmware counts no receipt that it may not have forwarded (DEDUCED, log 148). -/
def execRcptAckWrite (v : BitVec 32) (s : State) : Host.Outcome State Fault Refusal :=
  .next (if mayForward s v then settleSo (ackReceipts s v) else s)

/-! ### Seal jobs (R469 to R473) -/

/-- An address that R470 allows. -/
def sealAddr (s : State) (addr : Nat) : Bool := isHere s (globalOf addr) && decide ((globalOf addr).space.toNat ≤ 2)

/-- A job's use of slot `k` as a key of a TYPE: the slot is read, and its key enters the key cache (R465, R470). -/
def jobKey (s : State) (k typ : Nat) : State × Option (List Byte) :=
  let s := readKeySlot s k typ
  match activeKey s k typ with
  | some key => (touchKey s k, some key)
  | none => (s, none)

/-- The bytes that the memory at a descriptor's address holds where the block cannot read them; firmware has written them,
and so knows its job (R506). -/
def heldDesc (s : State) (addr : Nat) : List Byte :=
  let a := globalOf addr
  if !sealAddr s addr then []
  else match a.space.toNat with
    | 0 => if a.off + 64 ≤ hbmEnd then memBytes s.fab.hbm a.off 64 else []
    | 1 => if a.off + 64 ≤ lpEnd then memBytes s.fab.lp a.off 64 else []
    | _ => if a.off + 64 ≤ 0x30000000 then memBytes s.sram a.off 64 else []

/-- A job as it is accepted (R470): one whose descriptor lies outside space 0x0 to 0x2 of this device, or cannot be read, ends
with status 5. Its keys are read here and stay with it (DESIGN CHOICE, log 112). -/
def acceptJob (s : State) (addr : Nat) : State × SealJob :=
  match if sealAddr s addr then readGlobal s addr 64 else (s, none) with
  | (s, none) => (s, ⟨addr, heldDesc s addr, some 5, [], []⟩)
  | (s, some (d, p)) =>
    let (s, ik) := jobKey s (leAt d 30 2) 3
    let (s, tk) := jobKey s (leAt d 32 2) 4
    match ik, tk with
    | some ik, some tk => (s, ⟨addr, d, if p then some 2 else none, ik, tk⟩)
    | _, _ => (s, ⟨addr, d, some (if p then 2 else 1), [], []⟩)

/-- A seal job is submitted (R470). -/
def sealDoor (s : State) (hi : Word) : State :=
  if 256 ≤ s.so.sealing.jobs.length then devOr s 0x8000C 0x80000000
  else
    let (s, j) := acceptJob s (hi.toNat * 2 ^ 32 + s.so.sealing.doorLo.toNat)
    modSeal s (fun b => { b with jobs := b.jobs ++ [j] })

/-- The last parcel that held table entry `e` is FAILED (R506). -/
def failedParcel (s : State) (e : Nat) : Bool :=
  match (s.so.parcels.filter (fun p => p.entry == e)).getLast? with
  | some p => p.st == .failed
  | none => false

/-- Firmware does not submit this job: the parcel that its descriptor names is FAILED (R506) or has a stage that has not completed
(R505), or a test of a package holds work in space 0x1 (R574). -/
def holdsJob (s : State) (addr : Nat) : Bool :=
  let d := heldDesc s addr
  d != [] && ((match liveParcel s (leAt d 34 2) with
    | some p => !stagesDone s p
    | none => failedParcel s (leAt d 34 2)) ||
    (lpHolds s && [addr, leAt d 0 8, leAt d 8 8, leAt d 16 8].any (inLp s)))

/-- SEAL_DOOR (R470): firmware submits a job only after every stage of its parcel has completed (R505), and none of a FAILED
parcel (R506). -/
def execSealDoor (hi : BitVec 32) (s : State) : Host.Outcome State Fault Refusal :=
  if dark s then .next s else .next (if holdsJob s (hi.toNat * 2 ^ 32 + s.so.sealing.doorLo.toNat) then s else sealDoor s hi)

/-- A run that a job reads, or the status that ends it (R472). -/
def jobRead (s : State) (addr n : Nat) : State × Except Nat (List Byte) :=
  if n = 0 then (s, .ok [])
  else if !sealAddr s addr then (s, .error 5)
  else match readGlobal s addr n with
    | (s, none) => (s, .error 5)
    | (s, some (_, true)) => (s, .error 2)
    | (s, some (bs, false)) => (s, .ok bs)

/-- `n` terms from an address (R470). -/
def readTerms : Nat → State → Nat → State × Except Nat (List (List Byte))
  | 0, s, _ => (s, .ok [])
  | n + 1, s, a =>
    match jobRead s a 2 with
    | (s, .error e) => (s, .error e)
    | (s, .ok l) =>
      let len := leAt l 0 2
      if len = 0 ∨ 1024 < len then (s, .error 3)
      else match jobRead s (a + 2) len with
        | (s, .error e) => (s, .error e)
        | (s, .ok t) =>
          match readTerms n s (a + 2 + len) with
          | (s, .error e) => (s, .error e)
          | (s, .ok ts) => (s, .ok (t :: ts))

/-- A token placed in ascending order, once (R471). -/
def placeToken : List (List Byte) → List Byte → List (List Byte)
  | [], t => [t]
  | x :: rest, t => if t = x then x :: rest else if beNat t < beNat x then t :: x :: rest else x :: placeToken rest t

/-- The tokens of terms (R471). -/
def tokensOf (key : List Byte) (terms : List (List Byte)) : List (List Byte) :=
  terms.foldl (fun l t => placeToken l ((hmac384 key t).take 16)) []

/-- Descriptor fields. -/
def jobBody (d : List Byte) : Nat := leAt d 0 8
def jobOut (d : List Byte) : Nat := leAt d 8 8
def jobPayLen (d : List Byte) : Nat := leAt d 24 4
def jobCtl (d : List Byte) : Nat := leAt d 42 1
def jobEntry (d : List Byte) : Nat := if d = [] then 8192 else leAt d 34 2
def jobDest (d : List Byte) : BitVec 16 := BitVec.ofNat 16 (leAt d 40 2)

/-- The descriptor lies within R469 and R470. -/
def jobFormOk (d : List Byte) : Bool :=
  decide (jobPayLen d ≤ 16777216 ∧ leAt d 28 2 ≤ 4096 ∧ jobCtl d < 8) && allZero (slice d 43 1 ++ slice d 58 6)

/-- The marks of the parcel that holds table entry `e`: DBG, and TEVENT above it (R469, R529, R585). -/
def parcelMarks (s : State) (e : Nat) : Byte :=
  match liveParcel s e with
  | some p => (if p.dbg then 1 else 0) ||| (if p.tevent then 2 else 0)
  | none => 0

/-- The record of a job (R469, R472, R473), whose FLAGS join CTL and the parcel's marks (DESIGN CHOICE, log 149), from its payload, its terms, P ‖ W ‖ C and IDIG. -/
def recordOf (s : State) (j : SealJob) (pay : List Byte) (terms : List (List Byte)) (dig idig : List Byte) : List Byte :=
  let d := j.desc
  let postmark := sha384 (slice dig 0 96 ++ idig ++ slice dig 96 48)
  let tokens := tokensOf j.tKey terms
  let nonce := (sha384 (postmark ++ slice d 36 4 ++ slice d 30 2 ++ sha384 pay)).take 12
  let header := [1, 1] ++ leBytes 2 tokens.length ++ slice d 24 4 ++ slice d 30 4 ++ slice d 36 4 ++ nonce ++
    leBytes 2 (fabDev s).toNat ++ [BitVec.ofNat 8 (jobCtl d / 2) ||| parcelMarks s (jobEntry d)] ++ [0]
  let ct := gcmCrypt (aesKeys j.iKey) nonce 0 pay
  let toks := tokens.flatten
  header ++ ct ++ gcmTag j.iKey nonce (header ++ toks ++ postmark) ct ++ toks ++ postmark

/-- The record of a job, or the status that ends it (R472). -/
def jobRecord (s : State) (j : SealJob) : State × Except Nat (List Byte) :=
  let d := j.desc
  match j.status with
  | some e => (s, .error e)
  | none =>
    if !jobFormOk d then (s, .error 3)
    else match jobRead s (jobBody d) (jobPayLen d) with
      | (s, .error e) => (s, .error e)
      | (s, .ok pay) =>
        match readTerms (leAt d 28 2) s (jobBody d + 64 * ceilDiv (jobPayLen d) 64) with
        | (s, .error e) => (s, .error e)
        | (s, .ok terms) =>
          match jobRead s (leAt d 16 8) 144 with
          | (s, .error e) => (s, .error e)
          | (s, .ok dig) =>
            let x := ptGet s (jobEntry d)
            if 8192 ≤ jobEntry d ∨ x.st ≠ .accepted then (s, .error 4)
            else if !sealAddr s (jobOut d) ∨ jobOut d % 64 ≠ 0 then (s, .error 5)
            else (s, .ok (recordOf s j pay terms dig x.idig))

/-- The head job ends: firmware hears of it (R470, R506). -/
def jobDone (s : State) (j : SealJob) (status : Nat) (batch : Word) : State :=
  let n : SealNote := ⟨jobEntry j.desc, status, bitOf (BitVec.ofNat 8 (jobCtl j.desc)) 0, jobOut j.desc, batch⟩
  modSeal s (fun b => { b with jobs := b.jobs.drop 1, notes := b.notes ++ [n] })

/-- The status word of a job's descriptor is written (R470); a descriptor that names no memory of this device has none. -/
def putStatus (s : State) (j : SealJob) (bs : List Byte) : State :=
  if sealAddr s j.addr then (writeGlobal s (j.addr + 44) bs).1 else s

/-- The leaf of a record joins the open batch (R474). -/
def joinBatch (s : State) (dest : BitVec 16) (leaf : List Byte) : State :=
  modSeal s (fun b =>
    { b with batch := { b.batch with
        leaves := b.batch.leaves ++ [leaf]
        dests := if b.batch.dests.contains dest then b.batch.dests else b.batch.dests ++ [dest] } })

/-- The record is written, its leaf joins, and the work is reported (R472). -/
def sealRecord (s : State) (j : SealJob) (rec : List Byte) : State :=
  let d := j.desc
  match writeGlobal s (jobOut d) rec with
  | (s, false) => jobDone (putStatus s j (leBytes 4 5)) j 5 0
  | (s, true) =>
    let b := s.so.sealing.batch
    let s := joinBatch s (jobDest d) (sha384 (0 :: rec))
    let s := putStatus s j (leBytes 4 0 ++ leBytes 4 rec.length ++ leBytes 4 b.num.toNat ++ leBytes 2 b.leaves.length)
    let x := ptGet s (jobEntry d)
    let s := reportWork s x.account.toNat 2 1
    let s := if jobCtl d % 2 = 1 then reportWork s x.account.toNat 1 x.ptLen.toNat else s
    jobDone s j 0 b.num

/-- The head of the queue completes, unless a batch's close holds it (R472, R474, R477). -/
def sealJob (s : State) : State :=
  match s.so.sealing.jobs with
  | [] => s
  | j :: _ =>
    if s.so.sealing.closeDue then s
    else match jobRecord s j with
      | (s, .error e) => jobDone (putStatus s j (leBytes 4 e)) j e 0
      | (s, .ok rec) =>
        let s := if closesFor s (jobDest j.desc) then closeBatch s else s
        if s.so.sealing.closeDue then s else sealRecord s j rec

/-- SEAL_JOB_COMPLETE (R472). -/
def execSealJobComplete (s : State) : Host.Outcome State Fault Refusal := .next (settleSo (sealJob s))

/-! ### Attestation (R480) -/

/-- The Franking image in force (R557). -/
def frImage (s : State) : FrImage :=
  match s.fr.image with
  | some i => i
  | none => ⟨Config.frankingImage.1, Config.frankingImage.2.1, digestOf Config.frankingImage.2.2⟩

/-- The slots that are not EMPTY. -/
def usedSlots (s : State) : Tab KSlot := s.so.sealing.ks.filter (fun x => x.2.st != .empty)

/-- MBX_STAT.REDUCED (R495, R543). -/
def isReduced (s : State) : Bool := s.mod.service == 1

/-- Bytes 0 to 423 of a report (R480). -/
def attestBody (s : State) (nonce : List Byte) : List Byte :=
  let so := activeImage s 1
  let nm := activeImage s 2
  let flag (b : Bool) (n : Nat) : Nat := if b then n else 0
  let st := flag (s.dbgSession != 0) 1 + flag s.compat512 2 + flag s.flash.retired.isSome 4 + flag (isReduced s) 8
  let slots := (usedSlots s).flatMap (fun x => leBytes 2 x.1 ++ [x.2.typ] ++ slice x.2.check 0 16)
  [2, 1] ++ leBytes 2 (fabDev s).toNat ++ leBytes 4 so.version.toNat ++ leBytes 4 so.svn.toNat ++
    leBytes 4 nm.version.toNat ++ leBytes 4 (identCores s).toNat ++ leBytes 4 st ++ slice nonce 0 48 ++
    sha384 dikPublic ++ dkaPublic ++ leBytes 7 0 ++ slice so.digest 0 48 ++ slice nm.digest 0 48 ++
    slice (frImage s).frId 0 48 ++ sha384 slots ++ leBytes 4 (usedSlots s).length ++ leBytes 4 0

/-- The report, signed. -/
def attestReport (s : State) (nonce : List Byte) : List Byte := attestBody s nonce ++ deviceSign (attestBody s nonce)

/-- A store of GO to ATT_CMD: ignored while a report is being produced (R480, R483). A nonce that cannot be read is left
open. -/
def attGo (s : State) : State :=
  if s.so.sealing.att ≠ [] then s
  else
    let addr := devPair s 0x80048
    let (s, nonce) := cleanRun s (addr + 24) 48
    let (k, s) := if nonce = [] then freshNat s else (0, s)
    let nonce := if nonce = [] then digestOf (Config.openBytes k) else nonce
    modSeal s (fun b => { b with att := [⟨nonce, some addr, none⟩] })

/-- ATT_GO (R480). -/
def execAttGo (s : State) : Host.Outcome State Fault Refusal :=
  if dark s then .next s else .next (attGo s)

/-- ATTEST_REPORT_DONE (R480): the report is written, or answers the pigeonhole (R503). -/
def execAttestReportDone (s : State) : Host.Outcome State Fault Refusal :=
  match s.so.sealing.att with
  | [] => .next s
  | a :: rest =>
    let r := attestReport s a.nonce
    let s := modSeal s (fun b => { b with att := rest })
    let s := match a.addr with
      | some addr => (writeGlobal s addr r).1
      | none => s
    match a.hole with
    | some h => .next (okHole s h r)
    | none => .next s

/-! ### Firmware images (R481, R482) -/

/-- What the part keeps of an image. -/
def imageOf (img : List Byte) : Image := ⟨BitVec.ofNat 32 (leAt img 8 4), BitVec.ofNat 32 (leAt img 12 4), sha384 img⟩

/-- FORMAT of R482. -/
def imageFormOk (kind : Nat) (img : List Byte) : Bool :=
  slice img 0 4 == [0x46, 0x56, 0x32, 0x46] && decide (1 ≤ kind ∧ kind ≤ 3 ∧ leAt img 4 1 = kind) &&
    allZero (slice img 5 3 ++ slice img 169 7) && (kind == 3 || allZero (slice img 272 240)) &&
    decide (leAt img 16 8 % 64 = 0 ∧ img.length = 512 + leAt img 16 8)

/-- VERIFY (R482): the code of the first failure, or 0. -/
def verifyImage (kind : Nat) (img : List Byte) : Byte :=
  if !imageFormOk kind img then 1
  else if sha384 (slice img 72 97) ≠ digestOf Config.signerDigest then 2
  else if !ecdsaVerify (decodePoint (slice img 72 97)) (slice img 0 176) (slice img 176 96) then 3
  else if sha384 (img.drop 512) ≠ slice img 24 48 then 4
  else if leAt img 12 4 < (Config.minSvn kind).toNat then 5
  else 0

/-- The image at an address, as long as its LENGTH says. -/
def readImage (s : State) (addr : Nat) : State × List Byte :=
  let (s, head) := cleanRun s addr 512
  cleanRun s addr (512 + leAt head 16 8)

/-- A store to FW_CMD: ignored while a firmware command runs (R482, R483). -/
def fwVerify (s : State) (kind : Nat) : State :=
  if s.so.sealing.fw ≠ [] then s
  else
    let (s, img) := readImage s (devPair s 0x80058)
    modSeal s (fun b => { b with fw := [.verify kind img none] })

def fwActivate (s : State) (kind : Nat) : State :=
  if s.so.sealing.fw ≠ [] then s else modSeal s (fun b => { b with fw := [.activate kind none] })

/-- FW_VERIFY (R482). -/
def execFwVerify (kind : BitVec 8) (s : State) : Host.Outcome State Fault Refusal :=
  if dark s then .next s else .next (fwVerify s kind.toNat)

/-- FW_ACTIVATE (R482). -/
def execFwActivate (kind : BitVec 8) (s : State) : Host.Outcome State Fault Refusal :=
  if dark s then .next s else .next (fwActivate s kind.toNat)

def imageDefault (_ : Nat) : Option Image := none

/-- What the sealing block does as the running firmware command ends; none where the open batch has still to close
(R474, R482). -/
def endFw (s : State) : Option State :=
  match s.so.sealing.fw with
  | [] => none
  | .verify kind img _ :: rest =>
    let r := verifyImage kind img
    some (modSeal s (fun b =>
      { b with fw := rest, fwRes := r,
               lastValid := if r = 0 then tset imageDefault b.lastValid kind (some (imageOf img)) else b.lastValid }))
  | .activate kind _ :: rest =>
    let s := if kind = 1 then closeBatch s else s
    if kind = 1 ∧ s.so.sealing.closeDue then none
    else
      some (modSeal s (fun b =>
        { b with fw := rest, fwRes := 0,
                 active := match tget imageDefault b.lastValid kind with
                   | some i => tset imageDefault b.active kind (some i)
                   | none => b.active }))

/-! ### Views of the block's registers (R483) -/

def pipesBusy (s : State) : Word := (upFrom 0 32).foldl (fun m p => if (getPipe s p).isSome then m ||| oneAt 32 p else m) 0

/-- The read-only fields of the block. -/
def sealView (s : State) (o : Nat) (stored : Word) : Word :=
  let b := s.so.sealing
  let busy (x : Bool) (r : Byte) : Word := setBits (ofBool 32 x <<< 31) 0 r
  if o = 0x004 then pipesBusy s
  else if o = 0x008 then stored ||| BitVec.ofNat 32 (usedSlots s).length
  else if o = 0x00C then stored ||| BitVec.ofNat 32 b.jobs.length
  else if o = 0x01C then b.batch.num
  else if o = 0x020 then BitVec.ofNat 32 b.batch.leaves.length
  else if o = 0x044 then busy (!b.ksRun.isEmpty) b.ksRes
  else if o = 0x054 then busy (!b.att.isEmpty) 0
  else if o = 0x064 then busy (!b.fw.isEmpty) b.fwRes
  else stored

end Sys2Proof.Machine
end

