-- ==== Sys2Proof/Machine/Franking.lean ====
section
/-! DEFINITION. The Franking die: energy, work counters, legal event log, updates, the MTR port and the mirror
(R546 to R561). -/
namespace Sys2Proof.Machine

def modFr (s : State) (f : Franking → Franking) : State := { s with fr := f s.fr }

def railDefault (_ : Nat) : Rail := Rail.reset
def sumDefault (_ : Nat) : Int × Int × Int × Nat := (0, 0, 0, 0)
def accountDefault (_ : Nat) : BitVec 64 := 0
def frWordDefault (_ : Nat) : Word := 0
def logDefault (_ : Nat) : BitVec 128 := 0

def getRail (f : Franking) (r : Nat) : Rail := tget railDefault f.live.rails r

def setRail (f : Franking) (r : Nat) (x : Rail) : Franking :=
  { f with live := { f.live with rails := tset railDefault f.live.rails r x } }

/-! ### The legal event log (R554) -/

/-- An entry is written: sequence number, TYPE, DATA and rail 0's ENERGY. -/
def logFr (f : Franking) (typ : Byte) (d : Nat) : Franking :=
  let entry : BitVec 128 := (getRail f 0).energy ++ (BitVec.ofNat 24 d ++ (typ ++ f.logNext : BitVec 40) : BitVec 64)
  { f with log := tset logDefault f.log (f.logNext.toNat % 1024) entry, logNext := f.logNext + 1 }

/-! ### Energy (R547 to R549) -/

/-- The LSB of a rail's current code in µA (R547). -/
def currentLsb (r : Nat) : Nat :=
  match r with
  | 1 => 200
  | 2 => 200
  | 3 => 50
  | 4 => 50
  | 5 => 100
  | _ => 10

/-- The window's mean power lies below the creep threshold: 2 W on rail 0, 0.2 W on the others (R548). -/
def belowCreep (r n : Nat) (sum : Int) : Bool :=
  decide (sum.natAbs * currentLsb r < 2 * n * (if r = 0 then 10 ^ 11 else 10 ^ 10))

/-- A magnitude is added to a register of whole millijoules, with its carried fraction in 10⁻¹⁵ mJ (R548). -/
def addEnergy (reg : BitVec 64) (carry : Nat) (mag : Nat) : BitVec 64 × Nat :=
  let t := carry + mag
  (reg + BitVec.ofNat 64 (t / 10 ^ 15), t % 10 ^ 15)

/-- The window's sum of products is registered (R548). -/
def addWindow (r n : Nat) (sum : Int) (x : Rail) : Rail :=
  let mag := sum.natAbs * currentLsb r * 2500
  if belowCreep r n sum then x
  else if 0 < sum then
    let (e, c) := addEnergy x.energy x.fracUp mag
    { x with energy := e, fracUp := c }
  else
    let (e, c) := addEnergy x.reverse x.fracDown mag
    { x with reverse := e, fracDown := c }

def faulty (f : Franking) (r : Nat) : Bool := bitOf f.fault r

/-- A sample of one rail (R548, R549). -/
def sampleRail (volts amps : List (BitVec 24)) (f : Franking) (r : Nat) : Franking :=
  if faulty f r then f
  else
    let v := (volts.getD r 0).toInt
    let i := (amps.getD r 0).toInt
    let (p, vs, is, n) := tget sumDefault f.sums r
    let f := { f with sums := tset sumDefault f.sums r (p + v * i, vs + v, is + i, n + 1) }
    if i ≠ -8388608 ∧ i ≠ 8388607 then f
    else
      let x := getRail f r
      let f := setRail f r { x with ovr := BitVec.ofNat 32 (addCap (2 ^ 32 - 1) x.ovr.toNat 1) }
      if f.ranged.contains r then f else logFr { f with ranged := f.ranged ++ [r] } 0x09 r

/-- The mean of `n` codes; a fraction is rounded down or up, which is open (R561). -/
def meanCode (n fresh : Nat) (sum : Int) : Word :=
  let q := sum / (n : Int)
  BitVec.ofInt 32 (if sum % (n : Int) ≠ 0 ∧ Config.roundUp fresh then q + 1 else q)

/-- One rail at the end of a window: its means are of the samples that it has taken (R549, R561). -/
def closeRail (fresh : Nat) (f : Franking) (r : Nat) : Franking :=
  let (p, vs, is, n) := tget sumDefault f.sums r
  if faulty f r ∨ n = 0 then f
  else
    let f := setRail f r (addWindow r n p (getRail f r))
    { f with vmean := tset frWordDefault f.vmean r (meanCode n (fresh + 2 * r) vs),
             imean := tset frWordDefault f.imean r (meanCode n (fresh + 2 * r + 1) is) }

/-- The integration window ends (R548). -/
def closeWindow (fresh : Nat) (f : Franking) : Franking :=
  { (upFrom 0 8).foldl (closeRail fresh) f with sums := [], samples := 0, ranged := [] }

/-- Every register, counter and fraction is committed (R553). -/
def commitFr (f : Franking) : Franking := { f with nv := f.live }

/-- A verified image takes over at the window boundary (R558). -/
def switchImage (f : Franking) : Franking :=
  match f.update with
  | none => f
  | some i =>
    logFr { f with image := some i, update := none, sealCnt := f.sealCnt + 1, updSerial := f.updSerial + 1, updResult := 0 }
      0x05 (f.sealCnt + 1).toNat

/-- ACTIVATE_FIRMWARE of kind 0x03 completes once UPD_STAT.SERIAL has changed (R513, R578). -/
def frDone (s : State) (serial : Byte) : State :=
  match s.so.frHole with
  | some h =>
    if s.fr.updSerial = serial then s
    else completeHole (modSo s (fun o => { o with frHole := none })) h stOK (s.fr.updResult.setWidth 32) 0
      (leBytes 4 (frImage s).version.toNat)
  | none => s

/-- The window has its 4,000 samples (R548). -/
def windowFull (f : Franking) : Bool := f.samples == 4000

/-- The window closes and everything is committed; a verified image takes over (R548, R553, R558). -/
def endWindow (s : State) : State :=
  let serial := s.fr.updSerial
  let k := s.fresh
  let s := { s with fresh := k + 16 }
  frDone (modFr s (fun f => switchImage (commitFr (closeWindow k f)))) serial

/-- WINDOW_END (R548, R553, R558): a window ends after 4,000 samples. -/
def execWindowEnd (s : State) : Host.Outcome State Fault Refusal :=
  .next (if s.fr.powered && windowFull s.fr then endWindow s else s)

/-- FRANKING_SAMPLE (R548): the voltage and current codes of rails 0 to 7. One that follows the 4,000th ends that window, if
it has not ended, and is the first of the next. -/
def execFrankingSample (volts amps : List (BitVec 24)) (s : State) : Host.Outcome State Fault Refusal :=
  if !s.fr.powered then .next s
  else
    let s := if windowFull s.fr then endWindow s else s
    .next (modFr s (fun f =>
      let f := (upFrom 0 8).foldl (sampleRail volts amps) f
      { f with samples := f.samples + 1 }))

/-- CONVERTER_FAULT (R549). -/
def execConverterFault (rail : Fin 8) (s : State) : Host.Outcome State Fault Refusal :=
  if !s.fr.powered ∨ faulty s.fr rail.val then .next s
  else .next (modFr s (fun f =>
    logFr { f with fault := f.fault ||| oneAt 8 rail.val, sums := tset sumDefault f.sums rail.val (0, 0, 0, 0) } 0x0A rail.val))

/-- CONVERTER_CHECK_PASS (R549). -/
def execConverterCheckPass (rail : Fin 8) (s : State) : Host.Outcome State Fault Refusal :=
  if s.fr.powered then .next (modFr s (fun f => { f with fault := f.fault &&& ~~~(oneAt 8 rail.val) })) else .next s

/-! ### Work counters (R551, R552) -/

/-- A counter rises; one that would pass its largest value stays there, which is logged (R551). -/
def countWork (f : Franking) (account : BitVec 10) (counter : Nat) (inc : BitVec 64) : Franking :=
  let k := 4 * account.toNat + counter
  let old := tget accountDefault f.live.accounts k
  let v := addCap (2 ^ 64 - 1) old.toNat inc.toNat
  let f := { f with live := { f.live with accounts := tset accountDefault f.live.accounts k (BitVec.ofNat 64 v) } }
  if 2 ^ 64 ≤ old.toNat + inc.toNat then logFr f 0x0B account.toNat else f

/-- A frame of the report link arrives (R552). -/
def takeFrame (f : Franking) (r : ReportFrame) : Franking :=
  let expected : BitVec 16 := match f.lastSeq with
    | some l => l + 1
    | none => 0
  let missing := (r.seq - expected).toNat
  let f := { f with linkOk := true, startCopy := false }
  if 2 ^ 15 ≤ missing then f
  else
    let f := if missing = 0 then f else logFr f 0x04 missing
    countWork { f with lastSeq := some r.seq } r.account r.counter.val r.inc

/-- REPORT_FRAME (R552). -/
def execReportFrame (frame : ReportFrame) (s : State) : Host.Outcome State Fault Refusal :=
  if s.fr.powered && frame.intact then .next (modFr s (fun f => takeFrame f frame)) else .next s

/-- HUB_RESTART (R552): a START frame. Its second copy follows at once and is discarded; where no report was received before
it, the sequence number logged is open. -/
def execHubRestart (s : State) : Host.Outcome State Fault Refusal :=
  if !s.fr.powered then .next s
  else if s.fr.startCopy then .next (modFr s (fun f => { f with startCopy := false }))
  else
    let (k, s) := freshNat s
    .next (modFr s (fun f =>
      let last := match f.lastSeq with
        | some l => l.toNat
        | none => (Config.eventWords k).toNat % 2 ^ 16
      { logFr f 0x03 last with lastSeq := none, startCopy := true, linkOk := true }))

/-! ### Power (R553, R599) -/

/-- POWER_LOSS (R553): the window in progress is registered, and everything is committed. -/
def execPowerLoss (s : State) : Host.Outcome State Fault Refusal :=
  if !s.fr.powered then .next s
  else
    let k := s.fresh
    let s := { s with fresh := k + 16 }
    .next (modFr s (fun f => { commitFr (logFr (closeWindow k f) 0x02 0) with powered := false }))

/-- POWER_UP (R553): the die resumes from what it committed. -/
def execPowerUp (s : State) : Host.Outcome State Fault Refusal :=
  if s.fr.powered then .next s
  else .next (modFr s (fun f =>
    logFr { f with
      live := f.nv, sums := [], samples := 0, ranged := [], vmean := [], imean := [], fault := 0, update := none, updSerial := 0,
      updResult := 0, lastSeq := none, startCopy := false, incoming := none, linkOk := false, sel := none, powered := true } 0x01 0))

/-! ### Update (R555 to R558) -/

/-- The Feruntus key that the die holds. -/
def feruntusKey : List Byte := beBytes 97 Config.frankingKey.toNat

/-- Fields of R556. -/
def lrOff (img : List Byte) : Nat := leAt img 320 4
def lrLen (img : List Byte) : Nat := leAt img 324 4

/-- The legally relevant section of an image. -/
def lrSection (img : List Byte) : List Byte := slice img (512 + lrOff img) (lrLen img)

/-- Format under R481 and R556. -/
def frFormOk (img : List Byte) : Bool :=
  imageFormOk 3 img && decide (lrOff img % 64 = 0 ∧ lrLen img % 64 = 0 ∧ 512 + lrOff img + lrLen img ≤ img.length) &&
    allZero (slice img 472 40)

/-- The checks of R557: the reason of the first failure, or 0. -/
def frCheck (s : State) (img : List Byte) : Byte :=
  let signer := slice img 72 97
  if !frFormOk img then 1
  else if signer ≠ feruntusKey ∨ !ecdsaVerify (decodePoint signer) (slice img 0 176) (slice img 176 96) then 2
  else match s.fr.akey with
    | none => 3
    | some key =>
      if slice img 424 48 ≠ sha384 key ∨ !ecdsaVerify (decodePoint key) (slice img 0 328) (slice img 328 96) then 4
      else if slice img 272 48 ≠ sha384 (lrSection img) ∨ slice img 24 48 ≠ sha384 (img.drop 512) then 5
      else if leAt img 12 4 < (frImage s).svn.toNat then 6
      else 0

/-- FRANKING_UPDATE_CHECK (R557): the image that the report link has brought; a verified one waits for the window boundary. -/
def execFrankingUpdateCheck (image : List (BitVec 8)) (s : State) : Host.Outcome State Fault Refusal :=
  if !s.fr.powered || s.fr.incoming != some image then .next s
  else
    let s := modFr s (fun f => { f with incoming := none })
    let r := frCheck s image
    if r = 0 then
      let i : FrImage := ⟨BitVec.ofNat 32 (leAt image 8 4), BitVec.ofNat 32 (leAt image 12 4), sha384 (lrSection image)⟩
      .next (modFr s (fun f => { f with update := some i }))
    else
      let serial := s.fr.updSerial
      .next (frDone (modFr s (fun f =>
        logFr { f with updSerial := f.updSerial + 1, updResult := r } 0x06 r.toNat)) serial)

/-! ### The mirror (R561) -/

def byteWord (bs : List Byte) (o : Nat) : Word := leWord (slice bs o 4)

/-- Half `h` of a 64-bit field. -/
def half64 (x : BitVec 64) (h : Nat) : Word := bits x (32 * h) 32

/-- The digest of the installed key, or zeros. -/
def akeyId (f : Franking) : List Byte :=
  match f.akey with
  | some k => sha384 k
  | none => List.replicate 48 0

/-- A word of a rail's record. -/
def railWord (f : Franking) (r o : Nat) : Word :=
  let x := getRail f r
  if o < 8 then half64 x.energy (o / 4)
  else if o < 16 then half64 x.reverse (o / 4 - 2)
  else if o = 16 then tget frWordDefault f.vmean r
  else if o = 20 then tget frWordDefault f.imean r
  else if o = 24 then x.ovr
  else 0

/-- The word at an offset of the mirror. -/
def frWord (s : State) (o : Nat) : Word :=
  let f := s.fr
  if o % 4 ≠ 0 then 0
  else if o = 0x000 then (ofBool 32 f.linkOk <<< 31) ||| (ofBool 32 f.akey.isSome <<< 30) ||| f.fault.setWidth 32
  else if o = 0x004 then f.sealCnt
  else if o = 0x008 then f.logNext
  else if o = 0x00C then f.updSerial ++ (0#16 ++ f.updResult)
  else if 0x010 ≤ o ∧ o < 0x040 then byteWord (frImage s).frId (o - 0x010)
  else if 0x040 ≤ o ∧ o < 0x070 then byteWord (akeyId f) (o - 0x040)
  else if o = 0x070 then (frImage s).version
  else if 0x100 ≤ o ∧ o < 0x200 then railWord f ((o - 0x100) / 32) (o % 32)
  else if 0x4000 ≤ o ∧ o < 0xC000 then
    (let r := o % 32
     if r < 24 then half64 (tget accountDefault f.live.accounts (4 * ((o - 0x4000) / 32) + r / 8)) (r / 4 % 2) else 0)
  else if 0xC000 ≤ o ∧ o < 0x10000 then bits (tget logDefault f.log ((o - 0xC000) / 16)) (8 * (o % 16)) 32
  else 0

/-- `n` bytes of the mirror, from a multiple of 4. -/
def frBytes (s : State) (o n : Nat) : List Byte := (upFrom 0 (n / 4)).flatMap (fun i => leBytes 4 (frWord s (o + 4 * i)).toNat)

/-! ### MTR (R559, R560) -/

/-- The record of a selection. -/
def mtrRecord (s : State) (kind index : Nat) : Option (List Byte) :=
  match kind with
  | 0 => some (frBytes s 0 0x74)
  | 1 => if index < 8 then some (frBytes s (0x100 + 0x20 * index) 32) else none
  | 2 => if index < 1024 then some (frBytes s (0x4000 + 0x20 * index) 32) else none
  | 3 => if index < 1024 then some (frBytes s (0xC000 + 0x10 * index) 16) else none
  | _ => none

/-- MTR_SELECT (R560): the record is read, with its CRC. A selection that names no record is none. -/
def execMtrSelect (kind : BitVec 8) (index : BitVec 16) (s : State) : Host.Outcome State Fault Refusal :=
  if !s.fr.powered then .next s
  else match mtrRecord s kind.toNat index.toNat with
    | none => .next s
    | some r =>
      let s := modFr s (fun f => { f with sel := some (kind.toNat, index.toNat) })
      .next { s with outbox := s.outbox ++ [.mtr (r ++ leBytes 2 (crc16 r).toNat)] }

/-- The reason for which a key is refused (R559), or 0. -/
def keyReason (f : Franking) (key sig : List Byte) : Byte :=
  if decodePoint key = none then 1
  else match f.akey with
    | none => 0
    | some old => if ecdsaVerify (decodePoint old) (key ++ leBytes 4 f.sealCnt.toNat) sig then 0 else 2

/-- KEYSET (R559). -/
def execKeyset (key sig : List (BitVec 8)) (s : State) : Host.Outcome State Fault Refusal :=
  if !s.fr.powered then .next s
  else
    let r := keyReason s.fr key sig
    let s := modFr s (fun f =>
      if r = 0 then logFr { f with akey := some key, sealCnt := f.sealCnt + 1 } 0x07 (f.sealCnt + 1).toNat
      else logFr f 0x08 r.toNat)
    .next { s with outbox := s.outbox ++ [.mtr [r]] }

end Sys2Proof.Machine
end

