-- ==== Sys2Proof/Machine/Power.lean ====
section
/-! DEFINITION. Night Mail, operating points and cluster power states (R516 to R535, R542 to R545). -/
namespace Sys2Proof.Machine

def modNm (s : State) (f : NightMail → NightMail) : State := { s with nm := f s.nm }

/-- A change that the management target signals with an in-band interrupt (R524, R596). -/
def inBand (s : State) : State := { s with outbox := s.outbox ++ [.ibi] }

/-! ### Parameters (R526) -/

/-- A parameter's range and default. -/
structure NmRange where
  lo : Nat
  hi : Nat
  dflt : Nat

/-- The parameters of R526. -/
def nmRange (p : Nat) : Option NmRange :=
  match p with
  | 0x01 => some ⟨1280, 1600, 1520⟩
  | 0x02 => some ⟨16, 320, 80⟩
  | 0x03 => some ⟨1600, 1760, 1760⟩
  | 0x04 => some ⟨320, 640, 640⟩
  | 0x05 => some ⟨3500, 20000, 3500⟩
  | 0x06 => some ⟨500, 3000, 1000⟩
  | 0x07 => some ⟨0, 16000, 240⟩
  | 0x08 => some ⟨500, 2300, 2300⟩
  | 0x09 => some ⟨1, 65535, 10⟩
  | 0x0A => some ⟨0, 65535, 0⟩
  | 0x0B => some ⟨1, 16, 3⟩
  | 0x0C => some ⟨1, 4, 2⟩
  | 0x0D => some ⟨1, 65535, 100⟩
  | 0x10 => some ⟨0, 8, 2⟩
  | 0x11 => some ⟨0, 8, 3⟩
  | 0x12 => some ⟨0, 8, 3⟩
  | 0x13 => some ⟨0, 8, 3⟩
  | _ => none

def nmDefault (p : Nat) : Nat :=
  match nmRange p with
  | some r => r.dflt
  | none => 0

/-- The value in force of a parameter. -/
def nmParam (n : NightMail) (p : Nat) : Nat := tget nmDefault n.params p

def tTHROTTLE (n : NightMail) : Int := nmParam n 0x01
def tHYST (n : NightMail) : Int := nmParam n 0x02
def tDEB (n : NightMail) : Nat := nmParam n 0x0B
def tRELEASE (n : NightMail) : Nat := nmParam n 0x0D

/-- Night Mail runs its image. -/
def inFirmware (n : NightMail) : Bool := n.mode == .firmware

/-- What R525 fixes while no image runs. -/
def tHDEB (n : NightMail) : Nat := if inFirmware n then nmParam n 0x0C else 2
def tSHUTDOWN (n : NightMail) : Int := if inFirmware n then nmParam n 0x03 else 1760
def flowHARD (n : NightMail) : Int := if inFirmware n then nmParam n 0x06 else 1000

/-- The parameter that holds the shift of an input's filter (R526). -/
def shiftParam (i : Nat) : Nat := if i < 48 then 0x10 else if i < 50 then 0x11 else if i < 52 then 0x12 else 0x13

def nmShift (n : NightMail) (i : Nat) : Nat := nmParam n (shiftParam i)

/-- The inputs that have a filter (R518). -/
def filteredInputs : List Nat := upFrom 0 52 ++ [54]

/-! ### Samples and filters (R517 to R519) -/

def intDefault (_ : Nat) : Int := 0
def countDefault (_ : Nat) : Nat := 0

def rawOf (n : NightMail) (i : Nat) : Int := tget intDefault n.raw i
def filtOf (n : NightMail) (i : Nat) : Int := tget intDefault n.filt i

/-- The filter is warm (R519). -/
def isWarm (n : NightMail) (i : Nat) : Bool := decide (2 ^ nmShift n i ≤ tget countDefault n.taken i)

/-- A raw sample as a number: temperatures are signed (R517). -/
def sampleInt (i : Nat) (x : BitVec 16) : Int := if i < 50 then x.toInt else x.toNat

/-- One input is sampled and filtered (R518). -/
def takeSample (raw : List (BitVec 16)) (n : NightMail) (i : Nat) : NightMail :=
  let x := match raw[i]? with
    | some v => sampleInt i v
    | none => rawOf n i
  let k := tget countDefault n.taken i
  let y := if k = 0 then x else filtOf n i + (x - filtOf n i) >>> nmShift n i
  { n with raw := tset intDefault n.raw i x, filt := tset intDefault n.filt i y, taken := tset countDefault n.taken i (k + 1) }

/-- The affected filters start afresh (R526). -/
def reseed (n : NightMail) (p : Nat) : NightMail :=
  { n with taken := (filteredInputs.filter (fun i => shiftParam i == p)).foldl (fun t i => tset countDefault t i 0) n.taken }

/-- An accepted record takes effect. -/
def applyParam (n : NightMail) (r : Nat × Nat) : NightMail :=
  if nmParam n r.1 = r.2 then n
  else
    let n := { n with params := tset nmDefault n.params r.1 r.2 }
    if 0x10 ≤ r.1 then reseed n r.1 else n

/-- Every filter starts afresh, and with it the counts of the filtered decisions; those of the hard limits and of SHUTDOWN go
on (R518, R520, R577). -/
def freshFilters (n : NightMail) : NightMail :=
  { n with taken := [], held := n.held.filter (fun p => 64 ≤ p.1), clear := n.clear.filter (fun p => 64 ≤ p.1) }

/-! ### Operating points (R527 to R529) -/

/-- A ceiling has a part in the change of point that waits: it moved the effective point when that last changed, or before, and the
change still goes the same way (R529; DESIGN CHOICE, log 150). -/
def byCeil (k : Cluster) : Bool :=
  k.eff != k.run && (k.ceilNow || (k.ceilOld && k.effOld != k.run && decide (k.effOld < k.run) == decide (k.eff < k.run)))

/-- A cluster's request and ceiling take values; the effective point is the slower of the two. A raising that becomes
effective waits from now, and any change of the effective point ends an earlier wait (R527, R528). -/
def setPoints (s : State) (c : Fin 8) (req ceil : BitVec 2) : State :=
  modCl s c (fun k =>
    let e := if req < ceil then ceil else req
    let ceilMoved := k.ceil != ceil
    let k := { k with req := req, ceil := ceil }
    if e = k.eff then k
    else { k with
      eff := e
      effOld := if k.effAt = some s.meshCycle then k.effOld else k.eff
      raiseOld := if k.effAt = some s.meshCycle then k.raiseOld else k.raise
      effAt := some s.meshCycle
      raise := if e < k.run then some s.meshCycle else none
      ceilOld := if k.effAt = some s.meshCycle then k.ceilOld else byCeil k
      ceilNow := ceilMoved || (k.ceilNow && k.effAt == some s.meshCycle) })

def setReq (s : State) (c : Fin 8) (req : BitVec 2) : State := setPoints s c req (getCl s c).ceil

/-- Every parcel with a stage on the cluster carries TEVENT (R529). -/
def markTevent (s : State) (c : Fin 8) : State :=
  let us := (s.so.active.filter (fun a => clusterOfCore s a.1 == c)).map (·.2)
  mapParcels s (fun p => if us.contains p.uid then { p with tevent := true } else p)

/-- The timing event of a change of point that a ceiling has caused (R529, R543). -/
def pointEvent (s : State) (c : Fin 8) : State :=
  let s := logTiming s 2 c.val
  markTevent { s with mod := { s.mod with tevents := BitVec.ofNat 8 (addCap 0xFF s.mod.tevents.toNat 1) } } c

/-- The effective point, and the raising that waits, at the end of the previous mesh cycle (R527). -/
def effBefore (s : State) (k : Cluster) : BitVec 2 := if k.effAt = some s.meshCycle then k.effOld else k.eff
def raiseBefore (s : State) (k : Cluster) : Option Nat := if k.effAt = some s.meshCycle then k.raiseOld else k.raise

/-- A ceiling had a part in the change that waited at the end of the previous mesh cycle (R529). -/
def ceilBefore (s : State) (k : Cluster) : Bool := if k.effAt = some s.meshCycle then k.ceilOld else byCeil k

/-- The present mesh cycle is a step boundary, and at it the cluster moves to the point of the cycle before: a lowering at once, a
raising once it has waited 54,000 mesh cycles (R527, R528). -/
def stepsNow (s : State) (k : Cluster) : Bool :=
  s.meshCycle % 36 == 0 &&
    (decide (k.run < effBefore s k) || (decide (effBefore s k < k.run) && match raiseBefore s k with
      | some b => decide (b + 54000 ≤ s.meshCycle)
      | none => false))

/-- OPPOINT_STEP (R527 to R529): the step boundary, in the present mesh cycle, at which the cluster's point changes; what changes
in the same cycle counts from here. -/
def execOppointStep (cluster : Fin 8) (s : State) : Host.Outcome State Fault Refusal :=
  let k := getCl s cluster
  let e := effBefore s k
  if !stepsNow s k then .next s
  else
    let s := modCl s cluster (fun k =>
      { k with
        run := e
        raise := if k.eff < e then k.effAt else none
        ceilOld := false
        stopUntil := s.meshCycle + 36 })
    let s := devCount s (clBase cluster + 0x48) 16 16 1
    .next (if ceilBefore s k then pointEvent s cluster else s)

/-! ### Ceilings (R521, R522, R545) -/

/-- A decision of R521 on the present samples: its number, its input, whether it is a hard limit, what it does (0 a step,
1 a cap at P1, 3 a cap at P3), whether its condition holds, and whether its input has cleared the threshold. -/
structure NmCond where
  key : Nat
  input : Nat
  hard : Bool
  act : Nat
  holds : Bool
  clear : Bool
  code : BitVec 16

/-- The clusters of an input: a diode's own, or all (R521). -/
def inputMask (i : Nat) : BitVec 8 := if i < 40 then oneAt 8 (i / 5) else 0xFF

/-- The filtered decisions that act on ceilings. -/
def filteredConds (n : NightMail) : List NmCond :=
  let h := tHYST n
  (upFrom 0 48).map (fun i =>
    ⟨i, i, false, 0, decide (tTHROTTLE n ≤ filtOf n i), decide (filtOf n i < tTHROTTLE n - h), 0x01⟩) ++
  [⟨48, 48, false, 1, decide ((nmParam n 0x04 : Int) < filtOf n 48), decide (filtOf n 48 < nmParam n 0x04 - h), 0x04⟩,
   ⟨50, 50, false, 1, decide (filtOf n 50 < nmParam n 0x05), decide (nmParam n 0x05 + h < filtOf n 50), 0x04⟩,
   ⟨54, 54, false, 0, decide ((nmParam n 0x08 : Int) < filtOf n 54), decide (filtOf n 54 < nmParam n 0x08 - h), 0x03⟩]

/-- The hard limits that act on ceilings. -/
def hardConds (n : NightMail) : List NmCond :=
  (upFrom 0 48).map (fun i =>
    ⟨64 + i, i, true, 3, decide (1680 ≤ rawOf n i), decide (rawOf n i < 1680 - tHYST n), 0x06⟩) ++
  [⟨64 + 54, 54, true, 3, decide (2600 < rawOf n 54), decide (rawOf n 54 < 2500), 0x06⟩]

def levelOf (n : NightMail) (key c : Nat) : Nat := tget countDefault n.level (8 * key + c)

/-- The ceiling of a cluster: the slowest that any decision keeps it at. -/
def ceilOf (n : NightMail) (c : Nat) : Nat :=
  n.level.foldl (fun m p => if p.1 % 8 = c then max m p.2 else m) 0

/-- The ceilings of all clusters, two bits each (R544 CEILS). -/
def ceilBits (n : NightMail) : BitVec 16 :=
  (upFrom 0 8).foldl (fun w c => w ||| (BitVec.ofNat 16 (ceilOf n c) <<< (2 * c))) 0

/-- A NIGHT_MAIL event (R545). -/
def nmEvent (s : State) (code : BitVec 16) (mask input : BitVec 8) (value : BitVec 16) : State :=
  pushEvent s 0x0030 code (0#16 ++ (value ++ (input ++ (ceilBits s.nm ++ mask : BitVec 24) : BitVec 32) : BitVec 48))

/-- A NIGHT_MAIL event of a decision that has no input: that input and its value are open (R545). -/
def nmEventOpen (s : State) (code : BitVec 16) : State :=
  let (k, s) := freshNat s
  let w := Config.eventWords k
  nmEvent s code 0 (bits w 0 8) (bits w 8 16)

/-- The value that a decision compares. -/
def condValue (n : NightMail) (x : NmCond) : BitVec 16 :=
  BitVec.ofInt 16 (if x.hard then rawOf n x.input else filtOf n x.input)

/-- The level at which an acting decision keeps cluster `c`; a step goes one point below the ceiling at the start of the
tick. -/
def actLevel (x : NmCond) (start old : Nat) : Nat := if x.act = 0 then max old (min 3 (start + 1)) else max old x.act

/-- The decision acts: levels rise, which is reported if it changes any. -/
def condActs (s : State) (start : List Nat) (x : NmCond) : State :=
  let n := s.nm
  let cs := (upFrom 0 8).filter (fun c => bitOf (inputMask x.input) c)
  let moved := cs.filter (fun c => levelOf n x.key c < actLevel x (start.getD c 0) (levelOf n x.key c))
  let lv := moved.foldl (fun t c =>
    tset countDefault t (8 * x.key + c) (actLevel x (start.getD c 0) (levelOf n x.key c))) n.level
  let s := modNm s (fun n => { n with level := lv })
  if moved = [] then s
  else nmEvent s x.code (moved.foldl (fun m c => m ||| oneAt 8 c) 0) (BitVec.ofNat 8 x.input) (condValue n x)

/-- The decision has been clear long enough: the levels it keeps fall by one (R522). -/
def condReleases (s : State) (x : NmCond) : State :=
  let n := s.nm
  let cs := (upFrom 0 8).filter (fun c => levelOf n x.key c != 0)
  let lv := cs.foldl (fun t c => tset countDefault t (8 * x.key + c) (levelOf n x.key c - 1)) n.level
  let s := modNm s (fun n => { n with level := lv })
  let up := (upFrom 0 8).filter (fun c => ceilOf s.nm c < ceilOf n c)
  if up = [] then s
  else nmEvent s 0x02 (up.foldl (fun m c => m ||| oneAt 8 c) 0) (BitVec.ofNat 8 x.input) (condValue n x)

/-- The decision keeps a ceiling down. -/
def keepsDown (n : NightMail) (x : NmCond) : Bool := (upFrom 0 8).any (fun c => levelOf n x.key c != 0)

/-- A tick of one decision (R520, R522, R525). -/
def runCond (start : List Nat) (s : State) (x : NmCond) : State :=
  let n := s.nm
  let able := x.hard || isWarm n x.input
  let held := if x.holds then tget countDefault n.held x.key + 1 else 0
  let acts := able && x.holds && decide ((if x.hard then tHDEB n else tDEB n) ≤ held)
  let held := if acts && !x.hard then 0 else held
  let clear := if able && inFirmware n && x.clear && keepsDown n x then tget countDefault n.clear x.key + 1 else 0
  let frees := decide (tRELEASE n ≤ clear)
  let s := modNm s (fun n =>
    { n with held := tset countDefault n.held x.key held,
             clear := tset countDefault n.clear x.key (if frees then 0 else clear) })
  let s := if acts then condActs s start x else s
  if frees && keepsDown s.nm x then condReleases s x else s

/-- The clusters take their ceilings. -/
def spreadCeilings (s : State) : State :=
  allClusters.foldl (fun s c => setPoints s c (getCl s c).req (BitVec.ofNat 2 (ceilOf s.nm c.val))) s

/-! ### The pump (R524) -/

/-- A ceiling is below P0 for a thermal or flow condition. -/
def thermalDown (n : NightMail) : Bool := n.level.any (fun p => p.1 / 8 != 54 && p.1 / 8 != 64 + 54)

/-- The pump request. -/
def pumpRequest (n : NightMail) : BitVec 2 :=
  if n.leakOff then 0
  else if thermalDown n then 3
  else if 160 < filtOf n 49 - filtOf n 48 ∨ filtOf n 51 < nmParam n 0x07 then 2
  else 1

def setPump (s : State) : State :=
  let p := pumpRequest s.nm
  if s.nm.pump = p then s else inBand (nmEventOpen (modNm s (fun n => { n with pump := p })) 0x05)

/-! ### SHUTDOWN (R523, R599) -/

/-- The state in which everything outside the Franking die, the flash and the pins is as after power-up. -/
def darkState (s : State) : State :=
  { State.reset with pending := s.pending, fresh := s.fresh, outbox := s.outbox, flash := s.flash, fr := s.fr, mod := s.mod }

/-- SHUTDOWN: everything but the always-on island is powered off; the cause is kept for the next bring-up, which only a new reset
begins (R523). -/
def shutDown (s : State) (cause : Option (Nat × Int)) (leak : Bool) : State :=
  if s.mod.mode = .shutdown then s
  else
    let pump : BitVec 2 := if leak then 0 else s.nm.pump
    let nm := { s.nm with cause := some cause, leakOff := leak, pump := pump, loading := none, pend := [] }
    inBand { darkState s with
      nm := nm
      mod := { s.mod with mode := .shutdown, waitInput := false, phase := 0, service := 0, started := false, hbmBad := false,
                          tevents := 0, hubSeq := 0 } }

/-- The conditions of SHUTDOWN on the present samples, with the input and value that they report; the two leak traces are
one condition (R521). -/
def fatalConds (n : NightMail) : List (Nat × Bool × Nat × Int × Bool) :=
  (upFrom 0 48).map (fun i => (128 + i, decide (tSHUTDOWN n ≤ rawOf n i), i, rawOf n i, false)) ++
  [(128 + 50, decide (rawOf n 50 < flowHARD n), 50, rawOf n 50, false),
   (128 + 52, n.leak0 || n.leak1, if n.leak0 then 52 else 53, 1, true)]

/-- Their counts; each restarts when its condition fails (R520). -/
def countFatal (n : NightMail) : NightMail :=
  { n with held := (fatalConds n).foldl (fun t x =>
      tset countDefault t x.1 (if x.2.1 then tget countDefault t x.1 + 1 else 0)) n.held }

/-- The conditions of SHUTDOWN that have held long enough. -/
def fatalDue (n : NightMail) : List (Nat × Bool × Nat × Int × Bool) :=
  (fatalConds n).filter (fun x => x.2.1 && decide (tHDEB n ≤ tget countDefault n.held x.1))

/-- The input and value of the first of them, which is the cause that is kept (DESIGN CHOICE, log 119), and whether a leak is
among them, which turns the pump off whatever the others are (R521). -/
def fatalCause (n : NightMail) : Option (Nat × Int × Bool) :=
  (fatalDue n).head?.map (fun x => (x.2.2.1, x.2.2.2.1, (fatalDue n).any (fun y => y.2.2.2.2)))

/-! ### NAP and OFF (R530 to R534) -/

def napOk (s : State) (c : Fin 8) : Bool := bitOf (devGet s (clBase c + 0x40)) 1
def offOk (s : State) (c : Fin 8) : Bool := bitOf (devGet s (clBase c + 0x40)) 0

/-- The tick of a cluster's sleep: its quiet ticks, and the orders that Night Mail gives (R533). -/
def sleepTick (s : State) (c : Fin 8) : State :=
  let k := getCl s c
  let quiet := if k.power = .idle ∧ !k.waking then k.quietTicks + 1 else 0
  let drained := if k.service = .drained ∧ k.power ≠ .off then k.drainTicks + 1 else 0
  let wait := nmParam s.nm 0x0A
  let nap := inFirmware s.nm && napOk s c && decide (nmParam s.nm 0x09 ≤ quiet)
  let off := inFirmware s.nm && offOk s c && decide (wait ≠ 0 ∧ wait ≤ drained)
  modCl s c (fun k =>
    { k with
      quietTicks := quiet
      drainTicks := drained
      napOrder := k.napOrder || nap
      offOrder := k.offOrder || off
      wakeSeen := if (nap && !k.napOrder) || (off && !k.offOrder) then false else k.wakeSeen })

/-- Idle stacks and packages are placed in self-refresh; which of them are idle is open (R380). -/
def selfRefresh (s : State) : State :=
  let (k, s) := freshNat s
  let m := Config.selfRefresh k
  (upFrom 0 32).foldl (fun s i =>
    let o := if i < 16 then 0x40100 + 4 * i else 0x50100 + 4 * (i - 16)
    if bitOf m i && !(i < 16 && bitOf (devGet s o) 30) then devSet s o (devGet s o ||| 0x80000000) else s) s

/-! ### The tick (R517) -/

/-- The leak traces as they stand (R596, R602, R603). -/
def setLeaks (s : State) (leak0 leak1 : Bool) : State :=
  let moved := s.mod.leak0 != leak0 || s.mod.leak1 != leak1
  let s := { s with mod := { s.mod with leak0 := leak0, leak1 := leak1 } }
  if moved then inBand s else s

/-- The samples of a tick, after the parameters that wait. -/
def sampleTick (n : NightMail) (raw : List (BitVec 16)) (leak0 leak1 : Bool) : NightMail :=
  let n := { n.pend.foldl applyParam n with pend := [], leak0 := leak0, leak1 := leak1 }
  countFatal (filteredInputs.foldl (takeSample raw) n)

/-- Bring-up starts (R592). -/
def startBringup (s : State) : State := { s with mod := { s.mod with started := true, waitInput := false, held := false } }

/-- The module may leave SHUTDOWN: the raw diodes are cool, and neither trace is asserted now (R523, R603). -/
def mayRestart (s : State) : Bool :=
  (upFrom 0 48).all (fun i => decide (rawOf s.nm i < tSHUTDOWN s.nm - 320)) && !s.mod.leak0 && !s.mod.leak1

/-- The module leaves SHUTDOWN, keeping the cause to report. -/
def leaveShutdown (s : State) : State :=
  startBringup (inBand { s with
    nm := { NightMail.reset with cause := s.nm.cause }
    mod := { s.mod with mode := .active } })

/-- A reset that SHUTDOWN holds goes on once it may (R523). -/
def releaseHeld (s : State) : State :=
  if s.mod.mode = .shutdown ∧ s.mod.held ∧ mayRestart s then leaveShutdown s else s

/-- Everything Night Mail decides in a tick outside SHUTDOWN. -/
def decideTick (s : State) : State :=
  let start := (upFrom 0 8).map (ceilOf s.nm)
  let conds := (if inFirmware s.nm then filteredConds s.nm else []) ++ hardConds s.nm
  let s := spreadCeilings (conds.foldl (runCond start) s)
  let s := if inFirmware s.nm then selfRefresh (setPump s) else s
  allClusters.foldl sleepTick s

/-- NIGHT_MAIL_TICK (R517 to R525). -/
def execNightMailTick (raw : List (BitVec 16)) (leak0 leak1 : Bool) (s : State) : Host.Outcome State Fault Refusal :=
  if !s.mod.mrst && s.mod.mode != .shutdown then .next s
  else
    let s := modNm (setLeaks s leak0 leak1) (fun n => sampleTick n raw leak0 leak1)
    if s.mod.mode = .shutdown then .next (releaseHeld s)
    else match fatalCause s.nm with
      | some (i, v, leak) => .next (shutDown s (some (i, v)) leak)
      | none => .next (decideTick s)

/-! ### Cluster states (R530 to R534) -/

/-- Thread `t` of the core keeps its cluster from IDLE (R531). -/
def threadBusy (c : Core) (t : Fin 4) : Bool :=
  let st := c.th[t].st
  st == .running || st == .escalation || (st == .waiting && bitOf (csrGet c (0x1050 + 4 * t.val)) 4)

/-- The core keeps its cluster from IDLE (R531). -/
def coreBusy (c : Core) : Bool :=
  ([0, 1, 2, 3] : List (Fin 4)).any (threadBusy c) || !c.vq.isEmpty || !c.tq.isEmpty ||
    c.su.toList.any (fun u => u.st == .run || u.st == .layer)

/-- CLUSTER_IDLE_ENTRY (R531). -/
def execClusterIdleEntry (cluster : Fin 8) (s : State) : Host.Outcome State Fault Refusal :=
  let k := getCl s cluster
  if k.power ≠ .run ∨ k.waking ∨ (clusterSites s cluster).any (fun x => coreBusy (getCore s x)) then .next s
  else .next (modCl s cluster (fun k => { k with power := .idle, quietTicks := 0 }))

/-- NAP_ORDER (R533). -/
def execNapOrder (cluster : Fin 8) (s : State) : Host.Outcome State Fault Refusal :=
  let k := getCl s cluster
  if !k.napOrder then .next s
  else
    let ok := !k.wakeSeen && k.power == .idle && napOk s cluster
    .next (modCl s cluster (fun k => { k with napOrder := false, power := if ok then .nap else k.power }))

/-- OFF_ORDER (R530, R533, R534): the cores are held in reset, and local memories are lost. -/
def execOffOrder (cluster : Fin 8) (s : State) : Host.Outcome State Fault Refusal :=
  let k := getCl s cluster
  if !k.offOrder then .next s
  else
    let ok := !k.wakeSeen && k.service == .drained && offOk s cluster && k.power != .off
    let s := modCl s cluster (fun k =>
      { k with offOrder := false, power := if ok then .off else k.power, waking := k.waking && !ok })
    .next (if ok then
      (clusterSites s cluster).foldl (fun s x => modCore s x (fun c => { c with mem := Mem.empty })) (holdCluster s cluster)
      else s)

/-- CL_WAKE (R532, R542). -/
def execClWake (cluster : Fin 8) (s : State) : Host.Outcome State Fault Refusal :=
  if dark s then .next s else .next (wakeCause s cluster)

/-- A unit that waited for RUN is applied (R532). -/
def applyHeld (c : Fin 8) (s : State) (u : HeldUnit) : State :=
  match u with
  | .msg m => applyMsg s m
  | .barrier net => (clusterSites s c).foldl (fun s x => releaseBarrier s x net) s
  | .reduction r =>
    match tget roundDefault s.rounds r.toNat with
    | some round => releaseRound s r.toNat round
    | none => s

/-- CLUSTER_WAKE_DONE (R530, R532, R542): the cluster runs, and the units that waited for it are applied in order. -/
def execClusterWakeDone (cluster : Fin 8) (s : State) : Host.Outcome State Fault Refusal :=
  let k := getCl s cluster
  if !k.waking then .next s
  else
    let s := if k.power = .nap then devCount s (clBase cluster + 0x48) 0 16 1 else s
    let s := modCl s cluster (fun k => { k with power := .run, waking := false, heldUnits := [], quietTicks := 0 })
    .next (k.heldUnits.foldl (applyHeld cluster) s)

/-! ### Views (R542 to R544) -/

def psNat : PState → BitVec 2
  | .run => 0
  | .idle => 1
  | .nap => 2
  | .off => 3

/-- CL_PWR (R542). -/
def clPwr (s : State) (c : Fin 8) : Word :=
  let k := getCl s c
  (psNat k.power ++ (k.run ++ (k.req ++ (k.ceil ++ (ofBool 1 k.raise.isSome ++ 0#23 : BitVec 24) : BitVec 26) : BitVec 28) :
    BitVec 30)) ||| (devGet s (clBase c + 0x40) &&& 3)

/-- The phase of bring-up that runs, or ran last (R539, R543). -/
def phaseOf (s : State) : Nat := min 5 (s.mod.phase + 1)

/-- PWR_STAT (R543). -/
def pwrStat (s : State) : Word :=
  BitVec.ofNat 32 (phaseOf s * 2 ^ 16 + s.mod.service * 2 ^ 14 + s.mod.tevents.toNat)

/-- A sensor word of the mirror (R544). -/
def sensorWord (n : NightMail) (i : Nat) : Word := BitVec.ofInt 16 (filtOf n i) ++ BitVec.ofInt 16 (rawOf n i)

def modeNat : NmMode → BitVec 2
  | .rom => 0
  | .firmware => 1
  | .reloading => 2

/-- The word at an offset of the Night Mail mirror (R544). -/
def nmWord (s : State) (o : Nat) : Word :=
  let n := s.nm
  if o = 0x000 then
    (modeNat n.mode ++ (n.pump ++ (ofBool 1 (filteredInputs.all (isWarm n)) ++ (ofBool 1 n.leak1 ++
      (ofBool 1 n.leak0 ++ 0#25 : BitVec 26) : BitVec 27) : BitVec 28) : BitVec 30))
  else if o = 0x004 then (match n.mode, n.image with
    | .rom, _ => 0
    | _, some i => i.version
    | _, none => 0)
  else if o = 0x010 then sensorWord n 48
  else if o = 0x014 then sensorWord n 49
  else if o = 0x018 then sensorWord n 50
  else if o = 0x01C then sensorWord n 51
  else if o = 0x020 then sensorWord n 54
  else if o = 0x024 then zext (ceilBits n)
  else if 0x100 ≤ o ∧ o < 0x1C0 ∧ o % 4 = 0 then sensorWord n ((o - 0x100) / 4)
  else 0

end Sys2Proof.Machine
end

