-- ==== Sys2Proof/Machine/Numbering.lean ====
section
/-! DEFINITION. Sites and logical cores: the fuse map, the hole map, numbering, COMPAT512, and the replacement of failed
sites at a return to service (R16 to R27, R253 to R256, R568, R569, R607). -/
namespace Sys2Proof.Machine

/-! ### Sites (R17, R247, R253) -/

def siteDefault (_ : Nat) : SiteState := .enabled

def siteSt (m : Tab SiteState) (x : Nat) : SiteState := tget siteDefault m x

/-- The state that the fuse map gives a site. -/
def fuseSite (x : Nat) : SiteState :=
  match (Config.siteFuse x).toNat with
  | 0 => .enabled
  | 1 => .spare
  | 2 => .disabled
  | _ => .hole

/-- The fuse map. -/
def fuseMap : Tab SiteState := (upFrom 0 576).foldl (fun m x => tset siteDefault m x (fuseSite x)) []

/-- The sites of a cluster, ascending. -/
def sitesOf (c : Fin 8) : List Nat := upFrom (72 * c.val) 72

/-- Mesh row and combined column of a site (R247). -/
def sitePos (x : Nat) : Nat × Nat :=
  let d := x / 288
  let q := x % 288 / 72
  (8 * (q / 2) + x % 72 / 9, 18 * d + 9 * (q % 2) + x % 9)

/-- Mesh row and combined column of a cluster's gateway. -/
def gatePos (c : Nat) : Nat × Nat := (8 * (c % 4 / 2) + 3, 18 * (c / 4) + 9 * (c % 2) + 4)

def betweenIncl (a b x : Nat) : Bool := decide (min a b ≤ x ∧ x ≤ max a b)

/-- A hole lies on the route between two nodes that leaves `a` along its column (`colFirst`) or along its row (R254);
the two ends use their own routers. -/
def blocked (holes : List (Nat × Nat)) (colFirst : Bool) (a b : Nat × Nat) : Bool :=
  holes.any (fun h =>
    h != a && h != b &&
      (if colFirst then
        (h.2 == a.2 && betweenIncl a.1 b.1 h.1) || (h.1 == b.1 && betweenIncl a.2 b.2 h.2)
      else (h.1 == a.1 && betweenIncl a.2 b.2 h.2) || (h.2 == b.2 && betweenIncl a.1 b.1 h.1)))

/-- The condition of R255 on a map. -/
def holesOk (m : Tab SiteState) : Bool :=
  let holes := ((upFrom 0 576).filter (fun x => siteSt m x == .hole)).map sitePos
  let nodes := ((upFrom 0 576).filter (fun x => siteSt m x != .hole)).map sitePos ++ (upFrom 0 8).map gatePos
  holes.isEmpty || nodes.all (fun a => nodes.all (fun b => !(blocked holes true a b && blocked holes false a b)))

/-- Sites of a cluster in a state. -/
def sitesIn (m : Tab SiteState) (c : Fin 8) (st : SiteState) : List Nat := (sitesOf c).filter (fun x => siteSt m x == st)

/-- The good sites of a cluster (R19, R21). -/
def goodCount (m : Tab SiteState) (c : Fin 8) : Nat := (sitesIn m c .enabled).length + (sitesIn m c .spare).length

/-- The sites that are enabled in a cluster with at least `e` good ones: the lowest `e` that the fuses enable, and where they
enable fewer the lowest spares with them (R19; DEDUCED, log 111: the fuses name the enabled sites). -/
def enabledSites (m : Tab SiteState) (c : Fin 8) (e : Nat) : List Nat :=
  (sitesIn m c .enabled ++ sitesIn m c .spare).take e

/-- A cluster of the map with exactly `e` enabled sites, its other good sites spares (R19); one with fewer good sites is left as
it is (R607). -/
def fixCluster (e : Nat) (m : Tab SiteState) (c : Fin 8) : Tab SiteState :=
  if goodCount m c < e then m
  else
    let on := enabledSites m c e
    let good := sitesIn m c .enabled ++ sitesIn m c .spare
    good.foldl (fun t x => tset siteDefault t x (if on.contains x then .enabled else .spare)) m

/-- The map of sites in force after the fuses are loaded (R19, R20, R607). -/
def loadedMap (e : Nat) : Tab SiteState := allClusters.foldl (fixCluster e) fuseMap

/-! ### Numbering (R18, R26, R607) -/

/-- Logical cores from `n` on take the sites of a list. -/
def numberFrom (m : Tab (Option Nat)) (n : Nat) : List Nat → Tab (Option Nat)
  | [] => m
  | x :: rest => numberFrom (tset noSite m n (some x)) (n + 1) rest

/-- The numbering formed from the fuse map: in each cluster by ascending site; a cluster with too few sites has none. -/
def formNumbering (m : Tab SiteState) (e : Nat) : Tab (Option Nat) :=
  allClusters.foldl (fun t c =>
    if (sitesIn m c .enabled).length < e then t else numberFrom t (c.val * e) ((sitesIn m c .enabled).take e)) []

/-- A site is powered up or off: its core and local memory start afresh. -/
def powerSite (s : State) (x : Nat) : State := setCore s x (coreDefault x)

/-- The cluster leaves the numbering and stays out of service (R21). SITE then reads 0 for its cores (DESIGN CHOICE, log
107). -/
def dropCluster (s : State) (c : Fin 8) : State :=
  let s := { s with coreSite := s.coreSite.filter (fun p => p.1 / (max 1 s.perCluster) != c.val) }
  modCl s c (fun k => { k with service := .unavailable })

/-- The sites at positions `lo` to `lo` + `n` − 1 of a cluster under `e` cores per cluster. -/
def positions (s : State) (c : Fin 8) (e lo n : Nat) : List Nat :=
  (upFrom (c.val * e + lo) n).filterMap (siteOf s)

/-- COMPAT512 is set: positions 64 to 67 become spares (R26). -/
def setCompat (s : State) : State :=
  let t := allClusters.foldl (fun t c => numberFrom t (c.val * 64) (positions s c 68 0 64)) []
  let off := allClusters.flatMap (fun c => positions s c 68 64 4)
  let s := off.foldl powerSite { s with coreSite := t, perCluster := 64, compat512 := true }
  { s with siteState := off.foldl (fun m x => tset siteDefault m x .spare) s.siteState }

/-- COMPAT512 is cleared: the four lowest spares of each cluster take positions 64 to 67 (R26). -/
def clearCompat (s : State) : State :=
  let new (c : Fin 8) : List Nat := (sitesIn s.siteState c .spare).take 4
  let t := allClusters.foldl (fun t c => numberFrom t (c.val * 68) (positions s c 64 0 64 ++ new c)) []
  let short := allClusters.filter (fun c => (new c).length < 4)
  let on := (allClusters.filter (fun c => 4 ≤ (new c).length)).flatMap new
  let s := on.foldl powerSite { s with coreSite := t, perCluster := 68, compat512 := false }
  let s := { s with siteState := on.foldl (fun m x => tset siteDefault m x .enabled) s.siteState }
  short.foldl dropCluster s

/-! ### Return to service (R20, R568, R569) -/

/-- The map with the marks of a cluster's sites in force. -/
def markedMap (s : State) (c : Fin 8) : Tab SiteState :=
  (s.so.marks.filter (fun k => clusterOf k.1 == c)).foldl (fun m k =>
    tset siteDefault m k.1 (if k.2 then .hole else .disabled)) s.siteState

/-- The failed sites of the cluster are replaced in the order of their positions, each by the lowest spare still free. -/
def replaceSites : List Nat → State → Tab SiteState → Fin 8 → State × Tab SiteState
  | [], s, m, _ => (s, m)
  | n :: rest, s, m, c =>
    match siteOf s n with
    | none => replaceSites rest s m c
    | some x =>
      if siteSt m x = .enabled then replaceSites rest s m c
      else match (sitesIn m c .spare).head? with
        | none => replaceSites rest s m c
        | some y =>
          let s := powerSite (powerSite { s with coreSite := tset noSite s.coreSite n (some y) } y) x
          replaceSites rest s (tset siteDefault m y .enabled) c

/-- The route between the nodes of two logical cores: their sites, and whether it runs along the column first (R254). -/
def coreRoute (s : State) (f : Nat × Nat) : Option Nat × Option Nat × Bool :=
  let holes := ((upFrom 0 576).filter (fun x => siteSt s.siteState x == .hole)).map sitePos
  match siteOf s f.1, siteOf s f.2 with
  | some a, some b => (some a, some b, !blocked holes true (sitePos a) (sitePos b))
  | a, b => (a, b, true)

/-- The flows with units in transit whose route differs from the one in `old` hold their new units until those are delivered
(R257). -/
def noteRoutes (old s : State) : State :=
  let fs := ((s.msgs.filterMap msgFlow).eraseDups).filter (fun f => coreRoute old f != coreRoute s f)
  { s with rerouted := s.rerouted.filter (fun r => !fs.contains (r.1, r.2.1)) ++ fs.map (fun f => (f.1, f.2, inFlow s.msgs f)) }

/-- A drained cluster returns to service, or becomes unavailable (R569). The flag says which. -/
def returnCluster (s : State) (c : Fin 8) : State × Bool :=
  let s := modCl s c (fun k => if k.power = .off then { k with power := .run, waking := false } else k)
  let m := markedMap s c
  let old := s.so.marks
  let s := modSo s (fun o => { o with marks := old.filter (fun k => clusterOf k.1 != c) })
  if !holesOk m then (dropCluster s c, false)
  else if goodCount m c < s.perCluster then (dropCluster { s with siteState := m } c, false)
  else
    let (t, m) := replaceSites (upFrom (c.val * s.perCluster) s.perCluster) s m c
    (noteRoutes s (modCl { t with siteState := m } c (fun k => { k with service := .inService, quietTicks := 0 })), true)

/-! ### Views (R22, R24, R606) -/

/-- CORE_SITE of logical core `n` (R24). -/
def coreSiteWord (s : State) (n : Nat) : Word :=
  match siteOf s n with
  | some x => 0x80000000 ||| BitVec.ofNat 32 x
  | none => 0

/-- MOD_STAT (R606). -/
def modStat (s : State) : Word :=
  0x31000000 ||| (ofBool 32 s.mod.refExt <<< 23) ||| (ofBool 32 Config.grade512 <<< 22) ||| s.mod.slot.setWidth 32

/-- A word of the Identity block. -/
def identWord (s : State) (o : Nat) : Word :=
  if o = 0x10 then identCores s
  else if o = 0x20 then modStat s
  else if 0x1000 ≤ o ∧ o < 0x1000 + 4 * 544 ∧ o % 4 = 0 then coreSiteWord s ((o - 0x1000) / 4)
  else 0

end Sys2Proof.Machine
end

