-- ==== Sys2Proof/Machine/DevCsr.lean ====
section
/-! DEFINITION. Device CSR space 0x6: what a read of a word returns and what a write of it does, for every block, and the
fabric's CSR access (R4 to R8, R25, R279, R314, R394, R395, R421, R449, R450, R483, R491, R542 to R544, R561, R579). -/
namespace Sys2Proof.Machine

/-! ### Views -/

def svcNat : Service → BitVec 2
  | .inService => 0
  | .draining => 1
  | .drained => 2
  | .unavailable => 3

/-- CL_STAT (R491). -/
def clStat (s : State) (c : Fin 8) : Word :=
  svcNat (getCl s c).service ++ (ofBool 1 (getCl s c).csrErr ++ 0#29 : BitVec 30)

/-- Bits of word `i` over the cores at positions 32 `i` + `j` of a cluster, by the slot of each. -/
def coreBits (s : State) (c : Fin 8) (i : Nat) (p : Nat → Bool) : Word :=
  (upFrom 0 32).foldl (fun m j =>
    if 32 * i + j < s.perCluster then
      match siteOf s (c.val * s.perCluster + 32 * i + j) with
      | some x => if p x then m ||| oneAt 32 j else m
      | none => m
    else m) 0

/-- A word of a cluster's registers but CL_CSRD (R491, R542). -/
def clusterWord (s : State) (c : Fin 8) (r : Nat) : Word :=
  if r = 0x04 then clStat s c
  else if r = 0x08 then devGet s (clBase c + 8)
  else if 0x10 ≤ r ∧ r < 0x1C then coreBits s c ((r - 0x10) / 4) (noteDue s)
  else if 0x1C ≤ r ∧ r < 0x28 then coreBits s c ((r - 0x1C) / 4) (fun x => (getCore s x).halted)
  else if r = 0x40 then clPwr s c
  else if r = 0x48 then devGet s (clBase c + 0x48)
  else 0

def chStNat : CState → BitVec 2
  | .idle => 0
  | .active => 1
  | .pausing => 2
  | .paused => 3

/-- A word of a courier channel (R314). -/
def courierWord (s : State) (k o : Nat) : Word :=
  if o = 0x20 then setBits (devGet s (chBase k + 0x20)) 30 (chStNat (getCh s k).st) else devGet s (chBase k + o)

/-- SVC_STAT, SVC_TICKET and SVC_EPOCH (R579). -/
def svcWord (s : State) (o : Nat) : Word :=
  if o = 0x000 then
    BitVec.ofNat 32 (s.so.hand * 2 ^ 30 + s.so.switched.toNat * 2 ^ 24 + s.so.tickets.length)
  else if o = 0x004 then s.so.nextTicket
  else if o = 0x008 then s.fab.epoch.setWidth 32
  else 0

/-- The word at an offset of device CSR space, CL_CSRD apart (R25). -/
def devView (s : State) (o : Nat) : Word :=
  if o % 4 ≠ 0 then 0
  else match o / 0x10000 with
    | 0 => identWord s o
    | 1 =>
      let r := o - 0x10000
      if r < 0x800 then clusterWord s (Fin.ofNat 8 (r / 0x100)) (r % 0x100)
      else if r < 0x880 then devGet s o
      else if r = 0xC00 then pwrStat s
      else 0
    | 2 =>
      let r := o - 0x20000
      if r % 0x2000 < 0x400 ∧ r % 0x40 < 0x2C then courierWord s (16 * (r / 0x2000) + r % 0x2000 / 0x40) (r % 0x40) else 0
    | 4 => if o = 0x40008 then BitVec.ofNat 32 (s.meshCycle % 648) else devGet s o
    | 5 => if o = 0x50008 then BitVec.ofNat 32 (s.meshCycle % 1296) else devGet s o
    | 6 => devGet s o
    | 7 => if o = 0x7000C then BitVec.ofNat 32 s.fab.store.length else devGet s o
    | 8 => sealView s (o - 0x80000) (devGet s o)
    | 9 => nmWord s (o - 0x90000)
    | 10 => frWord s (o - 0xA0000)
    | 11 => svcWord s (o - 0xB0000)
    | _ => 0

/-- The low word of a 64-bit register (R8). -/
def devPairLow (o : Nat) : Bool :=
  if o = 0x40010 ∨ o = 0x50010 then true
  else if 0x20000 ≤ o ∧ o < 0x30000 then o % 0x2000 < 0x400 && (o % 0x40 == 0 || o % 0x40 == 8)
  else if o = 0x80028 ∨ o = 0x80038 ∨ o = 0x80048 ∨ o = 0x80058 then true
  else if 0xA0100 ≤ o ∧ o < 0xA0200 then o % 0x20 == 0 || o % 0x20 == 8
  else decide (0xA4000 ≤ o ∧ o < 0xAC000) && o % 0x20 < 24 && o % 8 == 0

/-- The cluster whose CL_CSRD lies at an offset. -/
def csrdCluster (o : Nat) : Option (Fin 8) :=
  if 0x10000 ≤ o ∧ o < 0x10800 ∧ o % 0x100 = 0x0C then some (Fin.ofNat 8 ((o - 0x10000) / 0x100)) else none

/-- A read of a word of device CSR space by a requester (R4, R8, R492). -/
def devRead (s : State) (req o : Nat) : State × Word :=
  match csrdCluster o with
  | some c => windowRead s c (csraCore s c) (csraOff s c)
  | none =>
    if devPairLow o then (captureHigh s req o (devView s (o + 4)), devView s o)
    else if 4 ≤ o && devPairLow (o - 4) then takeHigh s req (o - 4) (devView s o)
    else (s, devView s o)

/-! ### Writes -/

/-- A write of a cluster's register (R491, R492, R542). -/
def clusterWrite (s : State) (c : Fin 8) (r : Nat) (v : Word) : State :=
  if r = 0x00 then clCmd s c v
  else if r = 0x04 then (if bitOf v 29 && !bitOf (setBitsNow s (clBase c + 4)) 29 then modCl s c (fun k => { k with csrErr := false }) else s)
  else if r = 0x0C then windowWrite s c (csraCore s c) (csraOff s c) v
  else if r = 0x44 then (if bitOf v 0 then wakeCause s c else s)
  else devPlain s (clBase c + r) v

/-- A write of a courier channel's register (R311, R314). -/
def courierWrite (s : State) (k o : Nat) (v : Word) : State :=
  if o = 0x18 then writeCctl s k v else if o = 0x20 ∨ o = 0x24 ∨ 0x2C ≤ o then s else writeChReg s k o v

/-- A write in the Routes block (R273, R279, R450). A write of the device's own number or groups may make destinations
reachable, which start with SEQ_RESTART (R434). -/
def routesWrite (s : State) (r : Nat) (v : Word) : State :=
  if 0x2000 ≤ r ∧ r < 0x2400 then writeTreeReg s ((r - 0x2000) / 0x40) (r % 0x40) v
  else if 0x8000 ≤ r ∧ r < 0x8400 then writeMroute s ((r - 0x8000) / 16) (r % 16 / 4) v
  else
    let s := devPlain s (0x70000 + r) v
    restartNew (if r = 0 then (upFrom 0 16).foldl settlePort s else s)

/-- BATCH_CTL (R474, R483). -/
def writeBatchCtl (s : State) (v : Word) : State :=
  let m := (bits v 16 11).toNat
  let m := if m = 0 then 1 else min m 1024
  let s := devPlain s 0x80018 (setBits v 16 (BitVec.ofNat 11 m))
  if bitOf v 31 then closeBatch s else s

/-- PT_CMD (R456, R483). -/
def writePtCmd (s : State) (v : Word) : State :=
  let e := (bits v 0 13).toNat
  let s := if bitOf v 31 then writeEntry s e (ptImage s) else s
  if bitOf v 30 then readEntry s e else s

/-- A write in the ingest and sealing block (R483). -/
def ingestWrite (s : State) (r : Nat) (v : Word) : State :=
  let op := (bits v 30 2).toNat
  if r = 0x010 then modSeal s (fun b => { b with doorLo := v })
  else if r = 0x014 then sealDoor s v
  else if r = 0x018 then writeBatchCtl s v
  else if r = 0x030 then ackReceipts s v
  else if r = 0x040 then
    (if op = 1 then ksImport s (bits v 0 13).toNat else if op = 2 then ksRetire s (bits v 0 13).toNat else s)
  else if r = 0x050 then (if bitOf v 31 then attGo s else s)
  else if r = 0x060 then
    (if op = 1 then fwVerify s (bits v 0 8).toNat else if op = 2 then fwActivate s (bits v 0 8).toNat else s)
  else if r = 0x280 then writePtCmd s v
  else devPlain s (0x80000 + r) v

/-- A write of a word of device CSR space. -/
def devWrite (s : State) (o : Nat) (v : Word) : State :=
  if o % 4 ≠ 0 then s
  else match o / 0x10000 with
    | 1 =>
      let r := o - 0x10000
      if r < 0x800 then clusterWrite s (Fin.ofNat 8 (r / 0x100)) (r % 0x100) v else devPlain s o v
    | 2 =>
      let r := o - 0x20000
      if r % 0x2000 < 0x400 then courierWrite s (16 * (r / 0x2000) + r % 0x2000 / 0x40) (r % 0x40) v else s
    | 4 => devPlain s o v
    | 5 => devPlain s o v
    | 6 => devPlain s o v
    | 7 => routesWrite s (o - 0x70000) v
    | 8 => ingestWrite s (o - 0x80000) v
    | _ => s

/-- The access has to wait for the core that CL_CSRD reaches (R492). -/
def devWaits (s : State) (o : Nat) (write : Option Word) : Bool :=
  match csrdCluster o with
  | some c => windowWaits s c write
  | none => false

/-! ### Access over the fabric (R449) -/

/-- The source may reach this device's registers. -/
def mgmtAllowed (s : State) (src : BitVec 16) : Bool :=
  bitOf (devGet s 0x70008) 31 && bits (devGet s 0x70008) 0 16 == src

/-- CSR_RESP. -/
def csrAnswer (s : State) (dst tag : BitVec 16) (status : Byte) (v : Word) : State :=
  sendMgmt s dst 0x14 (leBytes 2 tag.toNat ++ [status, 0, 0, 0] ++ leBytes 4 v.toNat)

/-- CSR_READ (R449). -/
def execCsrRead (src : BitVec 16) (tag : BitVec 16) (off : BitVec 32) (s : State) : Host.Outcome State Fault Refusal :=
  let o := off.toNat
  if mgmtAllowed s src && devWaits s o none then .next s
  else
    let s := takeMgmt s 0x12 src
    if !mgmtAllowed s src then .next (csrAnswer s src tag 2 0)
    else if o % 4 ≠ 0 then .next (csrAnswer s src tag 1 0)
    else
      let (s, v) := devRead s (reqDevice src) o
      .next (csrAnswer s src tag 0 v)

/-- CSR_WRITE (R449); the ingest and sealing block refuses it (R483). -/
def execCsrWrite (src : BitVec 16) (tag : BitVec 16) (off v : BitVec 32) (s : State) : Host.Outcome State Fault Refusal :=
  let o := off.toNat
  if mgmtAllowed s src && devWaits s o (some v) then .next s
  else
    let s := takeMgmt s 0x13 src
    if !mgmtAllowed s src ∨ o / 0x10000 = 8 then .next (csrAnswer s src tag 2 0)
    else if o % 4 ≠ 0 then .next (csrAnswer s src tag 1 0)
    else .next (csrAnswer (devWrite s o v) src tag 0 0)

end Sys2Proof.Machine
end

