-- ==== Sys2Proof/Machine/External.lean ====
section
/-! DEFINITION. The external memories as devices: units served, refresh slots with their rewrites and scrubbing,
self-refresh, and the retirement of a stack (R376 to R393). -/
namespace Sys2Proof.Machine

/-- The pending rewrite of a word is made (R382, R384): corrected, or poisoned. -/
def rewriteWord (u : Nat) (m : Mem) (w : Nat) : Mem :=
  match memCheck m w with
  | .single => memSetCheck m w .good
  | .double => memPoisonWord u m w
  | _ => m

/-- The pending rewrites of the HBM groups that satisfy `p` are made. -/
def fixHbm (s : State) (p : Nat → Bool) : State :=
  { s with fab := { s.fab with
      hbm := (s.fab.hbmFix.filter p).foldl (rewriteWord 32) s.fab.hbm, hbmFix := s.fab.hbmFix.filter (fun w => !p w) } }

def fixLp (s : State) (p : Nat → Bool) : State :=
  { s with fab := { s.fab with
      lp := (s.fab.lpFix.filter p).foldl (rewriteWord 8) s.fab.lp, lpFix := s.fab.lpFix.filter (fun w => !p w) } }

/-- A unit is scrubbed in a refresh slot (R384): errors are counted and rewritten at once. No unit is presented, so a stack or
package in self-refresh stays in it (R380). -/
def scrubHbm (s : State) (o : Nat) : State := fixHbm (settleHbm s o) (fun w => (wordsOf 32 o 64).contains w)

def scrubLp (s : State) (o : Nat) : State :=
  let (link, s) := linkCheck s
  fixLp (settleLp (linkUnit s o link) o) (fun w => (wordsOf 8 o 64).contains w)

/-- The answer to a unit leaves for its requester. -/
def answerUnit (s : State) (x : Option Unit64) : State :=
  match x with
  | some d => { s with outbox := s.outbox ++ [.answer false d.data d.poison] }
  | none => { s with outbox := s.outbox ++ [.answer true 0 0] }

/-- One unit of an external memory is served (R375, R376). -/
def serveUnit (s : State) (space : BitVec 4) (off : Nat) (write : Option UnitData) : State :=
  let o := 64 * (off / 64)
  match write with
  | some d =>
    let (s, ok) := writeUnit s space o ⟨d.data, d.poison⟩
    if ok then answerUnit s (some ⟨0, 0⟩) else answerUnit s none
  | none => let (s, x) := readUnit s space o; answerUnit s x

/-- HBM_UNIT_SERVICE (R376, R378): the unit at offset `off` of space 0x0 is read, or written. -/
def execHbmUnitService (off : Nat) (write : Option UnitData) (s : State) : Host.Outcome State Fault Refusal :=
  if dark s then .next s else .next (serveUnit s 0 off write)

/-- One unit of space 0x1 is served, with the outcome of the link check (R376, R383). -/
def serveLp (s : State) (off : Nat) (write : Option UnitData) (link : LinkCheck) : State :=
  let o := 64 * (off / 64)
  if lpEnd ≤ o ∨ !lpAvail s then answerUnit s none
  else match write with
    | some d => answerUnit (writeLp s o ⟨d.data, d.poison⟩ link) (some ⟨0, 0⟩)
    | none => let r := readLp s o link; answerUnit r.1 (some r.2)

/-- LP_UNIT_SERVICE (R376, R378, R383): the unit at offset `off` of space 0x1. It waits at the controllers while a package is being
calibrated (R574). -/
def execLpUnitService (off : Nat) (write : Option UnitData) (link : LinkCheck) (s : State) : Host.Outcome State Fault Refusal :=
  if dark s then .next s else .next (if lpCalibrating s then { s with fab := { s.fab with lpHeld := s.fab.lpHeld ++ [.access off write link] } }
    else serveLp s off write link)

/-! ### Refresh slots (R379, R384) -/

/-- HBM_ERRs.OFF. -/
def stackOff (s : State) (k : Nat) : Bool := bitOf (devGet s (0x40100 + 4 * k)) 30

/-- The global offset of stack address `a` of stack `k`, the inverse of R373. -/
def hbmGlobal (k a : Nat) : Nat := (if k < 8 then 0 else 0x4380000000) + (a / 4096 * 8 + k % 8) * 4096 + a % 4096

/-- The global offset whose data stands at stack address `a` of stack `k` now (R373, R389), none for headroom that holds
nothing and for a granule that has moved away. -/
def hbmHolds (s : State) (k a : Nat) : Option Nat :=
  if a < 0x870000000 then
    match retiring s k with
    | some doneJ => if a / 4096 < doneJ then none else some (hbmGlobal k a)
    | none => some (hbmGlobal k a)
  else
    let cfg := devGet s 0x40000
    if bits cfg 30 2 = 0 then none
    else
      let r := (bits cfg 0 4).toNat
      if k = r then none
      else
        let e := if k < r then k else k - 1
        let j := (a - 0x870000000) / 4096 * 15 + e
        if j < (bits (devGet s 0x40004) 0 24).toNat then some (hbmGlobal r (4096 * j + a % 4096)) else none

def scrubDefault (_ : Nat) : Nat := 0

/-- HBM_REFRESH_SLOT (R384, R393): a lengthened slot is logged; the rewrites that wait for the stack, and the next unit of each of its 32 pseudo-channels. -/
def execHbmRefreshSlot (stack : Fin 16) (s : State) : Host.Outcome State Fault Refusal :=
  if dark s then .next s else
  let k := stack.val
  if stackOff s k then .next s
  else
    let slow := tget scrubDefault s.fab.slowSlots k
    let s := if slow = 0 then s
      else timingEvent { s with fab := { s.fab with slowSlots := tset scrubDefault s.fab.slowSlots k (slow - 1) } } 4 k
    let s := fixHbm s (fun w => homeStack s (32 * w) == k)
    .next ((upFrom 0 32).foldl (fun s p =>
      let key := 32 * k + p
      let n := tget scrubDefault s.fab.hbmScrub key
      let s := { s with fab := { s.fab with hbmScrub := tset scrubDefault s.fab.hbmScrub key ((n + 1) % 18874368) } }
      match hbmHolds s k ((32 * n + p) * 64) with
      | some o => scrubHbm s o
      | none => s) s)

/-- The global offset of package address `a` of package `p`, the inverse of R374. -/
def lpGlobal (p a : Nat) : Nat := (a / 4096 * 16 + p) * 4096 + a % 4096

/-- LP_REFRESH_SLOT (R384): the rewrites that wait for the package, and the next unit of each of its four channels. -/
def execLpRefreshSlot (package : Fin 16) (s : State) : Host.Outcome State Fault Refusal :=
  if dark s then .next s else
  let p := package.val
  let s := fixLp s (fun w => lpPackage (8 * w) == p)
  .next ((upFrom 0 4).foldl (fun s c =>
    let key := 4 * p + c
    let n := tget scrubDefault s.fab.lpScrub key
    let s := { s with fab := { s.fab with lpScrub := tset scrubDefault s.fab.lpScrub key ((n + 1) % 117440512) } }
    scrubLp s (lpGlobal p ((4 * n + c) * 64))) s)

/-- SELF_REFRESH_EXIT (R380): the stack or package leaves self-refresh for the unit that waits for it. -/
def execSelfRefreshExit (hbm : Bool) (index : Fin 16) (s : State) : Host.Outcome State Fault Refusal :=
  let o := (if hbm then 0x40100 else 0x50100) + 4 * index.val
  .next (devSet s o (devGet s o &&& 0x7FFFFFFF))

/-! ### Stack retirement (R389 to R392) -/

/-- The HBM_RETIRE command completes (R515). -/
def retireDone (s : State) : State :=
  match s.so.hbmHole with
  | some h => okHole { s with so := { s.so with hbmHole := none } } h []
  | none => s

/-- The channel's next burst falls in granule `j` of stack `k` (R391): its source, or its destination. -/
def burstIn (s : State) (k j c : Nat) : Bool :=
  let ch := getCh s c
  let ahead := ch.issued - ch.doneBytes
  let n := min 4096 (ch.total - ch.issued)
  let lo := hbmGlobal k (4096 * j)
  let meets (o : Nat) : Bool :=
    let a := globalOf (chPair s c o + ahead)
    isHere s a && a.space == 0 && decide (a.off < lo + 4096 ∧ lo < a.off + n)
  ch.st == .active && ch.result.isNone && decide (0 < n) && ((chOp s c != 2 && meets 0) || meets 8)

/-- PAUSE of a channel is set or cleared (R310, R391). -/
def setPause (on : Bool) (s : State) (c : Nat) : State := writeCctl s c (setBits (chReg s c 0x18) 31 (ofBool 1 on))

/-- Firmware pauses the channels whose next burst would fall in the granule (R391). -/
def pauseBursts (s : State) (k j : Nat) : State :=
  let cs := (upFrom 0 128).filter (burstIn s k j)
  cs.foldl (setPause true) (modSo s (fun o => { o with migPaused := o.migPaused ++ cs }))

/-- The granule has its new home, and the channels paused for it go on (R391). -/
def resumeBursts (s : State) : State :=
  s.so.migPaused.foldl (setPause false) (modSo s (fun o => { o with migPaused := [] }))

/-- The stack that is the new home of granule `j` of stack `k` (R389). -/
def newHome (k j : Nat) : Nat := if j % 15 < k then j % 15 else j % 15 + 1

/-- The migration courier moves granule `j` of the retiring stack, and its remap takes effect (R390); its units wake both
stacks (R380). -/
def moveGranule (s : State) (k j : Nat) : State :=
  let s := if j = 0 then timingEvent s 4 k else s
  let s := leaveRefresh (leaveRefresh s (0x40100 + 4 * k)) (0x40100 + 4 * newHome k j)
  let s := (upFrom 0 64).foldl (fun s i => scrubHbm s (hbmGlobal k (4096 * j + 64 * i))) s
  resumeBursts (devSet s 0x40004 (BitVec.ofNat 32 (j + 1)))

/-- MIGRATION_WINDOW (R390 to R392): the channels whose next burst falls in the next granule of the retiring stack are
paused, and once they have drained the granule is copied to its new home and its remap takes effect; after the last one
the stack is powered off. -/
def execMigrationWindow (s : State) : Host.Outcome State Fault Refusal :=
  let cfg := devGet s 0x40000
  if bits cfg 30 2 ≠ 1 then .next s
  else
    let k := (bits cfg 0 4).toNat
    let j := (bits (devGet s 0x40004) 0 24).toNat
    let s := pauseBursts s k j
    if s.so.migPaused.any (fun c => (getCh s c).st == .pausing) then .next s
    else
      let s := moveGranule s k j
      if j + 1 < 8847360 then .next s
      else
        let s := devSet s 0x40000 (setBits cfg 30 (2 : BitVec 2))
        let s := devSet s (0x40100 + 4 * k) (devGet s (0x40100 + 4 * k) ||| 0x40000000)
        .next (retireDone { timingEvent s 4 k with flash := { s.flash with retired := some k } })

end Sys2Proof.Machine
end

