-- ==== Sys2Proof/Machine/SoSpace.lean ====
section
/-! DEFINITION. The control cores' address map: boot ROM, SO page, locked L2, mailbox SRAM, device CSR and windows; parts of
lines and cache maintenance (R350, R366 to R368, R485 to R490). -/
namespace Sys2Proof.Machine

/-- What a load has at the moment: its value, or it waits for the data to return (R68). -/
inductive Got where
  | val (s : State) (v : Word)
  | wait (s : State)

/-! ### Parts of a line -/

/-- Bytes of a line are written straight to memory; of a unit of an external memory or of another device only a part is
given, so the unit is read first (R376). -/
def memPart (s : State) (k id o : Nat) (bs : List Byte) : LineGot :=
  if romLines ≤ id then .got s poisonedUnit
  else if mbxLines ≤ id then .got (barPut s (64 * (id - mbxLines) + o) bs) poisonedUnit
  else
    let a := globalOf (64 * id)
    if isHere s a then
      if a.space = 3 then
        match localSlot s a.off with
        | none => .err s
        | some slot => .got (storeLocal (wakeCause s (clusterOf slot)) slot ((localOf a.off).2 + o) bs) poisonedUnit
      else
        let (s, ok) := writeRun s a.space (a.off + o) bs
        if ok then .got s poisonedUnit else .err s
    else match memLine s k id with
      | .got s d => .got (writeLine s id (mergeLine d o bs) .plain) d
      | r => r

/-- The cached copies of a line take bytes, without becoming dirty. -/
def updateCopies (s : State) (k id o : Nat) (bs : List Byte) : State :=
  let s := match l1Find s k id with
    | some i => match l1Get s i with
      | some l => l1Put s i (some { l with data := mergeLine l.data o bs })
      | none => s
    | none => s
  match l2Find s id with
  | some i => match l2Get s i with
    | some l => l2Put s i (some { l with data := mergeLine l.data o bs })
    | none => s
  | none => s

/-- Write-through (R487). -/
def writeThrough (s : State) (k id o : Nat) (bs : List Byte) : LineGot :=
  match memPart s k id o bs with
  | .got s d => .got (updateCopies (cohere s k id true) k id o bs) d
  | r => r

/-- Write-back, with or without allocation on a miss (R487). -/
def writeBack (s : State) (k id o : Nat) (bs : List Byte) (allocate : Bool) : LineGot :=
  match l1Find s k id with
  | some i =>
    match l1Get s i with
    | some l => .got (l1Put (cohere s k id true) i (some ⟨id, mergeLine l.data o bs, true⟩)) l.data
    | none => .err s
  | none =>
    let s := cohere s k id true
    match l2Find s id with
    | some i =>
      match l2Get s i with
      | some l =>
        if allocate then .got (fillL1 s k id (mergeLine l.data o bs) true) l.data
        else .got (l2Put s i (some ⟨id, mergeLine l.data o bs, true⟩)) l.data
      | none => .err s
    | none =>
      if !allocate then memPart s k id o bs
      else match memLine s k id with
        | .got s d => .got (fillL1 (fillL2 s id d false) k id (mergeLine d o bs) true) d
        | r => r

/-! ### Windows (R487, R490) -/

/-- The global address of byte `x` of window `n` of control core `k`. -/
def winGlobal (s : State) (k n x : Nat) : Nat :=
  ((soGet s k (8 * n)).toNat / 2 ^ 27 * 2 ^ 27 + (soGet s k (8 * n + 4)).toNat * 2 ^ 32 + x) % 2 ^ 64

/-- How a window is cached: its ATTR, and uncached for spaces 0x4 to 0x6. -/
def winAttr (s : State) (k n : Nat) : Nat :=
  let sp := (globalOf (winGlobal s k n 0)).space.toNat
  if 4 ≤ sp ∧ sp ≤ 6 then 0 else (bits (soGet s k (8 * n)) 0 2).toNat

/-! ### Cache maintenance (R488, R489) -/

/-- An L1 entry is cleaned into the L2, if it is dirty, and kept clean. -/
def cleanL1 (s : State) (i : Nat) : State :=
  match l1Get s i with
  | some l => if l.dirty then l1Put (fillL2 s l.line l.data true) i (some { l with dirty := false }) else s
  | none => s

/-- An L2 entry is cleaned to memory, for control core `k`. -/
def cleanL2 (s : State) (k i : Nat) : State :=
  match l2Get s i with
  | some l => if l.dirty then l2Put (writeLine s l.line l.data (.cmo k)) i (some { l with dirty := false }) else s
  | none => s

/-- One entry: clean (bit 0 of `op`), then invalidate (bit 1). -/
def maintainL1 (s : State) (op i : Nat) : State :=
  let s := if op % 2 = 1 then cleanL1 s i else s
  if op / 2 % 2 = 1 then l1Put s i none else s

def maintainL2 (s : State) (k op i : Nat) : State :=
  let s := if op % 2 = 1 then cleanL2 s k i else s
  if op / 2 % 2 = 1 then l2Put s i none else s

/-- The lines of `[lo, hi)` of the SO address map that lie in a region which starts at `start`, has `len` bytes and whose
first line is `first`: the first and the last line number, if any. -/
def regionLines (lo hi start len first : Nat) : Option (Nat × Nat) :=
  let a := max lo start
  let b := min hi (start + len)
  if a < b then some (first + (a - start) / 64, first + (b - 1 - start) / 64) else none

/-- The lines that overlap the range of CMO_ADDR and CMO_LEN. -/
def rangeLines (s : State) (k : Nat) : List (Nat × Nat) :=
  let lo := (soGet s k 0x090).toNat
  let hi := lo + (soGet s k 0x094).toNat
  (regionLines lo hi 0 0x20000 romLines).toList ++ (regionLines lo hi 0x20000000 0x40000 mbxLines).toList ++
    (upFrom 0 16).filterMap (fun n =>
      regionLines lo hi (0x80000000 + 0x08000000 * n) 0x08000000 (winGlobal s k n 0 / 64))

def inLines (rs : List (Nat × Nat)) (id : Nat) : Bool := rs.any (fun r => decide (r.1 ≤ id ∧ id ≤ r.2))

/-- The entries of a cache whose lines lie in the ranges. -/
def entriesIn (t : Tab (Option CLine)) (rs : List (Nat × Nat)) : List Nat :=
  (t.filter (fun p => match p.2 with
    | some l => inLines rs l.line
    | none => false)).map (·.1)

/-- A range operation, in the L1 of every control core and then in the L2 (R489). -/
def cmoRange (s : State) (k op : Nat) : State :=
  let rs := rangeLines s k
  let s := if op / 2 % 2 = 1 then
      modSo s (fun o => { o with l1i := o.l1i.filter (fun p => !(entriesIn o.l1i rs).contains p.1) }) else s
  let s := (entriesIn s.so.l1 rs).foldl (fun s i => maintainL1 s op i) s
  (entriesIn s.so.l2c rs).foldl (fun s i => maintainL2 s k op i) s

/-- A set-and-way operation (R489); a locked way is not affected (R488). The L1 is the data cache (DESIGN CHOICE, log 109). -/
def cmoWay (s : State) (k op : Nat) (l1only : Bool) (way set : Nat) : State :=
  if l1only then maintainL1 s op (512 * k + 4 * (set % 128) + way % 4)
  else if way < lockedWays s then s
  else maintainL2 s k op (16 * (set % 8192) + way)

/-- A store to CMO_CTL: the thread is stalled until every line written back has been acknowledged (R489). -/
def cmo (s : State) (k op : Nat) (byway l1only : Bool) (way set : Nat) : State :=
  waitCmo (if byway then cmoWay s k op l1only way set else cmoRange s k op) k

/-- Locked ways `lo` to `hi` − 1 hold zeros with good checks and no tags. -/
def zeroWays (m : Mem) (lo hi : Nat) : Mem :=
  let out (u : Nat) (k : Nat) : Bool := !decide (0x80000 * lo ≤ u * k ∧ u * k < 0x80000 * hi)
  ⟨m.bytes.filter (fun p => out 1 p.1), m.check.filter (fun p => out 4 p.1), m.tags.filter (fun p => out 16 p.1),
    m.split.filter (fun p => out 16 p.1)⟩

/-- A store of control core `k` to L2_LOCK (R488): newly locked ways are cleaned, invalidated and zeroed; released ways lose their contents. -/
def l2Lock (s : State) (k : Nat) (v : Word) : State :=
  let w := min 8 (bits v 0 4).toNat
  let old := lockedWays s
  let leaving := (s.so.l2c.filter (fun p => decide (old ≤ p.1 % 16 ∧ p.1 % 16 < w))).map (·.1)
  let s := leaving.foldl (fun s i => maintainL2 s k 3 i) s
  waitCmo (soSet { s with l2 := zeroWays s.l2 (min old w) (max old w) } 0 0x080 (BitVec.ofNat 32 w)) k

/-! ### The SO page (R490) -/

def soPageView (s : State) (k o : Nat) : Word :=
  if o = 0x080 then soGet s 0 0x080
  else if o = 0x098 then 0
  else if o = 0x0A0 then BitVec.ofNat 32 k
  else soGet s k o

/-- The place of a control core's register among all registers (R8). -/
def soPlace (k o : Nat) : Nat := 0x100000 * (577 + k) + 0x10000 + o

def soPageRead (s : State) (k o : Nat) : State × Word :=
  let req := reqThread (576 + k) 0
  if o < 0x080 ∧ o % 8 = 0 then (captureHigh s req (soPlace k o) (soPageView s k (o + 4)), soPageView s k o)
  else if o < 0x080 then takeHigh s req (soPlace k (o - 4)) (soPageView s k o)
  else (s, soPageView s k o)

def soPageWrite (s : State) (k o : Nat) (v : Word) : State :=
  if o = 0x080 then l2Lock s k v
  else if o = 0x098 then
    cmo s k (bits v 30 2).toNat (bitOf v 29) (bitOf v 28) (bits v 24 4).toNat (bits v 0 13).toNat
  else soSet s k o ((soReg o).write (soGet s k o) v)

/-! ### Loads and stores of a control core -/

/-- The address of a place, as the core sees it. -/
def soAddr : Place → Nat
  | .loc a => a
  | .csr o => 0x00100000 + o
  | .sram o => 0x40000000 + o
  | .rom a => a
  | .soPage o => 0x00100000 + o
  | .lockedL2 o => 0x10000000 + o
  | .mailbox o => 0x20000000 + o
  | .devCsr o => 0x30000000 + o
  | .window n x => 0x80000000 + 0x08000000 * n + x
  | .absent => 0

/-- A load takes its bytes from a line: poison is a fault, and an error answer is ILLEGAL (R40, R45). -/
def takeLine (g : LineGot) (a o n : Nat) : Res Got :=
  match g with
  | .wait s => .ok (.wait s)
  | .err s => .after s (addrFault cILLEGAL a)
  | .got s d =>
    if (wordsOf 4 o n).any (fun w => bitOf d.poison w) then .after s (addrFault cPOISON_CONSUMED a)
    else .ok (.val s (BitVec.ofNat 32 (leAt (unitBytes d) o n)))

/-- A load through a window. -/
def windowLoad (s : State) (k n x len : Nat) : Res Got :=
  let g := winGlobal s k n x
  let a := soAddr (.window n x)
  let ga := globalOf g
  if ga.space = 6 ∧ isHere s ga then
    if len ≠ 4 then .fault (addrFault cALIGN a)
    else if devWaits s ga.off none then .stall
    else
      let r := devRead s (reqThread (576 + k) 0) ga.off
      .ok (.val r.1 r.2)
  else if winAttr s k n = 0 then takeLine (memLine s k (g / 64)) a (g % 64) len
  else takeLine (readCached s k (g / 64)) a (g % 64) len

/-- Byte `x` of window `n` is uncached memory of another device. -/
def farUncached (s : State) (k n x : Nat) : Bool :=
  let ga := globalOf (winGlobal s k n x)
  !isHere s ga && winAttr s k n == 0

/-- An exchange with a word of another device through an uncached window: its line is read once and written back whole. -/
def soXch (s : State) (k n x : Nat) (v : Word) : Res Got :=
  let g := winGlobal s k n x
  let got := memLine s k (g / 64)
  (takeLine got (soAddr (.window n x)) (g % 64) 4).andThen (fun w =>
    match got, w with
    | .got s d, .val _ old => .ok (.val (writeLine s (g / 64) (mergeLine d (g % 64) (leBytes 4 v.toNat)) .plain) old)
    | _, w => .ok w)

/-- A load of `n` bytes by the control core in `slot` from a checked place. -/
def soLoad (s : State) (slot : Nat) (p : Place) (n : Nat) (_ret : Bool) : Res Got :=
  let k := slot - 576
  match p with
  | .rom a => takeLine (readCached s k (romLines + a / 64)) (soAddr p) (a % 64) n
  | .soPage o =>
    let r := soPageRead s k o
    .ok (.val r.1 r.2)
  | .lockedL2 o =>
    let s := { s with l2 := (settleWords 4 s.l2 (wordsOf 4 o n)).mem }
    if memPoisoned 4 s.l2 o n then .after s (addrFault cPOISON_CONSUMED (soAddr p))
    else .ok (.val s (BitVec.ofNat 32 (memNat s.l2 o n)))
  | .mailbox o => takeLine (readCached s k (mbxLines + o / 64)) (soAddr p) (o % 64) n
  | .devCsr o =>
    if devWaits s o none then .stall
    else
      let r := devRead s (reqThread slot 0) o
      .ok (.val r.1 r.2)
  | .window w x => windowLoad s k w x n
  | _ => .fault (addrFault cILLEGAL (soAddr p))

/-- A store has reached its line, or waits for another device and is issued again. -/
def tookLine (g : LineGot) (a : Nat) : Res (State × Bool) :=
  match g with
  | .got s _ => .ok (s, true)
  | .wait s => .ok (s, false)
  | .err s => .after s (addrFault cILLEGAL a)

/-- A store through a window. -/
def windowStore (s : State) (k n x : Nat) (bs : List Byte) : Res (State × Bool) :=
  let g := winGlobal s k n x
  let a := soAddr (.window n x)
  let ga := globalOf g
  if ga.space = 6 ∧ isHere s ga then
    if bs.length ≠ 4 then .fault (addrFault cALIGN a)
    else if devWaits s ga.off (some (leWord bs)) then .stall
    else .ok (devWrite s ga.off (leWord bs), true)
  else match winAttr s k n with
    | 0 => tookLine (memPart s k (g / 64) (g % 64) bs) a
    | 1 => tookLine (writeThrough s k (g / 64) (g % 64) bs) a
    | 2 => tookLine (writeBack s k (g / 64) (g % 64) bs true) a
    | _ => tookLine (writeBack s k (g / 64) (g % 64) bs false) a

/-- A store of the low `n` bytes of `v` by the control core in `slot`; one to the boot ROM has no effect (R485). -/
def soStore (s : State) (slot : Nat) (p : Place) (n : Nat) (v : Word) : Res (State × Bool) :=
  let k := slot - 576
  let bs := leBytes n v.toNat
  match p with
  | .rom _ => .ok (s, true)
  | .soPage o => .ok (soPageWrite s k o v, true)
  | .lockedL2 o => .ok ({ s with l2 := memStore 4 s.l2 o bs }, true)
  | .mailbox o => tookLine (writeBack s k (mbxLines + o / 64) (o % 64) bs true) (soAddr p)
  | .devCsr o => if devWaits s o (some v) then .stall else .ok (devWrite s o v, true)
  | .window w x => windowStore s k w x bs
  | _ => .fault (addrFault cILLEGAL (soAddr p))

/-! ### The rows -/

/-- CMO_CLEAN (R489). -/
def execCmoClean (k : Fin 4) (byway l1only : Bool) (way : BitVec 4) (set : BitVec 13) (s : State) :
    Host.Outcome State Fault Refusal :=
  .next (cmo s k.val 1 byway l1only way.toNat set.toNat)

/-- CMO_INVALIDATE (R489). -/
def execCmoInvalidate (k : Fin 4) (byway l1only : Bool) (way : BitVec 4) (set : BitVec 13) (s : State) :
    Host.Outcome State Fault Refusal :=
  .next (cmo s k.val 2 byway l1only way.toNat set.toNat)

/-- CMO_CLEAN_INVALIDATE (R489). -/
def execCmoCleanInvalidate (k : Fin 4) (byway l1only : Bool) (way : BitVec 4) (set : BitVec 13) (s : State) :
    Host.Outcome State Fault Refusal :=
  .next (cmo s k.val 3 byway l1only way.toNat set.toNat)

/-- L2_LOCK_WRITE (R488); the register is one for the four control cores. -/
def execL2LockWrite (k : Fin 4) (v : BitVec 32) (s : State) : Host.Outcome State Fault Refusal :=
  if dark s then .next s else .next (l2Lock s k.val v)

end Sys2Proof.Machine
end

