-- ==== Sys2Proof/Machine/Intake.lean ====
section
/-! DEFINITION. How firmware takes a doorbell: the checks of a request, the units a command names, and the order in which
commands start (R496 to R500, R502, R503, R512, R562, R563). -/
namespace Sys2Proof.Machine

/-! ### The table of commands (R503) -/

/-- The request length that a command expects, none for an unknown code (R502, R503). -/
def cmdLen (s : State) (h : BitVec 6) (c : Nat) : Option Nat :=
  match c with
  | 0x01 => some 8
  | 0x02 => some 8
  | 0x03 => some 48
  | 0x10 => some 24
  | 0x11 => some 8
  | 0x20 => some (8 + holeArg s h 2 2)
  | 0x21 => some 8
  | 0x30 => some 24
  | 0x31 => some 8
  | 0x40 => some 24
  | 0x41 => some 16
  | 0x42 => some 8
  | 0x50 => some 8
  | 0x51 => some 8
  | 0x52 => some 8
  | 0x58 => some 8
  | 0x60 => some 8
  | 0x61 => some 8
  | 0x62 => some (8 + 8 * holeArg s h 2 2)
  | 0x70 => some 8
  | 0x71 => some 8
  | 0x80 => some 8
  | 0x90 => some (4 + 6 * holeArg s h 0 2)
  | 0xA0 => some 8
  | 0xB0 => some 8
  | _ => none

/-- Byte `i` of a command's request is reserved (R502, R503). -/
def cmdReserved (c i : Nat) : Bool :=
  let from_ (lo hi : Nat) : Bool := decide (lo ≤ i ∧ i < hi)
  match c with
  | 0x01 => from_ 4 8
  | 0x02 => from_ 4 8
  | 0x10 => from_ 2 8
  | 0x11 => from_ 1 8
  | 0x20 => from_ 4 8
  | 0x21 => from_ 2 8
  | 0x30 => from_ 6 8
  | 0x31 => from_ 4 8
  | 0x40 => from_ 5 8 || from_ 20 24
  | 0x41 => from_ 12 16
  | 0x42 => from_ 7 8
  | 0x50 => from_ 1 8
  | 0x51 => from_ 1 8
  | 0x52 => from_ 3 8
  | 0x58 => from_ 1 8
  | 0x60 => from_ 2 4
  | 0x61 => from_ 1 8
  | 0x62 => from_ 4 8
  | 0x70 => from_ 3 8
  | 0x71 => from_ 2 8
  | 0x80 => from_ 1 2 || from_ 6 8
  | 0x90 => from_ 2 4
  | 0xA0 => from_ 2 8
  | 0xB0 => from_ 2 8
  | _ => false

/-- The command is accepted during reduced service (R502, R503). -/
def cmdReduced (c : Nat) : Bool :=
  [0x01, 0x02, 0x03, 0x10, 0x11, 0x20, 0x21, 0x50, 0x70, 0x80, 0x90, 0xA0, 0xB0].contains c

/-- The request of a hole is refused before its command begins: the status and its DETAIL (R499, R500, R502). -/
def refusal (s : State) (h : BitVec 6) : Option (BitVec 16 × Nat) :=
  let c := holeCmd s h
  match cmdLen s h c with
  | none => some (stBAD_COMMAND, 0)
  | some n =>
    if 2 ≤ holeFlags s h ∨ !allZero (memBytes s.mbx (holeBase h + 28) 36) then some (stBAD_COMMAND, 0)
    else if !s.so.open_ ∧ c ≠ 0x01 ∧ c ≠ 0x02 then some (stNO_SESSION, 0)
    else if isReduced s ∧ !cmdReduced c then some (stNOT_IN_REDUCED, 0)
    else if holeLen s h ≠ n then some (stBAD_LENGTH, n)
    else match (upFrom 0 24).find? (fun i => cmdReserved c i && holeArg s h i 1 != 0) with
      | some i => some (stBAD_FIELD, i)
      | none => none

/-! ### Units (R500, R512) -/

/-- A unit: its kind (1 cluster, 2 stack, 3 package, 4 port, 5 key slot, 6 model, 7 plan, 8 firmware kind, 9 Routes block,
10 Night Mail, 0x100 + code for the others of R512) and its number. -/
abbrev UnitName := Nat × Nat

/-- The units that a unit code and index of R512 name; `block` says that codes 0x04 and 0x05 name the whole block. -/
def codeUnits (code index : Nat) (block : Bool) : List UnitName :=
  let all (k : Nat) : List UnitName := if block then (upFrom 0 16).map (fun i => (k, i)) else [(k, index)]
  match code with
  | 0x02 => [(1, index)]
  | 0x03 => [(0x103, index)]
  | 0x04 => all 2
  | 0x05 => all 3
  | 0x06 => [(4, index)]
  | 0x07 => [(9, 0)]
  | 0x09 => [(10, 0)]
  | c => [(0x100 + c, 0)]

def maskUnits (m : Nat) : List UnitName := ((upFrom 0 8).filter (maskBit m)).map (fun c => (1, c))

/-- The units that the command of a hole names (R500). -/
def cmdUnits (s : State) (h : BitVec 6) : List UnitName :=
  let b (o n : Nat) : Nat := holeArg s h o n
  match holeCmd s h with
  | 0x10 => [(8, b 0 1)]
  | 0x11 => (8, b 0 1) :: (if b 0 1 = 2 then [(10, 0)] else [])
  | 0x20 => [(5, b 0 2)]
  | 0x21 => [(5, b 0 2)]
  | 0x30 => [(6, b 0 4)]
  | 0x31 => [(6, b 0 4)]
  | 0x40 => [(7, b 0 4)]
  | 0x50 => maskUnits (b 0 1)
  | 0x51 => maskUnits (b 0 1)
  | 0x52 => maskUnits (if b 2 1 % 2 = 1 then 0xFF else b 0 1)
  | 0x58 => [(2, b 0 1)]
  | 0x60 => [(4, b 0 1)]
  | 0x61 => [(4, b 0 1)]
  | 0x62 => [(9, 0)]
  | 0x70 => codeUnits (b 0 1) (b 1 1) false
  | 0x71 => codeUnits (b 0 1) (b 1 1) false
  | 0x90 => [(10, 0)]
  | 0xA0 => maskUnits (b 1 1)
  | 0xB0 => codeUnits (b 0 1) (b 1 1) true
  | _ => []

def shareUnit (a b : List UnitName) : Bool := a.any (fun u => b.contains u)

def testUnits (t : Test) : List UnitName := codeUnits t.unit t.index false

/-! ### Drained units (R562, R574) -/

/-- The global addresses that a seal job in the queue names. -/
def jobAddrs (j : SealJob) : List Nat := [j.addr, leAt j.desc 0 8, leAt j.desc 8 8, leAt j.desc 16 8]

/-- The tier is quiet (R574): no courier channel, stream unit, far read or seal job addresses space 0x1, and no access waits at
the controllers. Firmware holds new such work for the command that asks (`lpHolds`). -/
def lpQuiet (s : State) : Bool :=
  s.fab.lpHeld.isEmpty &&
  !(upFrom 0 128).any (fun k =>
      (getCh s k).st != .idle && (inLp s (devPair s (chBase k)) || inLp s (devPair s (chBase k + 8)))) &&
  s.cores.all (fun c =>
    c.2.su.toList.all (fun u => match u.far with
      | some d => u.st == .idle || !(hDevice d == fabDev s && hSpace d == 1)
      | none => true) &&
    c.2.far.all (fun f => !(f.dev == fabDev s && f.space == 1))) &&
  s.so.sealing.jobs.all (fun j => !(jobAddrs j).any (inLp s))

def portDrained (s : State) (p : Nat) : Bool :=
  match portState s p with
  | 0 => true
  | 3 => (getPort s p).quiesced
  | 5 => true
  | 6 => true
  | _ => false

/-- The mesh cycle lies in a refresh slot of HBM stack `k` (R379). -/
def inRefresh (s : State) (k : Nat) : Bool :=
  let ph := s.meshCycle % 648
  decide (81 * (k % 8) ≤ ph ∧ ph < 81 * (k % 8) + 48)

/-- The unit of a code of R512 is drained (R562). -/
def unitDrained (s : State) (code index : Nat) : Bool :=
  match code with
  | 0x01 => true
  | 0x02 => isDrained s (Fin.ofNat 8 index)
  | 0x03 => isDrained s (Fin.ofNat 8 index) && (upFrom (16 * index) 16).all (fun k => (getCh s k).st == .idle)
  | 0x04 => inRefresh s index
  | 0x05 => lpQuiet s
  | 0x06 => portDrained s index
  | 0x07 => (upFrom 0 16).all (fun p => bits (devGet s (portBase p)) 30 2 != 1 || portDrained s p)
  | 0x08 => (upFrom 0 32).all (fun p => (getPipe s p).isNone) && s.so.sealing.jobs.isEmpty
  | 0x09 => true
  | 0x0B => true
  | _ => false

/-! ### When a command starts (R500, R563) -/

/-- A waiting ticket whose unit is drained: its test starts before any command that firmware takes afterwards. -/
def ticketReady (s : State) (t : Test) : Bool := unitDrained s t.unit t.index

/-- The tickets whose units are drained. -/
def readyTickets (s : State) : List Word := (s.so.tickets.filter (fun t => ticketReady s t.2)).map (·.1)

/-! ### The doorbell (R498) -/

/-- The control core takes the doorbell of a hole, or ignores it: it invalidates the hole and fetches its header and its
payload (R369). Tests that can start by then start before the command (R563). -/
def takeDoorbell (s : State) (h : BitVec 6) : State :=
  if h = 0 ∨ holeBusy s h ∨ !s.so.ready then
    modSo s (fun o => { o with dbign := if o.dbign = 0xFFFF then o.dbign else o.dbign + 1 })
  else
    let s := modSo s (fun o => { o with busy := o.busy ++ [⟨h, false, false, readyTickets s⟩] })
    let s := mailFetch (dropLines s (mbxLines + 64 * h.toNat) 64) (holeBase h) (64 + min 4032 (holeLen s h))
    match refusal s h with
    | some r => failHole s h r.1 r.2
    | none => s

/-- DOORBELL (R498). -/
def execDoorbell (hole : BitVec 6) (s : State) : Host.Outcome State Fault Refusal :=
  if dark s then .next s else .next (takeDoorbell s hole)

/-- The holes taken before `h`, in doorbell order. -/
def earlier (s : State) (h : BitVec 6) : List Busy := s.so.busy.takeWhile (fun b => b.hole != h)

/-- The command of the hole may start: it has been taken and not begun, no earlier command, running test or ticket whose unit is
drained has a unit in common with it, and no ticket whose unit was drained when the command was taken still waits for its test
(R563; DESIGN CHOICE, log 151: as long as the unit stays drained). -/
def mayStart (s : State) (h : BitVec 6) (code : Nat) : Bool :=
  let us := cmdUnits s h
  s.so.busy.any (fun b => b.hole == h && !b.started) && holeCmd s h == code &&
    (earlier s h).all (fun b => !shareUnit (cmdUnits s b.hole) us) &&
    s.so.running.all (fun t => !shareUnit (testUnits t.2) us) &&
    s.so.tickets.all (fun t => !(ticketReady s t.2 && (shareUnit (testUnits t.2) us ||
      s.so.busy.any (fun b => b.hole == h && b.after.contains t.1))))

def markStarted (s : State) (h : BitVec 6) : State :=
  modSo s (fun o => { o with busy := o.busy.map (fun b => if b.hole = h then { b with started := true } else b) })

/-- Firmware carries out the command `code` of a hole, if it may start (R498, R500). -/
def runHole (s : State) (h : BitVec 6) (code : Nat) (f : State → State) : State :=
  let s := settleSo s
  if mayStart s h code then settleSo (f (markStarted s h)) else s

/-- A request field is outside its range, or holds a reserved byte. -/
def badField (s : State) (h : BitVec 6) (o : Nat) : State := failHole s h stBAD_FIELD o

/-! ### Sources (R498, R503) -/

/-- `n` bytes of a host source: its bytes, or the offset at which the read failed. -/
def hostRead (d : HostData) (n : Nat) : Except Nat (List Byte) :=
  match d with
  | .failed o => .error o
  | .bytes l => if l.length < n then .error l.length else .ok (l.take n)

/-- The bytes from `lo` to `hi` of a space, in `n` units from offset `u`; an error carries the offset of the first byte
that cannot be read. -/
def gather : Nat → State → BitVec 4 → Nat → Nat → Nat → State × Except Nat (List Byte)
  | 0, s, _, _, _, _ => (s, .ok [])
  | n + 1, s, space, u, lo, hi =>
    match readUnit s space u with
    | (s, none) => (s, .error (u - lo))
    | (s, some d) =>
      match (upFrom 0 16).find? (fun i => bitOf d.poison i && decide (lo < u + 4 * i + 4 ∧ u + 4 * i < hi)) with
      | some i => (s, .error (u + 4 * i - lo))
      | none =>
        match gather n s space (u + 64) lo hi with
        | (s, .error e) => (s, .error e)
        | (s, .ok rest) => (s, .ok (slice (unitBytes d) (lo - u) (min 64 (hi - u) - (lo - u)) ++ rest))

/-- `n` bytes of a command's source: host memory, or a global address of this device; another device's bytes come from
outside. -/
def fetchSource (s : State) (source addr n : Nat) (d : HostData) : State × Except Nat (List Byte) :=
  let a := globalOf addr
  if source = 0 ∨ !isHere s a then (s, hostRead d n)
  else
    let first := a.off / 64
    gather (if n = 0 then 0 else (a.off + n - 1) / 64 + 1 - first) s a.space (64 * first) a.off (a.off + n)

/-- A command reads its source and goes on with the bytes (R498, R499). -/
def withSource (s : State) (h : BitVec 6) (source addr n field : Nat) (d : HostData) (f : State → List Byte → State) : State :=
  if 2 ≤ source then badField s h field
  else match fetchSource s source addr n d with
    | (s, .error o) => failHole s h stHOST_READ_ERROR o
    | (s, .ok bs) => f (if source = 0 then landHost s n else s) bs

end Sys2Proof.Machine
end

