-- ==== Sys2Proof/Machine/Stores.lean ====
section
/-! DEFINITION. The commands of sessions, firmware images, keys, models, plans and parcels (R478, R500, R503 to R508, R513,
R515, R570). -/
namespace Sys2Proof.Machine

/-! ### Sessions (R500, R503) -/

def cmdHello (h : BitVec 6) (s : State) : State :=
  let s := modSo s (fun o => { o with session := o.session + 1, open_ := true })
  okHole s h (leBytes 4 s.so.version.toNat ++ [BitVec.ofNat 8 s.mod.service, BitVec.ofNat 8 (phaseOf s), 0, 0] ++
    leBytes 4 s.so.session.toNat)

/-- HELLO (R500, R503). -/
def execHello (hole : BitVec 6) (s : State) : Host.Outcome State Fault Refusal := .next (runHole s hole 0x01 (cmdHello hole))

/-- The ordering code of the part, in ASCII (R503). -/
def orderingCode : List Byte :=
  [0x46, 0x56, 0x32, 0x2D, 0x35] ++ (if Config.grade512 then [0x31, 0x32] else [0x34, 0x34]) ++ [0x2D, 0x4C, 0x51] ++
    List.replicate 6 0

def cmdIdentify (h : BitVec 6) (s : State) : State :=
  okHole s h (orderingCode ++ beBytes 16 Config.serial.toNat ++ leBytes 4 (identCores s).toNat ++
    leBytes 4 Config.chain.length ++ (Config.chain.drop (holeArg s h 0 4)).take 3992)

/-- IDENTIFY (R478, R503). -/
def execIdentify (hole : BitVec 6) (s : State) : Host.Outcome State Fault Refusal :=
  .next (runHole s hole 0x02 (cmdIdentify hole))

def cmdAttest (h : BitVec 6) (s : State) : State :=
  modSeal s (fun b => { b with att := b.att ++ [⟨holeBytes s h 0 48, none, some h⟩] })

/-- ATTEST (R480, R503): the report answers when it has been produced. -/
def execAttest (hole : BitVec 6) (s : State) : Host.Outcome State Fault Refusal :=
  .next (runHole s hole 0x03 (cmdAttest hole))

/-! ### Firmware images (R513, R570, R577, R578) -/

def kindOk (k : Nat) : Bool := decide (1 ≤ k ∧ k ≤ 3)

def cmdLoadFirmware (h : BitVec 6) (host : HostData) (s : State) : State :=
  let kind := holeArg s h 0 1
  if !kindOk kind then badField s h 0
  else withSource s h (holeArg s h 1 1) (holeArg s h 8 8) (holeArg s h 16 8) 1 host (fun s img =>
    modSeal s (fun b => { b with fw := b.fw ++ [.verify kind img (some h)] }))

/-- LOAD_FIRMWARE (R513): the image is staged, and verified by a firmware command of the sealing block. -/
def execLoadFirmware (hole : BitVec 6) (host : HostData) (s : State) : Host.Outcome State Fault Refusal :=
  .next (runHole s hole 0x10 (cmdLoadFirmware hole host))

/-- The contents of a flash slot at manufacture (R539). -/
def slotDefault (i : Nat) : Option Image := (Config.flashImage i).map (fun x => ⟨x.1, x.2.1, digestOf x.2.2⟩)

/-- The image in slot A (0) or B (1) of the on-module flash. -/
def slotImage (s : State) (i : Nat) : Option Image := tget slotDefault s.flash.slots i

def setSlot (s : State) (i : Nat) (x : Option Image) : State :=
  { s with flash := { s.flash with slots := tset slotDefault s.flash.slots i x } }

def stagedImage (s : State) (kind : Nat) : Option Image := tget imageDefault s.so.staged kind

/-- A write of R570 has failed: which of the two, and what it leaves in its slot, is open. -/
def flashFailed (s : State) : State :=
  let (k, s) := freshNat s
  match Config.place k % 4 with
  | 0 => s
  | 1 => setSlot s 1 none
  | 2 => setSlot s 1 (slotImage s 0)
  | _ => setSlot (setSlot s 1 (slotImage s 0)) 0 none

/-- Night Mail starts to load an image (R577). -/
def reloadNm (s : State) (x : Option Image) : State :=
  nmEventOpen (modNm s (fun n => { n with mode := .reloading, loading := x })) 0x07

/-- A Franking image leaves on the report link and reaches the Franking die (R546, R557). -/
def sendImage (s : State) (img : List Byte) : State :=
  modFr { s with outbox := s.outbox ++ [.update img] } (fun f => { f with incoming := some img })

def cmdActivate (h : BitVec 6) (flashOk : Bool) (s : State) : State :=
  let kind := holeArg s h 0 1
  if !kindOk kind then badField s h 0
  else match stagedImage s kind with
    | none => failHole s h stFW_NONE 0
    | some x =>
      if kind = 1 then
        (if !flashOk then failHole (flashFailed s) h stTEST_FAILED 0x100
         else
           let s := setSlot (setSlot s 1 (slotImage s 0)) 0 (some x)
           modSo s (fun o => { o with hand := 1, switched := 0, handHole := some h }))
      else if kind = 2 then reloadNm (modSo s (fun o => { o with nmHole := some h })) (some x)
      else sendImage (modSo s (fun o => { o with frHole := some h })) s.so.stagedFr

/-- ACTIVATE_FIRMWARE (R513, R570, R577, R578). -/
def execActivateFirmware (hole : BitVec 6) (flashOk : Bool) (s : State) : Host.Outcome State Fault Refusal :=
  .next (runHole s hole 0x11 (cmdActivate hole flashOk))

/-! ### Keys (R466 to R468, R515) -/

def cmdKeyImport (h : BitVec 6) (s : State) : State :=
  let slot := holeArg s h 0 2
  let n := holeArg s h 2 2
  if 8192 ≤ slot then badField s h 0
  else if 4024 < n then badField s h 2
  else queueKey s (.importKey slot (holeBytes s h 8 n) (some h))

/-- KEY_IMPORT (R467, R515). -/
def execKeyImport (hole : BitVec 6) (s : State) : Host.Outcome State Fault Refusal :=
  .next (runHole s hole 0x20 (cmdKeyImport hole))

def cmdKeyRetire (h : BitVec 6) (s : State) : State :=
  let slot := holeArg s h 0 2
  if 8192 ≤ slot then badField s h 0 else queueKey s (.retire slot (some h))

/-- KEY_RETIRE (R468, R515). -/
def execKeyRetire (hole : BitVec 6) (s : State) : Host.Outcome State Fault Refusal :=
  .next (runHole s hole 0x21 (cmdKeyRetire hole))

/-! ### Placement (R503, R504) -/

/-- The bytes of a space that firmware can give out (R372, R374, R376). -/
def spaceBytes (space : Nat) : Nat := if space = 0 then hbmEnd else if space = 1 then lpEnd else 0x30000000

/-- A region is inside its space and clear of those given out. -/
def regionFree (s : State) (r : Region) : Bool :=
  decide (r.off + r.len ≤ spaceBytes r.space) &&
    s.so.regions.all (fun q => decide (q.space ≠ r.space ∨ q.off + q.len ≤ r.off ∨ r.off + r.len ≤ q.off))

def upTo64 (n : Nat) : Nat := (n + 63) / 64 * 64

/-- The lowest free place of a length in a space. -/
def lowestFree (s : State) (space len : Nat) : Option Region :=
  let starts := 0 :: (s.so.regions.filter (fun q => q.space == space)).map (fun q => upTo64 (q.off + q.len))
  (starts.map (fun o => (⟨space, o, len⟩ : Region))).find? (regionFree s)

/-- Firmware gives out `len` bytes in one of the spaces: where is open, and it fails only if none of them has room. -/
def allocate (s : State) (spaces : List Nat) (len : Nat) : State × Option Region :=
  let (k, s) := freshNat s
  let n := Config.place k
  let want : Region := ⟨spaces.getD (n % spaces.length) 0, 64 * (n / spaces.length), len⟩
  let got := if regionFree s want then some want else (spaces.filterMap (fun sp => lowestFree s sp len)).head?
  match got with
  | none => (s, none)
  | some r => (modSo s (fun o => { o with regions := o.regions ++ [r] }), some r)

/-- The global address of a region. -/
def regionAddr (s : State) (r : Region) : Nat := (fabDev s).toNat * 2 ^ 48 + r.space * 2 ^ 44 + r.off

/-! ### Models (R503) -/

def placeModel (h : BitVec 6) (id : Word) (tier : Nat) (s : State) (img : List Byte) : State :=
  match allocate s [tier] (max 64 (upTo64 img.length)) with
  | (s, none) => failHole s h stNO_SPACE 0
  | (s, some r) =>
    match writeRun s (BitVec.ofNat 4 tier) r.off img with
    | (s, false) => failHole (modSo s (fun o => { o with regions := o.regions.erase r })) h stNO_SPACE 0
    | (s, true) =>
      let digest := sha384 img
      okHole (modSo s (fun o => { o with models := o.models ++ [⟨id, digest, r⟩] })) h
        (digest ++ leBytes 8 (regionAddr s r))

def cmdModelLoad (h : BitVec 6) (host : HostData) (s : State) : State :=
  let id : Word := BitVec.ofNat 32 (holeArg s h 0 4)
  let tier := holeArg s h 5 1
  if 2 < tier then badField s h 5
  else if s.so.models.any (fun m => m.id == id) then failHole s h stEXISTS 0
  else withSource s h (holeArg s h 4 1) (holeArg s h 8 8) (holeArg s h 16 8) 4 host (placeModel h id tier)

/-- MODEL_LOAD (R473, R503); one into space 0x1 is held while firmware holds such work (R574). -/
def execModelLoad (hole : BitVec 6) (host : HostData) (s : State) : Host.Outcome State Fault Refusal :=
  .next (if lpHolds s && holeArg s hole 5 1 == 1 then settleSo s else runHole s hole 0x30 (cmdModelLoad hole host))

/-- A plan names the model. -/
def planUses (p : Plan) (id : Word) : Bool :=
  (upFrom 0 (planModels p.image)).any (fun i => leAt p.image (64 + 4 * i) 4 == id.toNat)

def cmdModelEvict (h : BitVec 6) (s : State) : State :=
  let id : Word := BitVec.ofNat 32 (holeArg s h 0 4)
  match s.so.models.find? (fun m => m.id == id) with
  | none => failHole s h stNOT_FOUND 0
  | some m =>
    if s.so.plans.any (fun p => planUses p id) then failHole s h stIN_USE 0
    else okHole (modSo s (fun o => { o with models := o.models.erase m, regions := o.regions.erase m.place })) h []

/-- MODEL_EVICT (R499, R503). -/
def execModelEvict (hole : BitVec 6) (s : State) : Host.Outcome State Fault Refusal :=
  .next (runHole s hole 0x31 (cmdModelEvict hole))

/-! ### Plans (R508) -/

/-- The first failing test of a list: the offset it names. -/
def brokenField (l : List (Bool × Nat)) : Option Nat := (l.find? (·.1)).map (·.2)

/-- The first field of stage record `i` that breaks its table. -/
def stageFault (s : State) (img : List Byte) (i : Nat) : Option Nat :=
  let o := 64 + 4 * planModels img + 32 * i
  let f (a n : Nat) : Nat := leAt img (o + a) n
  brokenField (
    [(decide (f 2 2 < f 0 2 ∨ logicalCount s ≤ f 2 2), o), (decide (3 < f 4 1), o + 4),
     (decide (f 5 1 ≠ 0xFF ∧ planModels img ≤ f 5 1), o + 5), (f 6 1 != 0, o + 6), (f 7 1 != 0, o + 7),
     (decide (img.length < f 8 4 + f 12 4), o + 8), (decide (f 12 4 % 64 ≠ 0), o + 12),
     (decide (0x80000 < f 16 4 + f 12 4), o + 16), (decide (img.length < f 20 4 + 8 * f 24 2), o + 20),
     (f 26 2 != 0, o + 26)] ++
    (upFrom 0 (f 24 2)).map (fun k =>
      let a := f 20 4 + 8 * k
      (decide (leAt img a 4 % 4 ≠ 0 ∨ 0xA000 ≤ leAt img a 4), a)))

/-- The first field of a plan image that breaks the tables of R508, by its offset in the image. -/
def planFault (s : State) (img : List Byte) : Option Nat :=
  let f (a n : Nat) : Nat := leAt img a n
  let head := brokenField
    [(decide (img.length < 64) || slice img 0 4 != [0x46, 0x56, 0x32, 0x50], 0), (f 4 2 != 1, 4), (decide (2 < f 6 1), 6),
     (decide (3 < f 7 1), 7), (decide (f 8 2 ≠ 0 ∧ f 8 2 ≠ logicalCount s), 8), (decide (f 10 2 = 0 ∨ 256 < f 10 2), 10),
     (decide (64 < f 12 2), 12), (f 14 2 != 0, 14), (decide (8191 < f 16 2), 16), (decide (8191 < f 18 2), 18), (f 22 2 != 0, 22), (!allZero (slice img 32 32), 32),
     (decide (img.length < 64 + 4 * f 12 2 + 32 * f 10 2), 10)]
  match head with
  | some o => some o
  | none =>
    let models := brokenField ((upFrom 0 (planModels img)).map (fun i =>
      (!s.so.models.any (fun m => m.id.toNat == f (64 + 4 * i) 4), 64 + 4 * i)))
    match models with
    | some o => some o
    | none => ((upFrom 0 (planStages img)).filterMap (stageFault s img)).head?

/-- A plan goes: its code on the cores counts for nothing. -/
def deletePlan (s : State) (id : Word) : State :=
  modSo s (fun o =>
    { o with plans := o.plans.filter (fun p => p.id != id),
             code := o.code.filter (fun c => match c.2 with
               | some x => x.1 != id
               | none => true) })

def cmdPlanDefine (h : BitVec 6) (host : HostData) (s : State) : State :=
  let id : Word := BitVec.ofNat 32 (holeArg s h 0 4)
  let n := holeArg s h 16 4
  let known := (planOf s id).isSome
  if n = 0 then
    (if !known then failHole s h stNOT_FOUND 0
     else if s.so.parcels.any (fun p => p.plan == id && !isFinal p.st) then failHole s h stIN_USE 0
     else okHole (deletePlan s id) h [])
  else if known then failHole s h stEXISTS 0
  else withSource s h (holeArg s h 4 1) (holeArg s h 8 8) n 4 host (fun s img =>
    match planFault s img with
    | some o => badField s h o
    | none =>
      let digest := sha384 img
      okHole (modSo s (fun o => { o with plans := o.plans ++ [⟨id, img, digest⟩] })) h digest)

/-- PLAN_DEFINE (R503, R508). -/
def execPlanDefine (hole : BitVec 6) (host : HostData) (s : State) : Host.Outcome State Fault Refusal :=
  .next (runHole s hole 0x40 (cmdPlanDefine hole host))

/-! ### Parcels (R504, R507) -/

/-- The first field of descriptor `i` that breaks R504, by its offset among the descriptors. -/
def descFault (s : State) (ds : List Byte) (i : Nat) : Option Nat :=
  let f (a n : Nat) : Nat := leAt ds (32 * i + a) n
  let len := f 24 8
  brokenField
    ([(!(planOf s (BitVec.ofNat 32 (f 16 4))).isSome, 32 * i + 16)] ++
      (upFrom 20 4).map (fun o => (f o 1 != 0, 32 * i + o)) ++
      [(decide (len % 64 ≠ 0 ∨ len = 0 ∨ 2 ^ 34 + 65536 < len), 32 * i + 24)])

/-- Buffers for the descriptors from `i` on, or none. -/
def allocateAll (s : State) (ds : List Byte) : List Nat → State × Option (List Region)
  | [] => (s, some [])
  | i :: rest =>
    match allocate s [0, 2] (leAt ds (32 * i + 24) 8) with
    | (s, none) => (s, none)
    | (s, some r) =>
      match allocateAll s ds rest with
      | (s, none) => (s, none)
      | (s, some rs) => (s, some (r :: rs))

/-- The PENDING entry of descriptor `i` (R456, R504). -/
def pendingEntry (s : State) (ds : List Byte) (i : Nat) (r : Region) : PEntry :=
  { PEntry.reset with
    st := .pending, object := slice ds (32 * i) 16, buf := BitVec.ofNat 64 (regionAddr s r),
    bufLen := BitVec.ofNat 64 r.len }

/-- The parcel of descriptor `i`, in a table entry. -/
def newParcel (s : State) (ds : List Byte) (i e : Nat) (r : Region) (b : BitVec 16) : Parcel where
  uid := s.so.parcelCount
  bundle := b
  entry := e
  plan := BitVec.ofNat 32 (leAt ds (32 * i + 16) 4)
  buf := r
  st := .pending
  code := 0
  stage := 0
  sent := false
  cfg := []
  weights := []
  dbg := false
  tevent := false
  records := []
  lastSealed := false

/-- One descriptor of an accepted bundle: its index, entry and buffer. -/
def enterParcel (ds : List Byte) (b : BitVec 16) (s : State) (x : Nat × Nat × Region) : State :=
  let p := newParcel s ds x.1 x.2.1 x.2.2 b
  let s := ptSet s x.2.1 (pendingEntry s ds x.1 x.2.2)
  modSo s (fun o => { o with parcels := o.parcels ++ [p], parcelCount := o.parcelCount + 1 })

/-- The FREE entries of the parcel table, ascending. -/
def freeEntries (s : State) : List Nat := (upFrom 0 8192).filter (fun e => (ptGet s e).st == .free)

/-- A bundle of `n` descriptors (R504). -/
def acceptBundle (h : BitVec 6) (n : Nat) (s : State) (ds : List Byte) : State :=
  match ((upFrom 0 n).filterMap (descFault s ds)).head? with
  | some o => badField s h o
  | none =>
    let free := freeEntries s
    if free.length < n then failHole s h stNO_SPACE 0
    else
      let before := s.so.regions
      match allocateAll s ds (upFrom 0 n) with
      | (s, none) => failHole (modSo s (fun o => { o with regions := before })) h stNO_SPACE 0
      | (s, some rs) =>
        let b := s.so.lastBundle + 1
        let s := modSo s (fun o => { o with lastBundle := b })
        let s := ((upFrom 0 n).zip (free.zip rs)).foldl (enterParcel ds b) s
        okHole s h (leBytes 2 b.toNat ++ leBytes 2 n)

def cmdParcelBundle (h : BitVec 6) (host : HostData) (s : State) : State :=
  let n := holeArg s h 8 4
  if n = 0 ∨ 4096 < n then badField s h 8
  else withSource s h 0 (holeArg s h 0 8) (32 * n) 0 host (fun s ds => acceptBundle h n (landFetch s ds) ds)

/-- PARCEL_BUNDLE (R504). -/
def execParcelBundle (hole : BitVec 6) (host : HostData) (s : State) : Host.Outcome State Fault Refusal :=
  .next (runHole s hole 0x41 (cmdParcelBundle hole host))

def parcelStNat : ParcelSt → Nat
  | .pending => 0
  | .opened => 1
  | .running => 2
  | .done => 3
  | .rejected => 4
  | .failed => 5
  | .cancelled => 6

/-- The status word of a parcel (R507). -/
def parcelWord (p : Parcel) : Nat :=
  parcelStNat p.st * 4096 + (if p.st = .running then p.stage % 256 else p.code.toNat)

/-- The parcels of a bundle, in descriptor order. -/
def bundleOf (s : State) (b : BitVec 16) : List Parcel := s.so.parcels.filter (fun p => p.bundle == b)

def cmdParcelStatus (h : BitVec 6) (s : State) : State :=
  let b : BitVec 16 := BitVec.ofNat 16 (holeArg s h 0 2)
  let first := holeArg s h 2 2
  let n := holeArg s h 4 2
  let ctl := holeArg s h 6 1
  if n = 0 ∨ 2016 < n then badField s h 4
  else if 2 ≤ ctl then badField s h 6
  else
    let ps := bundleOf s b
    if ps = [] then failHole s h stNOT_FOUND 0
    else if ps.length ≤ first then badField s h 2
    else if ps.length < first + n then badField s h 4
    else
      let us := ((ps.drop first).take n).map (·.uid)
      let states (s : State) : List Byte := ((bundleOf s b).filter (fun p => us.contains p.uid)).flatMap (fun p =>
        leBytes 2 (parcelWord p))
      if ctl = 0 then okHole s h (states s)
      else
        let go := s.so.parcels.filter (fun p => us.contains p.uid && p.st == .pending)
        let s := go.foldl (fun s p => finishParcel s p.uid .cancelled 0) s
        okHole s h (states s)

/-- PARCEL_STATUS (R507). -/
def execParcelStatus (hole : BitVec 6) (s : State) : Host.Outcome State Fault Refusal :=
  .next (runHole s hole 0x42 (cmdParcelStatus hole))

end Sys2Proof.Machine
end

