-- ==== Sys2Proof/Machine/Service.lean ====
section
/-! DEFINITION. The commands on clusters, stacks, ports, routes, Night Mail and debug sessions, and METER_READ (R388, R430,
R448, R503, R510, R514, R515, R526, R561, R565 to R569, R575). -/
namespace Sys2Proof.Machine

/-! ### Drain and return (R565 to R569) -/

def cmdDrain (h : BitVec 6) (s : State) : State :=
  let m : BitVec 8 := BitVec.ofNat 8 (holeArg s h 0 1)
  let s := allClusters.foldl (fun s c =>
    if bitOf m c.val ∧ (getCl s c).service = .inService then modCl s c (fun k => { k with service := .draining }) else s) s
  modSo s (fun o => { o with drains := o.drains ++ [(h, m)] })

/-- CLUSTER_DRAIN (R565): it completes once every cluster of its mask is drained or unavailable. -/
def execClusterDrain (hole : BitVec 6) (s : State) : Host.Outcome State Fault Refusal :=
  .next (runHole s hole 0x50 (cmdDrain hole))

/-- A stage on a core of a draining cluster is forced out (R566). -/
def forceOut (s : State) (a : Nat × Nat) : State :=
  let s := match siteOf s a.1 with
    | some site => holdCore s site
    | none => s
  failParcel (modSo s (fun o =>
    { o with active := o.active.erase a, dispatch := o.dispatch.filter (fun j => j.core != a.1) })) a.2 0x10

/-- CLUSTER_DRAIN_TIMEOUT (R566): 10 s after the drain began. -/
def execClusterDrainTimeout (cluster : Fin 8) (s : State) : Host.Outcome State Fault Refusal :=
  let s := settleSo s
  if (getCl s cluster).service ≠ .draining then .next s
  else
    let all := s.so.active ++ s.so.dispatch.map (fun j => (j.core, j.uid))
    let here := all.filter (fun a => inCluster s cluster a.1)
    .next (settleSo (here.foldl forceOut s))

/-- The drained clusters of a mask return to service, in ascending order. -/
def returnAll (m : BitVec 8) (s : State) : State :=
  allClusters.foldl (fun s c => if bitOf m c.val && isDrained s c then (returnCluster s c).1 else s) s

def cmdReturn (h : BitVec 6) (s : State) : State :=
  let m : BitVec 8 := BitVec.ofNat 8 (holeArg s h 0 1)
  let s := returnAll m s
  let back := clusterMask (fun c => bitOf m c.val && (getCl s c).service == .inService)
  completeHole s h (if back = m then stOK else stUNAVAILABLE) 0 0 [back]

/-- CLUSTER_RETURN (R515, R569). -/
def execClusterReturn (hole : BitVec 6) (s : State) : Host.Outcome State Fault Refusal :=
  .next (runHole s hole 0x51 (cmdReturn hole))

/-! ### Operating points (R26, R27, R510) -/

def setPointsOf (h : BitVec 6) (s : State) : State :=
  let m := holeArg s h 0 1
  let p : BitVec 2 := BitVec.ofNat 2 (holeArg s h 1 1)
  let s := allClusters.foldl (fun s c => if maskBit m c.val then setReq s c p else s) s
  okHole s h (allClusters.map (fun c => (getCl s c).eff.setWidth 8))

def cmdOppoint (h : BitVec 6) (s : State) : State :=
  let ctl := holeArg s h 2 1
  let on := decide (2 ≤ ctl)
  if 3 < holeArg s h 1 1 then badField s h 1
  else if 3 < ctl then badField s h 2
  else if ctl % 2 = 0 then setPointsOf h s
  else if Config.grade512 then badField s h 2
  else match allClusters.find? (fun c => !isDrained s c) with
    | some c => failHole s h stNOT_DRAINED c.val
    | none => setPointsOf h (if on = s.compat512 then s else if on then setCompat s else clearCompat s)

/-- SET_OPPOINT (R26, R27, R510). -/
def execSetOppoint (hole : BitVec 6) (s : State) : Host.Outcome State Fault Refusal :=
  .next (runHole s hole 0x52 (cmdOppoint hole))

/-! ### Stack retirement (R388, R515) -/

def cmdHbmRetire (h : BitVec 6) (s : State) : State :=
  let k := holeArg s h 0 1
  let cfg := devGet s 0x40000
  if 15 < k then badField s h 0
  else if bits cfg 30 2 ≠ 0 then failHole s h stALREADY_RETIRED (bits cfg 0 4).toNat
  else
    let s := devSet (devSet s 0x40000 (0x40000000 ||| BitVec.ofNat 32 k)) 0x40004 0
    modSo s (fun o => { o with hbmHole := some h })

/-- HBM_RETIRE (R388, R515): it completes once the stack is RETIRED. -/
def execHbmRetire (hole : BitVec 6) (s : State) : Host.Outcome State Fault Refusal :=
  .next (runHole s hole 0x58 (cmdHbmRetire hole))

/-! ### Ports (R448, R575) -/

def holdPort (s : State) (p : Nat) (h : BitVec 6) : State := modPort s p (fun q => { q with hole := some h })

def cmdPortTrain (h : BitVec 6) (s : State) : State :=
  let p := holeArg s h 0 1
  let fast := holeArg s h 1 1
  let v : Word := BitVec.ofNat 32 (holeArg s h 4 4)
  if 15 < p then badField s h 0
  else if 1 < fast then badField s h 1
  else
    let cfg := if v = 0xFFFFFFFF then devGet s (portBase p) else (devReg (portBase p)).write (devGet s (portBase p)) v
    let mode := (bits cfg 30 2).toNat
    if mode ≠ 1 ∧ mode ≠ 2 then badField s h 4
    else
      let s := holdPort (devSet s (portBase p) cfg) p h
      let live := portState s p == 2 || portState s p == 3
      if live && fast == 0 then askQuiesce s p 1 else startTraining s p (fast == 1)

/-- PORT_TRAIN (R412, R575): it completes once the port is ACTIVE or FAILED. -/
def execPortTrain (hole : BitVec 6) (s : State) : Host.Outcome State Fault Refusal :=
  .next (runHole s hole 0x60 (cmdPortTrain hole))

def cmdPortRetire (h : BitVec 6) (s : State) : State :=
  let p := holeArg s h 0 1
  if 15 < p then badField s h 0
  else match portState s p with
    | 0 => portRetired (holdPort s p h) p
    | 5 => failHole s h stUNAVAILABLE 0
    | 6 => okHole s h []
    | _ => askQuiesce (holdPort s p h) p 2

/-- PORT_RETIRE (R448, R499, R576). -/
def execPortRetire (hole : BitVec 6) (s : State) : Host.Outcome State Fault Refusal :=
  .next (runHole s hole 0x61 (cmdPortRetire hole))

/-! ### Routes (R430, R514) -/

/-- An offset of the Routes block that ROUTE_LOAD writes. -/
def routeLoadable (o : Nat) : Bool :=
  o % 4 == 0 &&
    (o == 0x004 || decide (0x1000 ≤ o ∧ o < 0x1A00) || decide (0x2000 ≤ o ∧ o < 0x2400 ∧ o % 0x40 < 0x30) ||
      decide (0x8000 ≤ o ∧ o < 0x8400))

/-- A route entry is replaced: at once where no unit sent under it on its old port waits for its acknowledgement or the
port it chooses stays (R430). -/
def loadEntry (s : State) (o : Nat) (v : Word) : State :=
  let w := v &&& 0xC00000FF
  match chosenPort (devGet s o) with
  | none => switchEntry s o w
  | some p =>
    if chosenPort w = some p then switchEntry s o w
    else
      let s := holdUnder s o p
      if (getPort s p).replay.any (fun e => underEntry s o e.2.1) then
        { s with fab := { s.fab with routeHold := s.fab.routeHold.filter (fun x => x.1 != o) ++ [(o, w)] } }
      else switchEntry s o w

/-- The ports that a loaded entry names carry units of VC1 to VC7 again (R575). -/
def openNamed (s : State) (w : Word) : State :=
  let name (s : State) (valid lo : Nat) : State :=
    if bitOf w valid then modPort s (bits w lo 4).toNat (fun q => { q with shut := false }) else s
  name (name s 31 0) 30 4

/-- A record of ROUTE_LOAD: offset and value. -/
def loadRecord (s : State) (r : Nat × Word) : State :=
  if 0x1000 ≤ r.1 ∧ r.1 < 0x1A00 then loadEntry (openNamed s r.2) (0x70000 + r.1) r.2 else routesWrite s r.1 r.2

def cmdRouteLoad (h : BitVec 6) (s : State) : State :=
  let dev := holeArg s h 0 2
  let n := holeArg s h 2 2
  let recs := (upFrom 0 n).map (fun i => (holeArg s h (8 + 8 * i) 4, (BitVec.ofNat 32 (holeArg s h (12 + 8 * i) 4) : Word)))
  if 503 < n then badField s h 2
  else match recs.zipIdx.find? (fun r => !routeLoadable r.1.1) with
    | some r => badField s h (8 + 8 * r.2)
    | none =>
      let s := if dev = 0xFFFF then s else devSet s 0x70000 (BitVec.ofNat 32 dev)
      okHole (restartNew ((upFrom 0 16).foldl settlePort (recs.foldl loadRecord s))) h []

/-- ROUTE_LOAD (R430, R514). -/
def execRouteLoad (hole : BitVec 6) (s : State) : Host.Outcome State Fault Refusal :=
  .next (runHole s hole 0x62 (cmdRouteLoad hole))

/-! ### METER_READ (R561) -/

/-- The records of a kind: where the first lies in the mirror, how long one is, how many there are, and how many fit. -/
def meterKind (what : Nat) : Option (Nat × Nat × Nat × Nat) :=
  match what with
  | 0 => some (0x100, 32, 8, 8)
  | 1 => some (0x4000, 32, 1024, 126)
  | 2 => some (0xC000, 16, 1024, 252)
  | _ => none

def cmdMeterRead (h : BitVec 6) (s : State) : State :=
  let first := holeArg s h 2 2
  let n := holeArg s h 4 2
  match meterKind (holeArg s h 0 1) with
  | none => badField s h 0
  | some (base, size, total, most) =>
    if total ≤ first then badField s h 2
    else if most < n ∨ total < first + n then badField s h 4
    else okHole s h (frBytes s (base + size * first) (size * n))

/-- METER_READ (R503, R561). -/
def execMeterRead (hole : BitVec 6) (s : State) : Host.Outcome State Fault Refusal :=
  .next (runHole s hole 0x80 (cmdMeterRead hole))

/-! ### NIGHTMAIL_CONFIG (R526) -/

/-- A record's value lies in the range of its parameter. -/
def nmRecordOk (r : Nat × Nat) : Bool :=
  match nmRange r.1 with
  | some x => decide (x.lo ≤ r.2 ∧ r.2 ≤ x.hi)
  | none => false

def cmdNightmailConfig (h : BitVec 6) (s : State) : State :=
  let n := holeArg s h 0 2
  let recs := (upFrom 0 n).map (fun i => (holeArg s h (4 + 6 * i) 2, holeArg s h (6 + 6 * i) 4))
  if n = 0 ∨ 671 < n then badField s h 0
  else match recs.zipIdx.find? (fun r => !nmRecordOk r.1) with
    | some r => badField s h (4 + 6 * r.2)
    | none => okHole (modNm s (fun m => { m with pend := m.pend ++ recs })) h []

/-- NIGHTMAIL_CONFIG (R526). -/
def execNightmailConfig (hole : BitVec 6) (s : State) : Host.Outcome State Fault Refusal :=
  .next (runHole s hole 0x90 (cmdNightmailConfig hole))

/-! ### DEBUG_ATTACH (R514) -/

def cmdDebugAttach (h : BitVec 6) (s : State) : State :=
  let on := holeArg s h 0 1
  let m : BitVec 8 := BitVec.ofNat 8 (holeArg s h 1 1)
  if 1 < on then badField s h 0
  else
    let s := { s with dbgSession := if on = 1 then s.dbgSession ||| m else s.dbgSession &&& ~~~m }
    let runs := s.so.active ++ s.so.dispatch.map (fun j => (j.core, j.uid))
    let us := (runs.filter (fun a => bitOf s.dbgSession (clusterOfCore s a.1).val)).map (·.2)
    okHole (mapParcels s (fun p => if us.contains p.uid then { p with dbg := true } else p)) h [s.dbgSession]

/-- DEBUG_ATTACH (R371, R469, R514). -/
def execDebugAttach (hole : BitVec 6) (s : State) : Host.Outcome State Fault Refusal :=
  .next (runHole s hole 0xA0 (cmdDebugAttach hole))

end Sys2Proof.Machine
end

