-- ==== Sys2Proof/Machine/Trials.lean ====
section
/-! DEFINITION. Self-tests, calibrations and their tickets, and RESET_UNIT (R9, R393, R395, R503, R511, R512, R562 to R564,
R568, R574). -/
namespace Sys2Proof.Machine

/-! ### Requests (R511, R512) -/

/-- How many indices a unit code has, none for an unknown code; a unit without an index has byte 1 zero (R512). -/
def unitCount (code : Nat) : Option Nat :=
  if code = 0 ∨ 0x0B < code then none
  else if code = 2 ∨ code = 3 then some 8
  else if 4 ≤ code ∧ code ≤ 6 then some 16
  else some 1

/-- The unit that a request names is refused: status and DETAIL. -/
def unitFault (code index : Nat) : Option (BitVec 16 × Nat) :=
  if code = 0x0A then some (stDENIED, 0)
  else match unitCount code with
    | none => some (stBAD_FIELD, 0)
    | some n => if n ≤ index then some (stBAD_FIELD, 1) else none

/-- The stack is retiring or retired. -/
def stackGone (s : State) (k : Nat) : Bool :=
  bits (devGet s 0x40000) 30 2 != 0 && (bits (devGet s 0x40000) 0 4).toNat == k

/-- A test begins. CALIBRATE of a stack takes its next 256 refresh slots (R393). -/
def beginTest (s : State) (t : Test) : State :=
  if t.unit = 4 ∧ t.cal then { s with fab := { s.fab with slowSlots := tset scrubDefault s.fab.slowSlots t.index 256 } } else s

/-- A SELFTEST or CALIBRATE starts, or is deferred (R511, R563, R574). -/
def startTest (h : BitVec 6) (t : Test) (s : State) : State :=
  match unitFault t.unit t.index with
  | some r => failHole s h r.1 r.2
  | none =>
    if 1 < t.level then badField s h 2
    else if t.unit = 4 ∧ stackGone s t.index then failHole s h stUNAVAILABLE 0
    else if unitDrained s t.unit t.index ∨ (t.unit = 4 ∧ t.cal) then
      beginTest (modSo s (fun o => { o with tests := o.tests ++ [(h, t)] })) t
    else if 64 ≤ s.so.tickets.length then failHole s h stNO_SPACE 0
    else
      let n := s.so.nextTicket
      let s := modSo s (fun o => { o with tickets := o.tickets ++ [(n, t)], nextTicket := n + 1 })
      completeHole s h stDEFERRED 0 n []

def cmdSelftest (h : BitVec 6) (s : State) : State :=
  startTest h ⟨holeArg s h 0 1, holeArg s h 1 1, holeArg s h 2 1, false⟩ s

/-- SELFTEST (R511, R568). -/
def execSelftest (hole : BitVec 6) (s : State) : Host.Outcome State Fault Refusal :=
  .next (runHole s hole 0x70 (cmdSelftest hole))

def cmdCalibrate (h : BitVec 6) (s : State) : State := startTest h ⟨holeArg s h 0 1, holeArg s h 1 1, 0, true⟩ s

/-- CALIBRATE (R393, R511, R574). -/
def execCalibrate (hole : BitVec 6) (s : State) : Host.Outcome State Fault Refusal :=
  .next (runHole s hole 0x71 (cmdCalibrate hole))

/-! ### Outcomes (R395, R568) -/

/-- The sites newly found faulty in the tested cluster: a powered router, the core of an enabled site. A site already marked for
its core counts again when its router fails (R568). -/
def newFaulty (s : State) (c : Nat) (out : TestOutcome) : List (Nat × Bool) :=
  let fresh (f : Nat × Bool) : Bool :=
    decide (f.1 / 72 = c) && siteSt s.siteState f.1 != .hole && (f.2 || siteSt s.siteState f.1 == .enabled) &&
      !s.so.marks.any (fun m => m.1 == f.1 && (m.2 || !f.2))
  let fs := out.faulty.filter fresh
  ((fs.map (·.1)).eraseDups).map (fun x => (x, fs.any (fun f => f.1 == x && f.2)))

/-- The test of a cluster ends (R568). -/
def clusterOutcome (s : State) (t : Test) (out : TestOutcome) : State × BitVec 16 × Word :=
  let bad := newFaulty s t.index out
  let s := modSo s (fun o => { o with marks := o.marks ++ bad })
  let s := if t.level = 1 then
      (clusterSites s (Fin.ofNat 8 t.index)).foldl (fun s x => modCore s x (fun c => { c with mem := Mem.empty })) s
    else s
  match bad with
  | [] => (s, stOK, 0)
  | f :: rest =>
    (s, stTEST_FAILED, BitVec.ofNat 32 (bad.length * 65536 + rest.foldl (fun m x => min m x.1) f.1))

/-- An access that waited for the tier is served; one that addresses space 0x1 is logged (R574, R585). -/
def serveOne (s : State) (x : LpWait) : State :=
  match x with
  | .unit u =>
    applyUnit (if lpAccess u then timingEvent s 5 (lpPackage (64 * u.unit.toNat)) else s) u
  | .access off write link => serveLp (timingEvent s 5 (lpPackage (64 * (off / 64)))) off write link

/-- What waited for the tier is served in the order of its arrival (R574). -/
def serveHeld (s : State) : State :=
  if lpCalibrating s then s
  else s.fab.lpHeld.foldl serveOne { s with fab := { s.fab with lpHeld := [] } }

/-- A test ends: its effects, status and DETAIL. One of a stack that retires is UNAVAILABLE (R574); a CALIBRATE that passes leaves FAILED as it is (R395; log 144, DESIGN CHOICE). -/
def testOutcome (s : State) (t : Test) (out : TestOutcome) : State × BitVec 16 × Word :=
  if t.unit = 2 then clusterOutcome s t out
  else if t.unit = 4 ∧ stackGone s t.index then (s, stUNAVAILABLE, 0)
  else if out.pass then (s, stOK, 0)
  else
    let s := if t.unit = 5 ∧ t.cal then
        devSet s 0x50000 ((devGet s 0x50000 &&& 0x7FFFFFFF) ||| oneAt 32 t.index)
      else s
    (s, stTEST_FAILED, out.detail)

/-- The result word of a test: 0 for a pass, and a free value other than 0 for a failure (R503). -/
def resultWord (s : State) (st : BitVec 16) : State × Word :=
  if st = stOK then (s, 0)
  else
    let (k, s) := freshNat s
    (s, if Config.eventWords k = 0 then 1 else Config.eventWords k)

/-- The lengthened slots of a stack's calibration are not over (R393). -/
def stillSlow (s : State) (t : Test) : Bool := t.unit == 4 && t.cal && tget scrubDefault s.fab.slowSlots t.index != 0

/-- TEST_COMPLETE (R511, R568, R574): the test that a hole's command started ends, and the command with it. -/
def execTestComplete (hole : BitVec 6) (out : TestOutcome) (s : State) : Host.Outcome State Fault Refusal :=
  match s.so.tests.find? (fun t => t.1 == hole) with
  | none => .next s
  | some (h, t) =>
    if stillSlow s t then .next s
    else
      let (s, st, detail) := testOutcome (modSo s (fun o => { o with tests := o.tests.erase (h, t) })) t out
      let (s, r) := resultWord s st
      let s := completeHole s h st detail 0 (leBytes 4 r.toNat ++ leBytes 4 detail.toNat)
      .next (settleSo (serveHeld s))

/-- The waiting ticket whose turn it is on its unit: it is drained, no earlier ticket names the unit, and neither a started
command nor a running test holds it (R563). -/
def ticketTurn (s : State) (t : Word × Test) : Bool :=
  let us := testUnits t.2
  ticketReady s t.2 &&
    (s.so.tickets.takeWhile (fun x => x.1 != t.1)).all (fun x => !shareUnit (testUnits x.2) us) &&
    s.so.running.all (fun x => !shareUnit (testUnits x.2) us) &&
    s.so.busy.all (fun b => !(b.started && shareUnit (cmdUnits s b.hole) us))

/-- The TICKET_DONE event of a ticket (R501, R511). -/
def ticketEvent (s : State) (ticket : Word) (st : BitVec 16) (detail : Word) : State :=
  pushEvent s 0x0002 (bits ticket 0 16) (0#16 ++ (detail ++ st : BitVec 48))

/-- TICKET_START (R563). The ticket of a stack that is retiring or retired ends at once as UNAVAILABLE (R574). -/
def execTicketStart (ticket : BitVec 32) (s : State) : Host.Outcome State Fault Refusal :=
  let s := settleSo s
  match s.so.tickets.find? (fun t => t.1 == ticket) with
  | none => .next s
  | some t =>
    if !ticketTurn s t then .next s
    else if t.2.unit = 4 ∧ stackGone s t.2.index then
      .next (ticketEvent (modSo s (fun o => { o with tickets := o.tickets.erase t })) ticket stUNAVAILABLE 0)
    else
      .next (beginTest (modSo s (fun o => { o with tickets := o.tickets.erase t, running := o.running ++ [t] })) t.2)

/-- TICKET_DONE (R501, R511). -/
def execTicketDone (ticket : BitVec 32) (out : TestOutcome) (s : State) : Host.Outcome State Fault Refusal :=
  match s.so.running.find? (fun t => t.1 == ticket) with
  | none => .next s
  | some t =>
    let (s, st, detail) := testOutcome (modSo s (fun o => { o with running := o.running.erase t })) t.2 out
    .next (settleSo (serveHeld (ticketEvent s ticket st detail)))

/-! ### RESET_UNIT (R9, R512) -/

/-- The registers of device CSR space from `lo` to below `hi` take their reset values. -/
def resetRegs (s : State) (lo hi : Nat) : State := { s with dev := s.dev.filter (fun r => decide (r.1 < lo ∨ hi ≤ r.1)) }

/-- A cluster: its cores are held in reset, which ends their halts, and its registers take their reset values; what they
report of its service, power and points is not theirs to reset. -/
def resetCluster (s : State) (c : Fin 8) : State :=
  let s := modCl (holdCluster s c) c (fun k => { k with csrErr := false })
  resetRegs (resetRegs s (clBase c) (clBase c + 0x100)) (0x10800 + 16 * c.val) (0x10810 + 16 * c.val)

/-- A courier block. -/
def resetCouriers (s : State) (c : Nat) : State :=
  let s := resetRegs s (0x20000 + 0x2000 * c) (0x20000 + 0x2000 * (c + 1))
  { s with channels := s.channels.filter (fun x => x.1 / 16 != c), lastGrant := s.lastGrant.filter (fun x => x.1 / 4 != c) }

/-- The HBM block: the retirement and its remap are kept (R392). -/
def resetHbm (s : State) : State :=
  let s := resetRegs s 0x40008 0x40100
  (upFrom 0 16).foldl (fun s k => devSet s (0x40100 + 4 * k) (devGet s (0x40100 + 4 * k) &&& 0x40000000)) s

/-- A port: it is DOWN with MODE off, and the units that waited in it are handled by their entries (R428, R437). -/
def resetPort (s : State) (p : Nat) : State :=
  let q := getPort s p
  let units := replayUnits q ++ q.resent ++ q.txq
  let s := modPort (resetRegs s (portBase p) (portBase p + 0x1000)) p (fun _ => { Port.reset with hole := q.hole })
  units.foldl (fun s u => moveUnit s p u) s

/-- The Routes block with the mesh routes and the trees; what waited for an entry to switch goes on. -/
def resetRoutes (s : State) : State :=
  let s := resetRegs s 0x70000 0x80000
  flushWaiting { s with rounds := [], fab := { s.fab with trees := [], routeHold := [] } }

/-- The ACTIVATE of a hand-over has ended: steps 2 to 4 of R572. -/
def endHandover (s : State) (h : BitVec 6) : State :=
  let v := (activeImage s 1).version
  let s := modSo s (fun o => { o with version := v, hand := 0, switched := 0, handHole := none })
  okHole s h (leBytes 4 v.toNat)

/-- A command of a pigeonhole that the reset of the sealing block cuts off: a retire has its slot EMPTY and completes, and any
other completes with UNAVAILABLE (DESIGN CHOICE, log 117). -/
def cutHole (s : State) (hole : Option (BitVec 6)) (done : Bool) : State :=
  match hole with
  | none => s
  | some h => if done then okHole s h [] else failHole s h stUNAVAILABLE 0

def cutKey (s : State) (c : KsCmd) : State :=
  match c with
  | .importKey _ _ hole => cutHole s hole false
  | .retire _ hole => cutHole s hole true

/-- A firmware command is cut off; the ACTIVATE of a hand-over has no batch left to close and ends. -/
def cutFw (s : State) (c : FwCmd) : State :=
  match c with
  | .verify _ _ hole => cutHole s hole false
  | .activate kind hole =>
    match hole with
    | none => s
    | some h =>
      let s := modSeal s (fun b =>
        { b with active := match tget imageDefault b.lastValid kind with
                   | some i => tset imageDefault b.active kind (some i)
                   | none => b.active })
      endHandover s h

/-- The ingest and sealing block: every key slot is EMPTY, its registers take their reset values, and no key command, report or
firmware command runs in it any more (R465, R483). -/
def resetSealing (s : State) : State :=
  let s := resetRegs s 0x80000 0x90000
  let b := s.so.sealing
  let s := modSeal s (fun b =>
    { b with ks := [], lost := [], cache := [], ksRun := [], ksRes := 0, doorLo := 0, batch := ⟨0, [], []⟩, closeDue := false,
             att := [], fw := [], fwRes := 0 })
  let s := b.ksRun.foldl cutKey s
  let s := b.att.foldl (fun s a => cutHole s a.hole false) s
  b.fw.foldl cutFw s

/-- Night Mail reloads its active image; without one it starts again from its ROM. -/
def resetNightMail (h : BitVec 6) (s : State) : State :=
  match s.nm.image with
  | some x => reloadNm (modSo s (fun o => { o with nmHole := some h })) (some x)
  | none => okHole s h []

def cmdResetUnit (h : BitVec 6) (s : State) : State :=
  let code := holeArg s h 0 1
  let i := holeArg s h 1 1
  match unitFault code i with
  | some r => failHole s h r.1 r.2
  | none =>
    if !unitDrained s code i then failHole s h stNOT_DRAINED i
    else match code with
      | 0x02 => okHole (resetCluster s (Fin.ofNat 8 i)) h []
      | 0x03 => okHole (resetCouriers s i) h []
      | 0x04 => okHole (resetHbm s) h []
      | 0x05 => okHole (resetRegs s 0x50000 0x60000) h []
      | 0x06 => okHole (resetPort s i) h []
      | 0x07 => okHole (resetRoutes s) h []
      | 0x08 => okHole (resetSealing s) h []
      | 0x09 => resetNightMail h s
      | 0x0B => okHole (modSo s (fun o => { o with nextTicket := 0 })) h []
      | _ => okHole s h []

/-- RESET_UNIT (R9, R23, R24, R392, R465, R511, R512, R577, R606). -/
def execResetUnit (hole : BitVec 6) (s : State) : Host.Outcome State Fault Refusal :=
  .next (runHole s hole 0xB0 (cmdResetUnit hole))

end Sys2Proof.Machine
end

