-- ==== Sys2Proof/Machine/Handover.lean ====
section
/-! DEFINITION. Resets of the PCI Express function, the end of firmware commands, the hand-over of the control cores, and the
reload of Night Mail (R482, R496, R513, R570 to R573, R577). -/
namespace Sys2Proof.Machine

/-! ### The PCI Express function (R496, R592) -/

/-- Every MSI-X vector is masked. -/
def maskVectors (s : State) : State :=
  (upFrom 0 64).foldl (fun s v => barPut s (16 * v + 12) [BitVec.ofNat 8 (barNat s (16 * v + 12) 1) ||| 1]) s

/-- A reset of the function: vectors masked, EVT_CONS and EVT_CFG zero, the session ended, and the commands in progress
quiet. -/
def resetFunction (s : State) : State :=
  let s := barPut (maskVectors s) 0x804 (List.replicate 8 0)
  modSo s (fun o => { o with open_ := false, busy := o.busy.map (fun b => { b with quiet := true }) })

/-- FUNCTION_RESET (R496). -/
def execFunctionReset (s : State) : Host.Outcome State Fault Refusal := .next (resetFunction s)

/-- PERST (R592): the effects of a hot reset. -/
def execPerst (s : State) : Host.Outcome State Fault Refusal := .next (resetFunction s)

/-! ### Firmware commands (R482, R513, R572) -/

/-- What LOAD_FIRMWARE answers (R503). -/
def imageAnswer (code : Byte) (x : Image) : List Byte :=
  [code, 0, 0, 0] ++ leBytes 4 x.version.toNat ++ leBytes 4 x.svn.toNat ++ x.digest

/-- The VERIFY of a LOAD_FIRMWARE has ended with FW_STAT.RESULT: a valid image is staged (R513). -/
def endLoad (s : State) (h : BitVec 6) (kind : Nat) (img : List Byte) : State :=
  let r := s.so.sealing.fwRes
  let x := imageOf img
  let s := modSo s (fun o =>
    { o with staged := tset imageDefault o.staged kind (if r = 0 then some x else none),
             stagedFr := if kind = 3 then (if r = 0 then img else []) else o.stagedFr })
  if r = 0 then okHole s h (imageAnswer r x) else completeHole s h stFW_INVALID (r.setWidth 32) 0 (imageAnswer r x)

/-- FW_COMMAND_DONE (R482): an ACTIVATE of a Sorting Office image ends only after the open batch has closed. -/
def execFwCommandDone (s : State) : Host.Outcome State Fault Refusal :=
  match s.so.sealing.fw with
  | [] => .next s
  | cmd :: _ =>
    match endFw s with
    | none => .next s
    | some s' =>
      match cmd with
      | .verify kind img (some h) => .next (settleSo (endLoad s' h kind img))
      | .activate _ (some h) => .next (settleSo (endHandover s' h))
      | _ => .next s'

/-! ### The hand-over (R571 to R573) -/

/-- The L1 data cache of control core `k` is cleaned. -/
def cleanCore (s : State) (k : Nat) : State :=
  ((s.so.l1.map (·.1)).filter (fun i => i / 512 == k)).foldl cleanL1 s

/-- Control core `k` starts at 0x0000_0000 (R486). -/
def startSo (s : State) (k : Nat) : State :=
  setCore s (576 + k)
    { Core.resetSo with
      th := Core.resetSo.th.set 0 { Thread.resetSo with st := .running }, held := false, cycBase := clockOf s (576 + k) }

/-- Control core `k` restarts: it cleans its cache first. -/
def restartSo (s : State) (k : Nat) : State := startSo (cleanCore s k) k

/-- SO_CORE_RESTART (R571 to R573): in ascending order, each core starts the staged image, or fails its start check, which
reverses the hand-over. -/
def execSoCoreRestart (k : Fin 4) (ok : Bool) (s : State) : Host.Outcome State Fault Refusal :=
  let turn : BitVec 4 := oneAt 4 k.val - 1
  if s.so.hand ≠ 1 ∨ s.so.switched ≠ turn then .next s
  else
    let s := restartSo s k.val
    if !ok then
      .next (modSo s (fun o => { o with hand := 2, handFail := some k.val, toRevert := (upFrom 0 (k.val + 1)).reverse }))
    else
      let s := modSo s (fun o => { o with switched := o.switched ||| oneAt 4 k.val })
      .next (if k = 3 then modSeal s (fun b => { b with fw := b.fw ++ [.activate 1 s.so.handHole] }) else s)

/-- The image that ran before the hand-over, which is still the active one: the slot that it was read from, where none has been
activated since (R482, R573). -/
def oldImage (s : State) : Option Image :=
  match tget (fun _ => (none : Option Image)) s.so.sealing.active 1 with
  | some x => some x
  | none => slotImage s 1

/-- The hand-over has been reversed (R573). -/
def endRevert (s : State) : State :=
  let n := s.so.handFail.getD 0
  let s := setSlot s 0 (oldImage s)
  let hole := s.so.handHole
  let s := modSo s (fun o => { o with hand := 0, switched := 0, handHole := none, handFail := none })
  match hole with
  | some h => failHole s h stTEST_FAILED (0x200 + n)
  | none => s

/-- HANDOVER_REVERT (R573): in descending order, each core that started the staged image restarts from the old one. -/
def execHandoverRevert (k : Fin 4) (s : State) : Host.Outcome State Fault Refusal :=
  if s.so.hand ≠ 2 then .next s
  else match s.so.toRevert with
    | [] => .next s
    | j :: rest =>
      if j ≠ k.val then .next s
      else
        let s := modSo (restartSo s k.val) (fun o => { o with toRevert := rest, switched := o.switched &&& ~~~(oneAt 4 k.val) })
        .next (if rest = [] then settleSo (endRevert s) else s)

/-! ### Night Mail's reload (R577) -/

/-- The command that waits for the reload completes. -/
def reloadHole (s : State) (ok : Bool) : State :=
  match s.so.nmHole with
  | none => s
  | some h =>
    let s := modSo s (fun o => { o with nmHole := none })
    if ok then
      (if holeCmd s h = 0x11 then okHole s h (leBytes 4 (activeImage s 2).version.toNat) else okHole s h [])
    else
      let (k, s) := freshNat s
      completeHole s h stTEST_FAILED (Config.eventWords k) 0 []

/-- Night Mail starts an image: FIRMWARE mode, fresh filters, and event 0x08 (R518, R545, R577). -/
def startNm (s : State) (x : Image) : State :=
  nmEventOpen (modNm s (fun n => { freshFilters n with mode := .firmware, image := some x, loading := none })) 0x08

/-- The active Night Mail image is `x`, now and at the next bring-up (R539, R577). -/
def setActiveNm (s : State) (x : Image) : State :=
  modSeal { s with flash := { s.flash with nightMail := some x } } (fun b =>
    { b with active := tset imageDefault b.active 2 (some x) })

/-- NIGHT_MAIL_RELOAD_DONE (R577): the loaded image starts, or fails its start check, and then the previous image is loaded
in the same way. -/
def execNightMailReloadDone (ok : Bool) (s : State) : Host.Outcome State Fault Refusal :=
  if s.nm.mode ≠ .reloading then .next s
  else match s.nm.loading, s.nm.image with
    | some x, _ =>
      if ok then .next (settleSo (reloadHole (setActiveNm (startNm s x) x) true))
      else .next (modNm s (fun n => { n with loading := none }))
    | none, some old => .next (if ok then settleSo (reloadHole (startNm s old) false) else s)
    | none, none => .next (settleSo (reloadHole (nmEventOpen (modNm s (fun n => { n with mode := .rom })) 0x07) false))

end Sys2Proof.Machine
end

