-- ==== Sys2Proof/Machine/Bringup.lean ====
section
/-! DEFINITION. The module's pins and management target, its modes, and bring-up (R18, R19, R27, R388, R434, R523, R535, R537,
R539 to R541, R592, R593, R595, R596, R599, R603, R607). -/
namespace Sys2Proof.Machine

def modMod (s : State) (f : Module → Module) : State := { s with mod := f s.mod }

/-! ### The output pins (R591), by level: true is high, or open -/

/-- PRSNT# is tied to ground. -/
def prsntPin (_ : State) : Bool := false

/-- LEAK# is low while either trace is asserted, whatever the module's mode (R603). -/
def leakPin (s : State) : Bool := !(s.mod.leak0 || s.mod.leak1)

/-- SHDN# is low while the module is in SHUTDOWN (R523). -/
def shdnPin (s : State) : Bool := s.mod.mode != .shutdown

/-! ### The input and the reset pins (R592, R595, R599, R603) -/

/-- BROWNOUT (R599): SHUTDOWN, recorded without an input of Night Mail; not while MRST# is low (log 145, DESIGN CHOICE). -/
def execBrownout (s : State) : Host.Outcome State Fault Refusal := .next (if s.mod.mrst then shutDown s none false else s)

/-- OVERVOLTAGE (R599): SHUTDOWN, and the Franking die commits. -/
def execOvervoltage (s : State) : Host.Outcome State Fault Refusal :=
  let s := if s.fr.powered then modFr s commitFr else s
  .next (if s.mod.mrst then shutDown s none false else s)

/-- REFCLK25_LOSS (R595): SHUTDOWN if the module runs from REFCLK25. -/
def execRefclk25Loss (s : State) : Host.Outcome State Fault Refusal :=
  .next (if s.mod.mrst ∧ s.mod.refExt then shutDown s none false else s)

/-- LEAK_TRACE_CHANGE (R603): LEAK# follows the raw traces; out of reset the management target reports it (R596), and a reset that
SHUTDOWN holds goes on once both traces are clear (R523). -/
def execLeakTraceChange (trace : Fin 2) (asserted : Bool) (s : State) : Host.Outcome State Fault Refusal :=
  let l0 := if trace = 0 then asserted else s.mod.leak0
  let l1 := if trace = 1 then asserted else s.mod.leak1
  .next (if s.mod.mrst then releaseHeld (setLeaks s l0 l1) else modMod s (fun m => { m with leak0 := l0, leak1 := l1 }))

/-- MRST_LOW (R592): everything outside the Franking die is lost; in SHUTDOWN, Night Mail's record stays (R523). -/
def execMrstLow (s : State) : Host.Outcome State Fault Refusal :=
  if !s.mod.mrst then .next s
  else if s.mod.mode = .shutdown then .next (modMod s (fun m => { m with mrst := false, waitInput := false, held := false }))
  else
    .next { darkState s with
      mod := { Module.reset with
        mrst := false, started := false, slot := s.mod.slot, refExt := s.mod.refExt, leak0 := s.mod.leak0,
        leak1 := s.mod.leak1 } }

/-- Reset has been released and the input is within its range: bring-up starts, or is held in SHUTDOWN (R523, R592). -/
def afterRelease (s : State) : State :=
  if s.mod.mode = .shutdown then
    (if mayRestart s then leaveShutdown s else modMod s (fun m => { m with held := true, waitInput := false }))
  else startBringup s

/-- MRST_RISE (R592, R593, R595): the straps and the reference are sampled. -/
def execMrstRise (slot : BitVec 4) (refclk25 settled : Bool) (s : State) : Host.Outcome State Fault Refusal :=
  if s.mod.mrst then .next s
  else
    let s := modMod s (fun m => { m with mrst := true, slot := slot, refExt := refclk25, waitInput := !settled })
    .next (if settled then afterRelease s else s)

/-- INPUT_IN_OPERATING_RANGE (R592): for at least 20 ms. -/
def execInputInOperatingRange (s : State) : Host.Outcome State Fault Refusal :=
  .next (if s.mod.mrst ∧ s.mod.waitInput then afterRelease s else s)

/-! ### The management target (R535, R596) -/

def modeCode : ModMode → Byte
  | .active => 0
  | .dormant => 1
  | .shutdown => 2

/-- The phase that STATUS reports. -/
def phaseCode (s : State) : Byte := if s.mod.started then BitVec.ofNat 8 (phaseOf s) else 0

def statusBytes (s : State) : List Byte :=
  [modeCode s.mod.mode, s.nm.pump.setWidth 8, ofBool 8 s.mod.leak0 ||| (ofBool 8 s.mod.leak1 <<< 1), phaseCode s] ++
    leBytes 2 (BitVec.ofInt 16 (filtOf s.nm 54)).toNat

def answerI3c (s : State) (bs : List Byte) : State := { s with outbox := s.outbox ++ [.i3c bs] }

/-- I3C_STATUS (R596). -/
def execI3cStatus (s : State) : Host.Outcome State Fault Refusal :=
  .next (if s.mod.mrst then answerI3c s (statusBytes s) else s)

/-- DORMANT is accepted: every cluster is drained, no envelope is open and no seal job is queued (R535). -/
def mayDormant (s : State) : Bool :=
  allClusters.all (isDrained s) && (upFrom 0 32).all (fun p => (getPipe s p).isNone) && s.so.sealing.jobs.isEmpty

/-- In DORMANT only Night Mail and the Franking die run; the external memories keep their contents in self-refresh. -/
def enterDormant (s : State) : State :=
  let f := s.fab
  let t := { darkState s with
    nm := s.nm
    fab := { Fabric.reset with hbm := f.hbm, lp := f.lp, hbmFix := f.hbmFix, lpFix := f.lpFix }
    mod := { s.mod with mode := .dormant, started := false, phase := 0, service := 0, hbmBad := false, tevents := 0, hubSeq := 0 } }
  (upFrom 0 16).foldl (fun t k => devSet (devSet t (0x40100 + 4 * k) 0x80000000) (0x50100 + 4 * k) 0x80000000) t

/-- DORMANT (R535, R596). -/
def execDormant (s : State) : Host.Outcome State Fault Refusal :=
  if !s.mod.mrst then .next s
  else if s.mod.mode ≠ .active then .next (answerI3c s [2])
  else if !mayDormant s then .next (answerI3c s [1])
  else .next (answerI3c (inBand (enterDormant s)) [0])

/-! ### Bring-up (R539 to R541) -/

/-- The fuses give the map of sites and the numbering of the logical cores (R18 to R20). A map that breaks
R255 keeps its numbering, though every cluster is unavailable (R607; DESIGN CHOICE, log 153). -/
def loadFuses (s : State) : State :=
  let e := if Config.grade512 then 64 else 68
  { s with siteState := loadedMap e, perCluster := e, compat512 := false, coreSite := formNumbering (loadedMap e) e }

/-- The hub die has left reset: a START frame leaves on the report link, twice like every frame (R552). -/
def hubUp (s : State) : State := { s with outbox := s.outbox ++ [.hubStart, .hubStart] }

/-- WAKE (R535, R545, R596): bring-up starts at phase B; but for the external memories everything is as after power-up, and Night
Mail enters ROM mode. -/
def execWake (s : State) : Host.Outcome State Fault Refusal :=
  if !s.mod.mrst then .next s
  else if s.mod.mode ≠ .dormant then .next (answerI3c s [2])
  else
    let f := s.fab
    let t := loadFuses { darkState s with
      fab := { Fabric.reset with hbm := f.hbm, lp := f.lp, hbmFix := f.hbmFix, lpFix := f.lpFix }
      mod := { s.mod with mode := .active, started := true, phase := 1 } }
    .next (answerI3c (inBand (nmEventOpen (hubUp t) 0x07)) [0])

/-- Bring-up has ended phase `p`, and the next one runs. -/
def inPhase (s : State) (p : Nat) : Bool := s.mod.started && s.mod.mode == .active && s.mod.phase == p

/-- A SHUTDOWN that has not been reported is reported (R523, R545). -/
def reportCause (s : State) : State :=
  match s.nm.cause with
  | none => s
  | some c =>
    let s := modNm s (fun n => { n with cause := none })
    match c with
    | some (i, v) => nmEvent s 0x0A 0 (BitVec.ofNat 8 i) (BitVec.ofInt 16 v)
    | none => nmEventOpen s 0x0A

/-- BRINGUP_PHASE_A (R20, R523, R537, R545, R552, R607): the phase ends. -/
def execBringupPhaseA (s : State) : Host.Outcome State Fault Refusal :=
  if !inPhase s 0 then .next s
  else
    let s := modMod { loadFuses s with meshCycle := 0 } (fun m => { m with phase := 1 })
    .next (reportCause (nmEventOpen (hubUp s) 0x07))

/-- The image that boots: slot A, then slot B (R539). -/
def bootImage (s : State) : Option Image :=
  match slotImage s 0 with
  | some x => some x
  | none => slotImage s 1

/-- The active Night Mail image (R539). -/
def bootNm (s : State) : Image :=
  match s.flash.nightMail with
  | some x => x
  | none => ⟨Config.nightMailImage.1, Config.nightMailImage.2.1, digestOf Config.nightMailImage.2.2⟩

/-- PCIe is up and doorbells are taken, with a level of service (R495, R498, R540). -/
def serve (s : State) (phase service : Nat) : State :=
  modMod (modSo s (fun o => { o with ready := true })) (fun m => { m with phase := phase, service := service })

/-- The control cores run. -/
def startCores (s : State) : State := (upFrom 0 4).foldl startSo s

/-- The Sorting Office image starts: VERSION, the active measurements, Night Mail's image and the restart epoch (R482, R539,
R579). -/
def bootSo (s : State) (x : Image) : State :=
  let s := modSo (startCores s) (fun o => { o with version := x.version })
  let s := modSeal s (fun b => { b with active := tset imageDefault b.active 1 (some x) })
  let y := bootNm s
  let s := modSeal (startNm s y) (fun b => { b with active := tset imageDefault b.active 2 (some y) })
  { s with fab := { s.fab with epoch := s.flash.epoch.getD Config.flashEpoch } }

/-- BRINGUP_PHASE_B (R539, R541, R607): without an image that verifies, or with holes that break R255, the part stays here
with reduced service and no clusters. -/
def execBringupPhaseB (s : State) : Host.Outcome State Fault Refusal :=
  if !inPhase s 1 || s.mod.service != 0 then .next s
  else match bootImage s with
    | none => .next (serve (startCores s) 1 1)
    | some x =>
      let s := bootSo s x
      .next (if holesOk s.siteState then modMod s (fun m => { m with phase := 2 }) else serve s 1 1)

/-- The cluster has its logical cores (R607). -/
def hasCores (s : State) (c : Fin 8) : Bool := (siteOf s (c.val * s.perCluster)).isSome

/-- A cluster is brought to RUN. -/
def bringUp (s : State) (c : Fin 8) : State := if hasCores s c then modCl s c (fun k => { k with power := .run }) else s

/-- A cluster enters service. -/
def intoService (s : State) (c : Fin 8) : State :=
  if hasCores s c then modCl s c (fun k => { k with service := .inService }) else s

/-- BRINGUP_PHASE_C (R539, R540). -/
def execBringupPhaseC (s : State) : Host.Outcome State Fault Refusal :=
  if !inPhase s 2 || s.mod.service != 0 then .next s
  else .next (serve (([0, 4] : List (Fin 8)).foldl (fun s c => intoService (bringUp s c) c) s) 3 1)

/-- A stack that the calibration record lists as retired stays so (R388, R392). -/
def restoreRetired (s : State) : State :=
  match s.flash.retired with
  | none => s
  | some k =>
    devSet (devSet (devSet s 0x40000 (0x80000000 ||| BitVec.ofNat 32 k)) 0x40004 8847360) (0x40100 + 4 * k) 0x40000000

/-- A stack that failed training is reported; under which type, and with which data, is open (R541). -/
def reportStack (s : State) (k : Nat) : State :=
  let (a, s) := freshNat s
  let (b, s) := freshNat s
  pushEvent s Config.trainFailEvent (BitVec.ofNat 16 k) (Config.eventWords b ++ Config.eventWords a)

/-- The clusters that phase D brings to RUN and full service into service; clusters 0 and 4 are in service since phase C
(R539, R540). -/
def otherClusters : List (Fin 8) := [1, 2, 3, 5, 6, 7]

/-- BRINGUP_PHASE_D (R392, R395, R539, R541): the part stays in this phase where a stack fails. `hbmFail` and `lpFail` are the stacks and packages that fail training. -/
def execBringupPhaseD (hbmFail lpFail : BitVec 16) (s : State) : Host.Outcome State Fault Refusal :=
  if !inPhase s 3 || s.mod.hbmBad then .next s
  else
    let bad := (upFrom 0 16).filter (fun k => bitOf hbmFail k && s.flash.retired != some k)
    let s := restoreRetired s
    let s := devSet s 0x50000 (if lpFail = 0 then 0x80000000 else lpFail.setWidth 32)
    let s := bad.foldl reportStack (otherClusters.foldl bringUp s)
    .next (modMod s (fun m => { m with phase := if bad.isEmpty then 4 else 3, hbmBad := !bad.isEmpty }))

/-- Full service (R540). Clusters 0 and 4 keep the service that the commands of reduced service have left them. -/
def fullService (s : State) : State :=
  let s := otherClusters.foldl intoService (serve s 5 2)
  allClusters.foldl (fun s c => if (getCl s c).service = .inService then setReq s c 0 else s) s

/-- BRINGUP_PHASE_E (R539 to R541): the ports train, and full service begins once every one is ACTIVE or FAILED. The row
comes again while a port still trains. A stack that failed training keeps the part in reduced service. -/
def execBringupPhaseE (s : State) : Host.Outcome State Fault Refusal :=
  if s.mod.hbmBad || s.mod.service != 1 || !(inPhase s 4 || inPhase s 5) then .next s
  else
    let s := if s.mod.phase = 4 then
        (upFrom 0 16).foldl (fun s p => startTraining s p false) (modMod s (fun m => { m with phase := 5 }))
      else s
    .next (if (upFrom 0 16).any (inTraining s) then s else fullService s)

end Sys2Proof.Machine
end

