-- ==== Sys2Proof/Machine/Access.lean ====
section
/-! DEFINITION. Data accesses of a thread (R38 to R45, R67, R68, R85, R104, R354, R363): the checks, what a load reads and
where it waits, and what a store writes. -/
namespace Sys2Proof.Machine

/-- The checks of a data access of thread `t` through `cap` in the order of R42; an access to the CSR pages of a core of a
cluster also needs what R136 and R280 ask of PCC. -/
def checkPlace (s : State) (slot : Nat) (t : Fin 4) (cap : Cap) (a n : Nat) (need : BitVec 16) : Res Place :=
  if !isSo slot && needsCsr slot a then
    if need &&& pSTORE ≠ 0 ∧ rebindHolds s slot (a - 0x00100000) then .stall
    else Res.check (checkCsr (getTh s slot t) cap a n need) (.ok (.csr (a - 0x00100000)))
  else checkAccess s slot cap a n need

/-- The bytes of an unacknowledged store reach shared SRAM (R85, R363). -/
def applyPending (s : State) (p : PendStore) : State :=
  if p.bytes.isEmpty then s
  else if p.tag then { s with sram := memStoreCap s.sram p.off p.bytes true } else storeSram s p.off p.bytes

/-- The stores of thread `t` to the slice take effect, as far as they have not. -/
def applyThread (s : State) (slot : Nat) (t : Fin 4) (slice : Nat) : State :=
  let mine (p : PendStore) : Bool := p.slice == slice && !p.bytes.isEmpty
  let s := ((getTh s slot t).pend.filter (fun p => mine p && !p.applied)).foldl applyPending s
  modTh s slot t (fun th => { th with pend := th.pend.map (fun p => if mine p then { p with applied := true } else p) })

/-- The stores of the core's threads to the slice take effect before an access that one of them issues to it later: they
share its path (R354), and a release at core scope waits for none of them (R360). At most one thread has any, since each
store comes after those of the other threads. -/
def applySlice (s : State) (slot slice : Nat) : State :=
  ([0, 1, 2, 3] : List (Fin 4)).foldl (fun s t => applyThread s slot t slice) s

/-- The stores of the core's other threads to the slice take effect before a store of thread `t` to it. -/
def applyOthers (s : State) (slot : Nat) (t : Fin 4) (slice : Nat) : State :=
  (([0, 1, 2, 3] : List (Fin 4)).filter (· != t)).foldl (fun s t => applyThread s slot t slice) s

/-- A load of `n` bytes meets memory: the value, or a poison fault once memory has settled the words (R45, R267). -/
def readMem (s : State) (m : Mem) (a place n : Nat) : Res Got :=
  if memPoisoned 4 m place n then .after s (addrFault cPOISON_CONSUMED a)
  else .ok (.val s (BitVec.ofNat 32 (memNat m place n)))

/-- A load of 1, 2 or 4 bytes from a checked place at address `a`. A tile image in flight may hold it (R232). A load from shared SRAM waits for its data, and
`ret` says that the data has returned (R68). -/
def loadPlace (s : State) (slot : Nat) (t : Fin 4) (p : Place) (a n : Nat) (ret : Bool) : Res Got :=
  match p with
  | .loc x =>
    if tileHolds s slot x n false then .stall
    else
      let s := settleLocal s slot x n
      readMem s (getCore s slot).mem a x n
  | .csr o =>
    if csrReadStalls (getCore s slot) o then .stall
    else
      let r := csrLoad s slot (reqThread slot t) o
      .ok (.val r.1 r.2)
  | .sram x =>
    if !ret then .ok (.wait s)
    else
      let s := settleSram (applySlice s slot (sliceId x)) x n
      readMem s s.sram a x n
  | p => soLoad s slot p n ret

/-- A load, and what the instruction does with its value; where the data is still on its way the thread blocks with the
instruction (R68). -/
def loadThen (s : State) (slot : Nat) (t : Fin 4) (p : Place) (a n : Nat) (ret : Bool) (self : Instr)
    (k : State → Word → Res State) : Res State :=
  (loadPlace s slot t p a n ret).andThen (fun g =>
    match g with
    | .val s v => k s v
    | .wait s => .ok (modTh s slot t (fun th => { th with block := some (.sram self) })))

/-- A store to shared SRAM leaves the thread with one more unacknowledged store, of at most 16 (R363). -/
def pushPending (s : State) (slot : Nat) (t : Fin 4) (off : Nat) (bs : List Byte) (tag : Bool) : Res State :=
  if 16 ≤ (getTh s slot t).pend.length then .stall
  else .ok (modTh (applyOthers s slot t (sliceId off)) slot t (fun th => { th with pend := th.pend ++ [⟨sliceId off, off, bs, tag, false⟩] }))

/-- A store of the low `n` bytes of `v` to a checked place; a tile image in flight may hold it (R232). The flag says whether the instruction completes now. -/
def storePlace (s : State) (slot : Nat) (t : Fin 4) (p : Place) (n : Nat) (v : Word) : Res (State × Bool) :=
  match p with
  | .loc x => if tileHolds s slot x n true then .stall else .ok (storeLocal s slot x (leBytes n v.toNat), true)
  | .csr o => csrStore s slot (.thread t) o v
  | .sram x => (pushPending s slot t x (leBytes n v.toNat) false).andThen (fun s => .ok (s, true))
  | p => soStore s slot p n v

/-- The exchange of the word at a checked place with `v` (R51), as one access: the word that was there, or a wait for
the line of another device (R487). -/
def xchPlace (s : State) (slot : Nat) (t : Fin 4) (p : Place) (a : Nat) (v : Word) : Res (Got × Bool) :=
  match p with
  | .window n x =>
    if farUncached s (slot - 576) n x then (soXch s (slot - 576) n x v).andThen (fun g => .ok (g, true))
    else thenStore
  | _ => thenStore
where
  thenStore : Res (Got × Bool) :=
    (loadPlace s slot t p a 4 false).andThen (fun g =>
      match g with
      | .wait s => .ok (.wait s, false)
      | .val s w =>
        match p with
        | .loc x => if tileHolds s slot x 4 true then .stall else .ok (.val (storeLocal s slot x (leBytes 4 v.toNat)) w, true)
        | p => (storePlace s slot t p 4 v).andThen (fun r => .ok (.val r.1 w, r.2)))

/-- What an instruction does that completes after its store: the post-increment (R37), and what an exchange puts into ACC. -/
def storeEnd (m : EaMode) (n : Nat) (v : Option Word) : DoorEnd :=
  match m with
  | .ixInc => ⟨BitVec.ofNat 32 n, 0, v⟩
  | .iyInc => ⟨0, BitVec.ofNat 32 n, v⟩
  | _ => ⟨0, 0, v⟩

/-- The thread goes on once its store has completed; one that waits for a courier channel completes later (R304). -/
def advanceIf (s : State) (slot : Nat) (t : Fin 4) (complete : Bool) (e : DoorEnd) : State :=
  if complete then advance s slot t (doorEnd e)
  else modTh s slot t (fun th => match th.block with
    | some (.door d _) => { th with block := some (.door d e) }
    | _ => th)

/-- The granule at `a` is one in which a program's STK leaves no tag (R104, R486): within the bounds of the SFC of a
thread of the core, or in the escalation frame. -/
def frameGranule (s : State) (slot a : Nat) : Bool :=
  decide (escFrame slot ≤ a ∧ a + 16 ≤ escFrame slot + 0x180) ||
    ([0, 1, 2, 3] : List (Fin 4)).any (fun t =>
      let c := (getTh s slot t).sfc
      decide (c.length ≠ 0) && capCovers c a 16)

end Sys2Proof.Machine
end

