-- ==== Sys2Proof/Machine/CapInstr.lean ====
section
/-! DEFINITION. Capabilities, gates, closures, fences and the ways into and out of exceptions (R79 to R109, R362). -/
namespace Sys2Proof.Machine

/-! ### Capability registers (R83) -/

/-- Capability register `n`: 0 to 5 are C1 to C6, 6 is DDC, 7 is SFC. -/
def capReg (th : Thread) (n : BitVec 3) : Cap :=
  match n.toNat with
  | 0 => th.c1
  | 1 => th.c2
  | 2 => th.c3
  | 3 => th.c4
  | 4 => th.c5
  | 5 => th.c6
  | 6 => th.ddc
  | _ => th.sfc

def setCapReg (th : Thread) (n : BitVec 3) (c : Cap) : Thread :=
  match n.toNat with
  | 0 => { th with c1 := c }
  | 1 => { th with c2 := c }
  | 2 => { th with c3 := c }
  | 3 => { th with c4 := c }
  | 4 => { th with c5 := c }
  | 5 => { th with c6 := c }
  | 6 => { th with ddc := c }
  | _ => { th with sfc := c }

/-- A fault if the capability is untagged or sealed (R81). -/
def needOpen (c : Cap) : Option FaultInfo :=
  if !c.tag then some (plainFault cCAP_TAG) else if capSealed c then some (plainFault cCAP_SEALED) else none

/-- The instruction writes capability register `cd`. -/
def putCap (s : State) (slot : Nat) (t : Fin 4) (cd : BitVec 3) (f : Thread → Cap) : State :=
  advance s slot t (fun th => setCapReg th cd (f th))

/-- A derivation of cd from an unsealed, tagged cs (R90). -/
def derive (cd cs : BitVec 3) (f : Thread → Cap → Res Cap) (t : Fin 4) (slot : Nat) (s : State) : Res State :=
  let th := getTh s slot t
  let c := capReg th cs
  Res.check (needOpen c) ((f th c).andThen (fun c' => .ok (putCap s slot t cd (fun _ => c'))))

/-- KCOPY (R90). -/
def execKcopy (cpu : Cpu) (t : Fin 4) (cd cs : BitVec 3) (s : State) : Host.Outcome State Fault Refusal :=
  issue s cpu t (fun slot s => .ok (putCap s slot t cd (fun th => capReg th cs)))

/-- The field of a capability that KREAD's sel names; 6 and 7 are ILLEGAL. -/
def kreadField (c : Cap) (sel : BitVec 3) : Option Word :=
  match sel.toNat with
  | 0 => some c.cursor
  | 1 => some c.base
  | 2 => some c.length
  | 3 => some (zext c.perms)
  | 4 => some (zext c.otype)
  | 5 => some (ofBool 32 c.tag)
  | _ => none

/-- KREAD (R90). -/
def execKread (cpu : Cpu) (t : Fin 4) (cs sel : BitVec 3) (s : State) : Host.Outcome State Fault Refusal :=
  issue s cpu t (fun slot s =>
    match kreadField (capReg (getTh s slot t) cs) sel with
    | some v => .ok (advance s slot t (fun th => accZN th v))
    | none => .fault (plainFault cILLEGAL))

/-- KAIM (R90). -/
def execKaim (cpu : Cpu) (t : Fin 4) (cd cs : BitVec 3) (s : State) : Host.Outcome State Fault Refusal :=
  issue s cpu t (derive cd cs (fun th c => .ok { c with cursor := th.acc }) t)

/-- KNARROW (R90). -/
def execKnarrow (cpu : Cpu) (t : Fin 4) (cd cs : BitVec 3) (s : State) : Host.Outcome State Fault Refusal :=
  issue s cpu t (derive cd cs (fun th c =>
    if capCovers c c.cursor.toNat th.acc.toNat then .ok { c with base := c.cursor, length := th.acc }
    else .fault (plainFault cCAP_BOUNDS)) t)

/-- KMASK (R90). -/
def execKmask (cpu : Cpu) (t : Fin 4) (cd cs : BitVec 3) (s : State) : Host.Outcome State Fault Refusal :=
  issue s cpu t (derive cd cs (fun th c => .ok { c with perms := c.perms &&& bits th.acc 0 16 }) t)

/-- KVOID (R90). -/
def execKvoid (cpu : Cpu) (t : Fin 4) (cd : BitVec 3) (s : State) : Host.Outcome State Fault Refusal :=
  issue s cpu t (fun slot s => .ok (putCap s slot t cd (fun _ => Cap.null)))

/-- KHERE (R90). -/
def execKhere (cpu : Cpu) (t : Fin 4) (cd : BitVec 3) (s : State) : Host.Outcome State Fault Refusal :=
  issue s cpu t (fun slot s => .ok (putCap s slot t cd (fun th => { th.pcc with cursor := th.pc })))

/-- The checks of the authority operand of KWRAP and KUNWRAP (R91). -/
def authority (ca : Cap) (perm : BitVec 16) : Option FaultInfo :=
  match needOpen ca with
  | some f => some f
  | none =>
    if !capHas ca perm then some (plainFault cCAP_PERM)
    else if !capCovers ca ca.cursor.toNat 1 || decide (ca.cursor.toNat < 1 ∨ 0xFFF < ca.cursor.toNat) then
      some (plainFault cCAP_BOUNDS)
    else none

/-- KWRAP (R91, R93). -/
def kwrapBody (cd cs ca : BitVec 3) (t : Fin 4) (slot : Nat) (s : State) : Res State :=
  let th := getTh s slot t
  Res.check (needOpen (capReg th cs))
    (Res.check (authority (capReg th ca) pSEAL)
      (.ok (putCap s slot t cd (fun _ => { capReg th cs with otype := bits (capReg th ca).cursor 0 12 }))))

/-- KWRAP (R91). -/
def execKwrap (cpu : Cpu) (t : Fin 4) (cd cs ca : BitVec 3) (s : State) : Host.Outcome State Fault Refusal :=
  issue s cpu t (kwrapBody cd cs ca t)

/-- KUNWRAP (R91, R93): every check of cs comes before any of ca. -/
def kunwrapBody (cd cs ca : BitVec 3) (t : Fin 4) (slot : Nat) (s : State) : Res State :=
  let th := getTh s slot t
  let c := capReg th cs
  let a := capReg th ca
  if !c.tag then .fault (plainFault cCAP_TAG)
  else if !capSealed c || decide (zext c.otype ≠ a.cursor) then .fault (plainFault cCAP_SEALED)
  else Res.check (authority a pUNSEAL) (.ok (putCap s slot t cd (fun _ => unsealCap c)))

/-- KUNWRAP (R91). -/
def execKunwrap (cpu : Cpu) (t : Fin 4) (cd cs ca : BitVec 3) (s : State) : Host.Outcome State Fault Refusal :=
  issue s cpu t (kunwrapBody cd cs ca t)

/-! ### Gates (R95, R96) -/

/-- SETG (R95). On a control core the place of fetched code stands for local memory (R486). -/
def setgBody (n cs ca : BitVec 3) (t : Fin 4) (slot : Nat) (s : State) : Res State :=
  let th := getTh s slot t
  let c := capReg th cs
  let d := capReg th ca
  if !c.tag || !d.tag then .fault (plainFault cCAP_TAG)
  else if !capSealed c || !capSealed d || c.otype != d.otype then .fault (plainFault cCAP_SEALED)
  else if !capHas c (pEXEC ||| pGATE) then .fault (plainFault cCAP_PERM)
  else if !capCovers c c.cursor.toNat 4 || !fetchable s slot c.cursor.toNat then .fault (plainFault cCAP_BOUNDS)
  else if c.cursor.toNat % 4 ≠ 0 then .fault (plainFault cALIGN)
  else if bitOf (csrGet (getCore s slot) 0x2014) n.toNat then .fault (plainFault cGATE)
  else
    .ok (advance (modCore s slot (fun k => { k with gates := tset gateDefault k.gates n.toNat (some (c, d)) })) slot t id)

/-- SETG (R95). -/
def execSetg (cpu : Cpu) (t : Fin 4) (n cs ca : BitVec 3) (s : State) : Host.Outcome State Fault Refusal :=
  issue s cpu t (setgBody n cs ca t)

/-- GATE (R96). -/
def gateBody (n : BitVec 3) (t : Fin 4) (slot : Nat) (s : State) : Res State :=
  let th := getTh s slot t
  match gateGet (getCore s slot) n.toNat with
  | none => .fault (plainFault cGATE)
  | some (c, d) =>
    if 4 ≤ th.glink.length then .fault (plainFault cGATE)
    else
      .ok (modTh s slot t (fun th =>
        { th with
          glink := th.glink ++ [({ th.pcc with cursor := th.pc + 4 }, th.ddc)],
          pcc := unsealCap c, ddc := unsealCap d, pc := c.cursor }))

/-- GATE (R96). -/
def execGate (cpu : Cpu) (t : Fin 4) (n : BitVec 3) (s : State) : Host.Outcome State Fault Refusal :=
  issue s cpu t (gateBody n t)

/-- RGATE (R96). -/
def rgateBody (t : Fin 4) (slot : Nat) (s : State) : Res State :=
  match popLink (getTh s slot t) with
  | none => .fault (plainFault cGATE)
  | some th' => .ok (modTh s slot t (fun _ => th'))

/-- RGATE (R96). -/
def execRgate (cpu : Cpu) (t : Fin 4) (s : State) : Host.Outcome State Fault Refusal := issue s cpu t (rgateBody t)

/-! ### Memory through C1 to C6 and DDC (R92, R93) -/

/-- The base capability of major 0x12; 7 names SFC and is ILLEGAL. -/
def baseCap (th : Thread) (cb : BitVec 3) (k : Cap → Res State) : Res State :=
  if cb = 7 then .fault (plainFault cILLEGAL) else k (capReg th cb)

/-- XLD and XLDU. -/
def xldBody (ext : Nat → Word → Word) (sz : BitVec 2) (cb : BitVec 3) (d : BitVec 12) (self : Instr) (ret : Bool) (t : Fin 4)
    (slot : Nat) (s : State) : Res State :=
  match szBytes sz with
  | none => .fault (plainFault cILLEGAL)
  | some n =>
    let th := getTh s slot t
    baseCap th cb (fun c =>
      let a := (c.cursor + sext d).toNat
      (checkPlace s slot t c a n pLOAD).andThen (fun p =>
        loadThen s slot t p a n ret self (fun s v => .ok (advance s slot t (fun th => accZN th (ext n v))))))

/-- XLD (R92). -/
def execXld (cpu : Cpu) (t : Fin 4) (sz : BitVec 2) (cb : BitVec 3) (d : BitVec 12) (s : State) :
    Host.Outcome State Fault Refusal :=
  issue s cpu t (xldBody sextBytes sz cb d (.xld cpu t sz cb d) false t)

/-- XLDU (R92). -/
def execXldu (cpu : Cpu) (t : Fin 4) (sz : BitVec 2) (cb : BitVec 3) (d : BitVec 12) (s : State) :
    Host.Outcome State Fault Refusal :=
  issue s cpu t (xldBody zextBytes sz cb d (.xldu cpu t sz cb d) false t)

/-- XST (R92). -/
def xstBody (sz : BitVec 2) (cb : BitVec 3) (d : BitVec 12) (t : Fin 4) (slot : Nat) (s : State) : Res State :=
  match szBytes sz with
  | none => .fault (plainFault cILLEGAL)
  | some n =>
    let th := getTh s slot t
    baseCap th cb (fun c =>
      (checkPlace s slot t c (c.cursor + sext d).toNat n pSTORE).andThen (fun p =>
        (storePlace s slot t p n th.acc).andThen (fun (s, complete) => .ok (advanceIf s slot t complete ⟨0, 0, none⟩))))

/-- XST (R92). -/
def execXst (cpu : Cpu) (t : Fin 4) (sz : BitVec 2) (cb : BitVec 3) (d : BitVec 12) (s : State) :
    Host.Outcome State Fault Refusal :=
  issue s cpu t (xstBody sz cb d t)

/-- The checks of LDK and STK at `a` (R92, R93): the capability, alignment, and tagged memory (R486). -/
def capPlace (s : State) (slot : Nat) (c : Cap) (a : Nat) (need : BitVec 16) : Res Place :=
  Res.check (capCheck c a 16 (if needsCsr slot a then need ||| pCSR else need))
    (if a % 16 ≠ 0 then .fault (addrFault cALIGN a)
     else match placeOf s slot a 16 with
       | .loc x => .ok (.loc x)
       | .sram x => .ok (.sram x)
       | .lockedL2 x => .ok (.lockedL2 x)
       | _ => .fault (addrFault cILLEGAL a))

/-- The granule of a memory as LDK reads it, or its poison fault. -/
def readCap (s : State) (m : Mem) (a x : Nat) (k : Cap → State) : Res State :=
  if memPoisoned 4 m x 16 then .after s (addrFault cPOISON_CONSUMED a)
  else .ok (k (capOfBytes (memBytes m x 16) (memTag m (x / 16))))

/-- LDK (R45, R68, R92, R271). -/
def ldkBody (cr cb : BitVec 3) (d : BitVec 12) (self : Instr) (ret : Bool) (t : Fin 4) (slot : Nat) (s : State) : Res State :=
  baseCap (getTh s slot t) cb (fun c =>
    let a := (c.cursor + sext d).toNat
    (capPlace s slot c a (pLOAD ||| pLOADCAP)).andThen (fun p =>
      match p with
      | .sram x =>
        if !ret then .ok (modTh s slot t (fun th => { th with block := some (.sram self) }))
        else
          let s := readSramTags (settleSram (applySlice s slot (sliceId x)) x 16) x 16
          readCap s s.sram a x (fun k => putCap s slot t cr (fun _ => k))
      | .lockedL2 x =>
        let s := readL2Tags { s with l2 := (settleWords 4 s.l2 (wordsOf 4 x 16)).mem } x 16
        readCap s s.l2 a x (fun k => putCap s slot t cr (fun _ => k))
      | _ =>
       if tileHolds s slot a 16 false then .stall
       else
        let s := readTags (settleLocal s slot a 16) slot a 16
        readCap s (getCore s slot).mem a a (fun k => putCap s slot t cr (fun _ => k))))

/-- LDK (R92). -/
def execLdk (cpu : Cpu) (t : Fin 4) (cr cb : BitVec 3) (d : BitVec 12) (s : State) : Host.Outcome State Fault Refusal :=
  issue s cpu t (ldkBody cr cb d (.ldk cpu t cr cb d) false t)

/-- The capability may be stored into shared SRAM (R87). -/
def sramCapOk (c : Cap) : Bool :=
  !c.tag || capSealed c || decide (0x40000000 ≤ c.base.toNat ∧ c.base.toNat + c.length.toNat ≤ 0x70000000)

/-- STK (R85, R87, R92, R93, R104). -/
def stkBody (cr cb : BitVec 3) (d : BitVec 12) (t : Fin 4) (slot : Nat) (s : State) : Res State :=
  let th := getTh s slot t
  let v := capReg th cr
  baseCap th cb (fun c =>
    let a := (c.cursor + sext d).toNat
    (capPlace s slot c a (pSTORE ||| pSTORECAP)).andThen (fun p =>
      let tag := v.tag && !frameGranule s slot a
      match p with
      | .sram x =>
        if !sramCapOk v then .fault (addrFault cCAP_PERM a)
        else (pushPending s slot t x (capBytes v) tag).andThen (fun s => .ok (advance s slot t id))
      | .lockedL2 x => .ok (advance { s with l2 := memStoreCap s.l2 x (capBytes v) tag } slot t id)
      | _ =>
        if tileHolds s slot a 16 true then .stall
        else .ok (advance (modCore s slot (fun k => { k with mem := memStoreCap k.mem a (capBytes v) tag })) slot t id)))

/-- STK (R92). -/
def execStk (cpu : Cpu) (t : Fin 4) (cr cb : BitVec 3) (d : BitVec 12) (s : State) : Host.Outcome State Fault Refusal :=
  issue s cpu t (stkBody cr cb d t)

/-! ### Closures and fences (R98 to R101, R357, R362) -/

/-- CLOSE n (R98). -/
def closeBody (n : BitVec 11) (t : Fin 4) (slot : Nat) (s : State) : Res State :=
  let th := getTh s slot t
  Res.check (needPcc th pCLOSE)
    (if (csrGet (getCore s slot) 0x2010).toNat < n.toNat ∨ isClosed th then .fault (plainFault cCLOSURE_OVERRUN)
     else if n = 0 then .ok (advance s slot t id)
     else .ok (advance s slot t (fun th => { th with closeEnd := some (clockOf s slot + n.toNat) })))

/-- CLOSE (R98). -/
def execClosureClose (cpu : Cpu) (t : Fin 4) (n : BitVec 11) (s : State) : Host.Outcome State Fault Refusal :=
  issue s cpu t (closeBody n t)

/-- OPEN (R98). -/
def execClosureOpen (cpu : Cpu) (t : Fin 4) (s : State) : Host.Outcome State Fault Refusal :=
  issue s cpu t (fun slot s => .ok (advance s slot t (fun th => { th with closeEnd := none })))

/-- The first delivery that was held from the thread, in the order of R100: a debug stop, a notification, a stream fault, a
post dispatch. -/
def deliverHeld (s : State) (slot : Nat) (t : Fin 4) : State :=
  if stopDue s slot t then takeStop s slot t
  else if t = superOf s slot ∧ notifiable s slot then deliverNote s slot
  else match streamFaultFor (getCore s slot) t with
    | some u => deliverStreamFault s slot u
    | none => if t = handlerOf (getCore s slot) ∧ dispatchable s slot then dispatch s slot else s

/-- CLOSURE_END (R99, R100): the closure is over, and the first held event is delivered. -/
def execClosureEnd (cpu : Cpu) (t : Fin 4) (s : State) : Host.Outcome State Fault Refusal :=
  onCore s cpu (fun slot s =>
    if isClosed (getTh s slot t) then deliverHeld (modTh s slot t (fun th => { th with closeEnd := none })) slot t else s)

/-- FENCE s (R357, R362). -/
def fenceBody (scope : BitVec 3) (t : Fin 4) (slot : Nat) (s : State) : Res State :=
  Res.check (legal (scopeOk scope))
    (if releaseReady (getTh s slot t) (decide (2 ≤ scope.toNat)) then .ok (advance s slot t id) else .stall)

/-- FENCE (R362). -/
def execFence (cpu : Cpu) (t : Fin 4) (scope : BitVec 3) (s : State) : Host.Outcome State Fault Refusal :=
  issue s cpu t (fenceBody scope t)

/-! ### Exceptions (R102 to R109) -/

/-- The thread can fault: it runs, or is in escalation, on a core that is out of reset and not halted. -/
def canTrap (s : State) (slot : Nat) (t : Fin 4) : Bool :=
  let c := getCore s slot
  let th := c.th[t]
  !c.held && !c.halted && (th.st == .running || th.st == .escalation)

/-- EXCEPTION_ENTRY (R102): the thread's next word is no instruction, its fetch fails, or an engine reports a fault. -/
def execExceptionEntry (cpu : Cpu) (t : Fin 4) (src : FaultSrc) (s : State) : Host.Outcome State Fault Refusal :=
  match src with
  | .illegalWord w =>
    match decodeCoreWord cpu t w with
    | some _ => .next s
    | none => issue s cpu t (fun _ _ => .fault (plainFault cILLEGAL))
  | .fetch => issue s cpu t (fun _ _ => .stall)
  | .reported code faddr info =>
    onCore s cpu (fun slot s =>
      if canTrap s slot t ∧ code ∈ faultCodes then takeFault s slot t ⟨code, faddr, info⟩ else s)

/-- ERET (R101, R105, R108). -/
def execEret (cpu : Cpu) (t : Fin 4) (s : State) : Host.Outcome State Fault Refusal :=
  issue s cpu t (fun slot s =>
    if (getTh s slot t).st = .escalation then .fault (plainFault cILLEGAL)
    else .ok (doEret (modTh s slot t (fun th => { th with closeEnd := none })) slot t (getTh s slot t).pc))

/-- ESCALATION (R107): exception entry, ERET, RESUME or a dispatch escalates with cause SAVE_FRAME or GATE. -/
def execEscalation (cpu : Cpu) (t : Fin 4) (code orig : BitVec 8) (faddr info : BitVec 32) (s : State) :
    Host.Outcome State Fault Refusal :=
  onCore s cpu (fun slot s =>
    if canTrap s slot t ∧ (getTh s slot t).st = .running ∧ (code = cSAVE_FRAME ∨ code = cGATE) then
      escalate s slot t code orig faddr info (getTh s slot t).pc
    else s)

/-- ESCRET (R108). -/
def execEscret (cpu : Cpu) (t : Fin 4) (s : State) : Host.Outcome State Fault Refusal :=
  issue s cpu t (fun slot s =>
    if (getTh s slot t).st = .escalation then .ok (doEscret s slot t) else .fault (plainFault cILLEGAL))

end Sys2Proof.Machine
end

