-- ==== Sys2Proof/Machine/Control.lean ====
section
/-! DEFINITION. Control transfer and the return stack (R61 to R63, R70 to R72). -/
namespace Sys2Proof.Machine

/-- THREAD_CTL.RSWRAP of the thread (R71); a control core has no such register (R486). -/
def rsWrap (s : State) (slot : Nat) (t : Fin 4) : Bool :=
  !isSo slot && bitOf (csrGet (getCore s slot) 0x1000) (24 + t.val)

/-- A push (R70, R71). -/
def rsPush (wrap : Bool) (v : Word) (th : Thread) : Res Thread :=
  if th.rs.length < 16 then .ok { th with rs := th.rs ++ [v] }
  else if wrap then .ok { th with rs := th.rs.drop 1 ++ [v], flags := putFlag th.flags fRSLOST true }
  else .fault (plainFault cRS_OVERFLOW)

/-- A pop: the newest entry, and the thread without it (R70, R72). -/
def rsPop (th : Thread) : Res (Word × Thread) :=
  match th.rs.getLast? with
  | none => .fault (plainFault cRS_UNDERFLOW)
  | some v => .ok (v, { th with rs := th.rs.dropLast })

/-- The thread continues at a target that has passed its checks (R63). -/
def transfer (s : State) (slot : Nat) (t : Fin 4) (target : Word) (k : Thread → Res Thread) : Res State :=
  let th := getTh s slot t
  Res.check (checkTarget s slot th.pcc target)
    ((k th).andThen (fun th' => .ok (modTh s slot t (fun _ => { th' with pc := target }))))

/-- A call: the target is checked, then the following address is pushed (R42, R62, R63). -/
def callTo (s : State) (slot : Nat) (t : Fin 4) (target : Word) : Res State :=
  transfer s slot t target (fun th => rsPush (rsWrap s slot t) (th.pc + 4) th)

/-- BRANCH (R61, R63). -/
def branchBody (cond : BitVec 4) (off : BitVec 23) (t : Fin 4) (slot : Nat) (s : State) : Res State :=
  let th := getTh s slot t
  if condHolds th.flags cond then transfer s slot t (th.pc + (sext off <<< 2)) .ok else .ok (advance s slot t id)

/-- BRANCH (R61). -/
def execBranch (cpu : Cpu) (t : Fin 4) (cond : BitVec 4) (off : BitVec 23) (s : State) : Host.Outcome State Fault Refusal :=
  issue s cpu t (branchBody cond off t)

/-- JMP (R62). -/
def execJmp (cpu : Cpu) (t : Fin 4) (imm : BitVec 24) (s : State) : Host.Outcome State Fault Refusal :=
  issue s cpu t (fun slot s => transfer s slot t ((getTh s slot t).pc + (sext imm <<< 2)) .ok)

/-- CALL (R62, R71). -/
def execCall (cpu : Cpu) (t : Fin 4) (imm : BitVec 24) (s : State) : Host.Outcome State Fault Refusal :=
  issue s cpu t (fun slot s => callTo s slot t ((getTh s slot t).pc + (sext imm <<< 2)))

/-- JX (R62). -/
def execJx (cpu : Cpu) (t : Fin 4) (s : State) : Host.Outcome State Fault Refusal :=
  issue s cpu t (fun slot s => transfer s slot t (getTh s slot t).ix .ok)

/-- CALLX (R62, R71). -/
def execCallx (cpu : Cpu) (t : Fin 4) (s : State) : Host.Outcome State Fault Refusal :=
  issue s cpu t (fun slot s => callTo s slot t (getTh s slot t).ix)

/-- RET: the newest entry is the target, checked before it is popped (R62, R63, R72). -/
def retBody (t : Fin 4) (slot : Nat) (s : State) : Res State :=
  (rsPop (getTh s slot t)).andThen (fun (target, th') => transfer s slot t target (fun _ => .ok th'))

/-- RET (R62, R72). -/
def execRet (cpu : Cpu) (t : Fin 4) (s : State) : Host.Outcome State Fault Refusal := issue s cpu t (retBody t)

/-- RSPOP (R62, R72). -/
def execRspop (cpu : Cpu) (t : Fin 4) (s : State) : Host.Outcome State Fault Refusal :=
  issue s cpu t (fun slot s =>
    (rsPop (getTh s slot t)).andThen (fun (v, th') => .ok (advance s slot t (fun _ => { th' with ix := v }))))

/-- RSPUSH (R62, R71). -/
def execRspush (cpu : Cpu) (t : Fin 4) (s : State) : Host.Outcome State Fault Refusal :=
  issue s cpu t (fun slot s =>
    let th := getTh s slot t
    (rsPush (rsWrap s slot t) th.ix th).andThen (fun th' => .ok (advance s slot t (fun _ => th'))))

end Sys2Proof.Machine
end

