-- ==== Sys2Proof/Machine/Scalar.lean ====
section
/-! DEFINITION. The scalar instructions of majors 0x00 to 0x07 (R50 to R60). A body takes the instruction itself, to block
with it, and whether the data of its shared-SRAM operand has returned (R68). -/
namespace Sys2Proof.Machine

/-! ### Operands -/

/-- An instruction with a memory operand that it reads: the checks, the read, then `k` with the size, the mode and the
value (R36 to R45). -/
def withOperand (s : State) (slot : Nat) (t : Fin 4) (n : Nat) (e : EaMode) (ret : Bool) (self : Instr)
    (need : BitVec 16) (k : State → Place → Word → Res State) : Res State :=
  let th := getTh s slot t
  let a := (eaOf th e).toNat
  (checkPlace s slot t th.ddc a n need).andThen (fun p => loadThen s slot t p a n ret self (fun s v => k s p v))

/-- The instruction completes: the post-increment takes effect (R37), then the result of `f` (R44). -/
def finish (s : State) (slot : Nat) (t : Fin 4) (e : EaMode) (n : Nat) (f : Thread → Thread) : State :=
  advance s slot t (fun th => f (postInc e n th))

/-- A load that hands the sized value to `f`. -/
def loadBody (f : Nat → Word → Thread → Thread) (sz : BitVec 2) (m : BitVec 22) (self : Instr) (ret : Bool) (t : Fin 4)
    (slot : Nat) (s : State) : Res State :=
  (memForm sz m).andThen (fun (n, e) =>
    withOperand s slot t n e ret self pLOAD (fun s _ v => .ok (finish s slot t e n (f n v))))

/-- As `loadBody`, where sz must be word. -/
def loadWordBody (f : Word → Thread → Thread) (sz : BitVec 2) (m : BitVec 22) (self : Instr) (ret : Bool) (t : Fin 4)
    (slot : Nat) (s : State) : Res State :=
  (wordForm sz m).andThen (fun e =>
    withOperand s slot t 4 e ret self pLOAD (fun s _ v => .ok (finish s slot t e 4 (f v))))

/-! ### Loads and index registers (R50) -/

def ldBody (sz : BitVec 2) (m : BitVec 22) := loadBody (fun n v th => accZN th (sextBytes n v)) sz m
def lduBody (sz : BitVec 2) (m : BitVec 22) := loadBody (fun n v th => accZN th (zextBytes n v)) sz m
def ldxBody (sz : BitVec 2) (m : BitVec 22) := loadWordBody (fun v th => { th with ix := v }) sz m
def ldyBody (sz : BitVec 2) (m : BitVec 22) := loadWordBody (fun v th => { th with iy := v }) sz m

/-- LEAX and LEAY: the address alone, with no access and no check; a post-increment mode is ILLEGAL. -/
def leaBody (f : Word → Thread → Thread) (sz : BitVec 2) (m : BitVec 22) (t : Fin 4) (slot : Nat) (s : State) : Res State :=
  (wordForm sz m).andThen (fun e =>
    if isInc e then .fault (plainFault cILLEGAL) else .ok (advance s slot t (f (eaOf (getTh s slot t) e))))

/-- LD (R50). -/
def execLd (cpu : Cpu) (t : Fin 4) (sz : BitVec 2) (m : BitVec 22) (s : State) : Host.Outcome State Fault Refusal :=
  issue s cpu t (ldBody sz m (.ld cpu t sz m) false t)

/-- LDU (R50). -/
def execLdu (cpu : Cpu) (t : Fin 4) (sz : BitVec 2) (m : BitVec 22) (s : State) : Host.Outcome State Fault Refusal :=
  issue s cpu t (lduBody sz m (.ldu cpu t sz m) false t)

/-- LDX (R44, R50). -/
def execLdx (cpu : Cpu) (t : Fin 4) (sz : BitVec 2) (m : BitVec 22) (s : State) : Host.Outcome State Fault Refusal :=
  issue s cpu t (ldxBody sz m (.ldx cpu t sz m) false t)

/-- LDY (R44, R50). -/
def execLdy (cpu : Cpu) (t : Fin 4) (sz : BitVec 2) (m : BitVec 22) (s : State) : Host.Outcome State Fault Refusal :=
  issue s cpu t (ldyBody sz m (.ldy cpu t sz m) false t)

/-- LEAX (R50). -/
def execLeax (cpu : Cpu) (t : Fin 4) (sz : BitVec 2) (m : BitVec 22) (s : State) : Host.Outcome State Fault Refusal :=
  issue s cpu t (leaBody (fun a th => { th with ix := a }) sz m t)

/-- LEAY (R50). -/
def execLeay (cpu : Cpu) (t : Fin 4) (sz : BitVec 2) (m : BitVec 22) (s : State) : Host.Outcome State Fault Refusal :=
  issue s cpu t (leaBody (fun a th => { th with iy := a }) sz m t)

/-! ### Stores (R51, R52) -/

/-- A store of the low bytes of a register. -/
def storeBody (value : Thread → Word) (n : Nat) (e : EaMode) (t : Fin 4) (slot : Nat) (s : State) : Res State :=
  let th := getTh s slot t
  let a := (eaOf th e).toNat
  (checkPlace s slot t th.ddc a n pSTORE).andThen (fun p =>
    (storePlace s slot t p n (value th)).andThen (fun (s, complete) => .ok (advanceIf s slot t complete (storeEnd e n none))))

def stBody (value : Thread → Word) (sz : BitVec 2) (m : BitVec 22) (t : Fin 4) (slot : Nat) (s : State) : Res State :=
  (memForm sz m).andThen (fun (n, e) => storeBody value n e t slot s)

def stWordBody (value : Thread → Word) (sz : BitVec 2) (m : BitVec 22) (t : Fin 4) (slot : Nat) (s : State) : Res State :=
  (wordForm sz m).andThen (fun e => storeBody value 4 e t slot s)

/-- ST (R51). -/
def execSt (cpu : Cpu) (t : Fin 4) (sz : BitVec 2) (m : BitVec 22) (s : State) : Host.Outcome State Fault Refusal :=
  issue s cpu t (stBody Thread.acc sz m t)

/-- STX (R44, R51). -/
def execStx (cpu : Cpu) (t : Fin 4) (sz : BitVec 2) (m : BitVec 22) (s : State) : Host.Outcome State Fault Refusal :=
  issue s cpu t (stWordBody Thread.ix sz m t)

/-- STY (R44, R51). -/
def execSty (cpu : Cpu) (t : Fin 4) (sz : BitVec 2) (m : BitVec 22) (s : State) : Host.Outcome State Fault Refusal :=
  issue s cpu t (stWordBody Thread.iy sz m t)

/-- STZ (R51). -/
def execStz (cpu : Cpu) (t : Fin 4) (sz : BitVec 2) (m : BitVec 22) (s : State) : Host.Outcome State Fault Refusal :=
  issue s cpu t (stBody (fun _ => 0) sz m t)

/-- XCH (R51, R52): the read and the write are one access, made in shared SRAM when the data returns; until its
acknowledgement it counts among the thread's unacknowledged accesses (R363). -/
def xchBody (sz : BitVec 2) (m : BitVec 22) (self : Instr) (ret : Bool) (t : Fin 4) (slot : Nat) (s : State) : Res State :=
  (wordForm sz m).andThen (fun e =>
    let th := getTh s slot t
    let a := (eaOf th e).toNat
    (checkPlace s slot t th.ddc a 4 (pLOAD ||| pSTORE)).andThen (fun p =>
      match p with
      | .sram x =>
        if !ret then
          (pushPending s slot t x [] false).andThen (fun s =>
            .ok (modTh s slot t (fun th => { th with block := some (.sram self) })))
        else
          loadThen s slot t p a 4 ret self (fun s v =>
            .ok (finish (storeSram s x (leBytes 4 th.acc.toNat)) slot t e 4 (fun th => accZN th v)))
      | p =>
        (xchPlace s slot t p a th.acc).andThen (fun r =>
          match r.1 with
          | .wait s => .ok (modTh s slot t (fun th => { th with block := some (.sram self) }))
          | .val s v => .ok (advanceIf s slot t r.2 (storeEnd e 4 (some v))))))

/-- XCH (R51, R52). -/
def execXch (cpu : Cpu) (t : Fin 4) (sz : BitVec 2) (m : BitVec 22) (s : State) : Host.Outcome State Fault Refusal :=
  issue s cpu t (xchBody sz m (.xch cpu t sz m) false t)

/-! ### Arithmetic and logic (R53) -/

/-- An operation on ACC and a second operand: a memory operand, sign-extended, or sext(imm24). -/
def aluBody (f : Word → Thread → Thread) (src : AluSrc) (self : Instr) (ret : Bool) (t : Fin 4) (slot : Nat) (s : State) :
    Res State :=
  match src with
  | .imm i => .ok (advance s slot t (f (sext i)))
  | .mem sz m => loadBody (fun n v => f (sextBytes n v)) sz m self ret t slot s

def addOp (m : Word) (th : Thread) : Thread := accNZCV th (addWith th.acc m false)
def adcOp (m : Word) (th : Thread) : Thread := accNZCV th (addWith th.acc m (bitOf th.flags fC))
def subOp (m : Word) (th : Thread) : Thread := accNZCV th (subWith th.acc m false)
def sbcOp (m : Word) (th : Thread) : Thread := accNZCV th (subWith th.acc m (bitOf th.flags fC))
def andOp (m : Word) (th : Thread) : Thread := accZN th (th.acc &&& m)
def orOp (m : Word) (th : Thread) : Thread := accZN th (th.acc ||| m)
def xorOp (m : Word) (th : Thread) : Thread := accZN th (th.acc ^^^ m)
def cmpOp (m : Word) (th : Thread) : Thread := cmpFlags th th.acc m

/-- ADD (R53). -/
def execAdd (cpu : Cpu) (t : Fin 4) (src : AluSrc) (s : State) : Host.Outcome State Fault Refusal :=
  issue s cpu t (aluBody addOp src (.add cpu t src) false t)

/-- ADC (R53). -/
def execAdc (cpu : Cpu) (t : Fin 4) (src : AluSrc) (s : State) : Host.Outcome State Fault Refusal :=
  issue s cpu t (aluBody adcOp src (.adc cpu t src) false t)

/-- SUB (R53). -/
def execSub (cpu : Cpu) (t : Fin 4) (src : AluSrc) (s : State) : Host.Outcome State Fault Refusal :=
  issue s cpu t (aluBody subOp src (.sub cpu t src) false t)

/-- SBC (R53). -/
def execSbc (cpu : Cpu) (t : Fin 4) (src : AluSrc) (s : State) : Host.Outcome State Fault Refusal :=
  issue s cpu t (aluBody sbcOp src (.sbc cpu t src) false t)

/-- AND (R53). -/
def execAnd (cpu : Cpu) (t : Fin 4) (src : AluSrc) (s : State) : Host.Outcome State Fault Refusal :=
  issue s cpu t (aluBody andOp src (.and cpu t src) false t)

/-- OR (R53). -/
def execOr (cpu : Cpu) (t : Fin 4) (src : AluSrc) (s : State) : Host.Outcome State Fault Refusal :=
  issue s cpu t (aluBody orOp src (.or cpu t src) false t)

/-- XOR (R53). -/
def execXor (cpu : Cpu) (t : Fin 4) (src : AluSrc) (s : State) : Host.Outcome State Fault Refusal :=
  issue s cpu t (aluBody xorOp src (.xor cpu t src) false t)

/-- CMP (R53). -/
def execCmp (cpu : Cpu) (t : Fin 4) (src : AluSrc) (s : State) : Host.Outcome State Fault Refusal :=
  issue s cpu t (aluBody cmpOp src (.cmp cpu t src) false t)

/-! ### Immediate forms (R54) -/

/-- An instruction that only changes its thread. -/
def regOp (s : State) (cpu : Cpu) (t : Fin 4) (f : Thread → Thread) : Host.Outcome State Fault Refusal :=
  issue s cpu t (fun slot s => .ok (advance s slot t f))

/-- LDI (R54). -/
def execLdi (cpu : Cpu) (t : Fin 4) (imm : BitVec 24) (s : State) : Host.Outcome State Fault Refusal :=
  regOp s cpu t (fun th => accZN th (sext imm))

/-- LDIH (R54). -/
def execLdih (cpu : Cpu) (t : Fin 4) (imm : BitVec 16) (s : State) : Host.Outcome State Fault Refusal :=
  regOp s cpu t (fun th => accZN th (imm ++ bits th.acc 0 16))

/-- LIX (R54). -/
def execLix (cpu : Cpu) (t : Fin 4) (imm : BitVec 24) (s : State) : Host.Outcome State Fault Refusal :=
  regOp s cpu t (fun th => { th with ix := sext imm })

/-- LIY (R54). -/
def execLiy (cpu : Cpu) (t : Fin 4) (imm : BitVec 24) (s : State) : Host.Outcome State Fault Refusal :=
  regOp s cpu t (fun th => { th with iy := sext imm })

/-- ADDX (R54). -/
def execAddx (cpu : Cpu) (t : Fin 4) (imm : BitVec 24) (s : State) : Host.Outcome State Fault Refusal :=
  regOp s cpu t (fun th => { th with ix := th.ix + sext imm })

/-- ADDY (R54). -/
def execAddy (cpu : Cpu) (t : Fin 4) (imm : BitVec 24) (s : State) : Host.Outcome State Fault Refusal :=
  regOp s cpu t (fun th => { th with iy := th.iy + sext imm })

/-- CMPX (R54). -/
def execCmpx (cpu : Cpu) (t : Fin 4) (imm : BitVec 24) (s : State) : Host.Outcome State Fault Refusal :=
  regOp s cpu t (fun th => cmpFlags th th.ix (sext imm))

/-- CMPY (R54). -/
def execCmpy (cpu : Cpu) (t : Fin 4) (imm : BitVec 24) (s : State) : Host.Outcome State Fault Refusal :=
  regOp s cpu t (fun th => cmpFlags th th.iy (sext imm))

/-! ### Format X (R55) -/

/-- A shift's result with Z, N, and the last bit out in C unless n is zero. -/
def shiftOp (r : Word) (n : Nat) (out : Bool) (th : Thread) : Thread :=
  let th := accZN th r
  if n = 0 then th else { th with flags := putFlag th.flags fC out }

/-- The ones among the bits of a word. -/
def popCount (v : Word) : Nat := ((upFrom 0 32).filter (bitOf v)).length

/-- The zeros above the highest one. -/
def leadZeros (v : Word) : Nat := ((upFrom 0 32).map (fun i => bitOf v (31 - i))).takeWhile (!·) |>.length

/-- ACG:ACC as a signed number of 40 bits (R33). -/
def accGuard (th : Thread) : Int := (th.acg ++ th.acc).toInt

/-- ACG:ACC takes the low 40 bits of `v`. -/
def setAccGuard (th : Thread) (v : Int) : Thread :=
  let b := BitVec.ofInt 40 v
  { th with acg := bits b 32 8, acc := bits b 0 32 }

/-- `v` divided by 2^n, halfway cases to the even integer. -/
def roundShift (v : Int) (n : Nat) : Int :=
  let q := v / 2 ^ n
  let r := v % 2 ^ n * 2
  if r < 2 ^ n then q else if 2 ^ n < r then q + 1 else if q % 2 = 0 then q else q + 1

/-- `v` brought into `lo` to `hi`. -/
def clampInt (lo hi v : Int) : Int := if v < lo then lo else if hi < v then hi else v

/-- MACSH n. -/
def macshOp (n : Nat) (th : Thread) : Thread :=
  let r := roundShift (accGuard th) n
  let c := clampInt (-(2 ^ 31)) (2 ^ 31 - 1) r
  let th := accZN th (BitVec.ofInt 32 c)
  { th with flags := putFlag th.flags fV (decide (c ≠ r)) }

/-- NOP (R55). -/
def execNop (cpu : Cpu) (t : Fin 4) (s : State) : Host.Outcome State Fault Refusal := regOp s cpu t id

/-- SHL (R55). -/
def execShl (cpu : Cpu) (t : Fin 4) (n : BitVec 5) (s : State) : Host.Outcome State Fault Refusal :=
  regOp s cpu t (fun th => shiftOp (th.acc <<< n.toNat) n.toNat (bitOf th.acc (32 - n.toNat)) th)

/-- SHR (R55). -/
def execShr (cpu : Cpu) (t : Fin 4) (n : BitVec 5) (s : State) : Host.Outcome State Fault Refusal :=
  regOp s cpu t (fun th => shiftOp (th.acc >>> n.toNat) n.toNat (bitOf th.acc (n.toNat - 1)) th)

/-- SAR (R55). -/
def execSar (cpu : Cpu) (t : Fin 4) (n : BitVec 5) (s : State) : Host.Outcome State Fault Refusal :=
  regOp s cpu t (fun th => shiftOp (th.acc.sshiftRight n.toNat) n.toNat (bitOf th.acc (n.toNat - 1)) th)

/-- ROL (R55). -/
def execRol (cpu : Cpu) (t : Fin 4) (n : BitVec 5) (s : State) : Host.Outcome State Fault Refusal :=
  regOp s cpu t (fun th => accZN th (th.acc.rotateLeft n.toNat))

/-- NEG (R55). -/
def execNeg (cpu : Cpu) (t : Fin 4) (s : State) : Host.Outcome State Fault Refusal :=
  regOp s cpu t (fun th => accNZCV th (subWith 0 th.acc false))

/-- NOT (R55). -/
def execNot (cpu : Cpu) (t : Fin 4) (s : State) : Host.Outcome State Fault Refusal :=
  regOp s cpu t (fun th => accZN th (~~~th.acc))

/-- ABS (R55). -/
def execAbs (cpu : Cpu) (t : Fin 4) (s : State) : Host.Outcome State Fault Refusal :=
  regOp s cpu t (fun th =>
    let r := accZN th (if bitOf th.acc 31 then 0 - th.acc else th.acc)
    { r with flags := putFlag r.flags fV (th.acc == 0x80000000) })

/-- SEXB (R55). -/
def execSexb (cpu : Cpu) (t : Fin 4) (s : State) : Host.Outcome State Fault Refusal :=
  regOp s cpu t (fun th => accZN th (sextBytes 1 th.acc))

/-- SEXH (R55). -/
def execSexh (cpu : Cpu) (t : Fin 4) (s : State) : Host.Outcome State Fault Refusal :=
  regOp s cpu t (fun th => accZN th (sextBytes 2 th.acc))

/-- ZEXB (R55). -/
def execZexb (cpu : Cpu) (t : Fin 4) (s : State) : Host.Outcome State Fault Refusal :=
  regOp s cpu t (fun th => accZN th (zextBytes 1 th.acc))

/-- ZEXH (R55). -/
def execZexh (cpu : Cpu) (t : Fin 4) (s : State) : Host.Outcome State Fault Refusal :=
  regOp s cpu t (fun th => accZN th (zextBytes 2 th.acc))

/-- CLZ (R55). -/
def execClz (cpu : Cpu) (t : Fin 4) (s : State) : Host.Outcome State Fault Refusal :=
  regOp s cpu t (fun th => accZN th (BitVec.ofNat 32 (leadZeros th.acc)))

/-- POPC (R55). -/
def execPopc (cpu : Cpu) (t : Fin 4) (s : State) : Host.Outcome State Fault Refusal :=
  regOp s cpu t (fun th => accZN th (BitVec.ofNat 32 (popCount th.acc)))

/-- TAX (R55). -/
def execTax (cpu : Cpu) (t : Fin 4) (s : State) : Host.Outcome State Fault Refusal :=
  regOp s cpu t (fun th => { th with ix := th.acc })

/-- TAY (R55). -/
def execTay (cpu : Cpu) (t : Fin 4) (s : State) : Host.Outcome State Fault Refusal :=
  regOp s cpu t (fun th => { th with iy := th.acc })

/-- TXA (R55). -/
def execTxa (cpu : Cpu) (t : Fin 4) (s : State) : Host.Outcome State Fault Refusal :=
  regOp s cpu t (fun th => accZN th th.ix)

/-- TYA (R55). -/
def execTya (cpu : Cpu) (t : Fin 4) (s : State) : Host.Outcome State Fault Refusal :=
  regOp s cpu t (fun th => accZN th th.iy)

/-- SWXY (R55). -/
def execSwxy (cpu : Cpu) (t : Fin 4) (s : State) : Host.Outcome State Fault Refusal :=
  regOp s cpu t (fun th => { th with ix := th.iy, iy := th.ix })

/-- GFL (R55): ACC takes FLAGS, RSDEPTH included. -/
def execGfl (cpu : Cpu) (t : Fin 4) (s : State) : Host.Outcome State Fault Refusal :=
  regOp s cpu t (fun th => setAcc th (flagsView th))

/-- SFL (R55). -/
def execSfl (cpu : Cpu) (t : Fin 4) (s : State) : Host.Outcome State Fault Refusal :=
  regOp s cpu t (fun th => { th with flags := sflFlags th.flags th.acc })

/-- MACCLR (R55). -/
def execMacclr (cpu : Cpu) (t : Fin 4) (s : State) : Host.Outcome State Fault Refusal :=
  regOp s cpu t (fun th => { th with acc := 0, acg := 0, flags := setZN th.flags 0 })

/-- RDG (R55). -/
def execRdg (cpu : Cpu) (t : Fin 4) (s : State) : Host.Outcome State Fault Refusal :=
  regOp s cpu t (fun th => accZN th (sext th.acg))

/-- MACSH (R55). -/
def execMacsh (cpu : Cpu) (t : Fin 4) (n : BitVec 5) (s : State) : Host.Outcome State Fault Refusal :=
  regOp s cpu t (macshOp n.toNat)

/-! ### Multiply-accumulate (R56 to R58) -/

/-- The operand's value: zero-extended or sign-extended from the size. -/
def macOperand (u : Bool) (n : Nat) (v : Word) : Int :=
  if u then ((zextBytes n v).toNat : Int) else (sextBytes n v).toInt

/-- What R57 does with the exact sum: overflow of 40 bits sets MV and saturates or wraps; Z and N are over 40 bits; then
the pointers advance. -/
def macResult (v : Int) (n : Nat) (px py : Bool) (th : Thread) : Thread :=
  let outside := decide (v < -(2 ^ 39) ∨ 2 ^ 39 - 1 < v)
  let v' :=
    if outside then (if bitOf th.flags fSAT then clampInt (-(2 ^ 39)) (2 ^ 39 - 1) v else (BitVec.ofInt 40 v).toInt) else v
  let fl := if outside then putFlag th.flags fMV true else th.flags
  let th := setAccGuard { th with flags := putFlag (putFlag fl fZ (decide (v' = 0))) fN (decide (v' < 0)) } v'
  let th := if px then { th with ix := th.ix + BitVec.ofNat 32 n } else th
  if py then { th with iy := th.iy + BitVec.ofNat 32 n } else th

/-- Operand X: held already, or read now; it may still be on its way. -/
def macX (s : State) (slot : Nat) (t : Fin 4) (p : Place) (a n : Nat) (ret : Bool) (x : Option Word) :
    Res (State × Option Word) :=
  match x with
  | some v => .ok (s, some v)
  | none => (loadPlace s slot t p a n ret).andThen (fun g =>
      match g with
      | .val s v => .ok (s, some v)
      | .wait s => .ok (s, none))

/-- Operand Y at address `a`, likewise. Its fault is held, since X is checked completely first, wherever each lies (R42, R58). -/
def macY (s : State) (slot : Nat) (t : Fin 4) (a n : Nat) (ret : Bool) (y : Option (FaultInfo ⊕ Word)) :
    Res (State × Option (FaultInfo ⊕ Word)) :=
  match y with
  | some v => .ok (s, some v)
  | none =>
    match (checkPlace s slot t (getTh s slot t).ddc a n pLOAD).andThen (fun q => loadPlace s slot t q a n ret) with
    | .ok (.val s v) => .ok (s, some (.inr v))
    | .ok (.wait s) => .ok (s, none)
    | .after s f => .ok (s, some (.inl f))
    | .fault f => .ok (s, some (.inl f))
    | .stall => .stall

/-- MACD, MSBD and MULD: `op` combines ACG:ACC with the exact product (R57). X is checked before Y (R42); one
in local memory is read and one in shared SRAM requested in the issue cycle, and the thread blocks until what is on its
way has returned (R58, R69). `x` and `y` are the operands that the thread holds already. -/
def macBody (op : Int → Int → Int) (sz : BitVec 2) (px py ux uy : Bool) (dx dy : BitVec 8) (self : Instr) (ret : Bool)
    (x : Option Word) (y : Option (FaultInfo ⊕ Word)) (t : Fin 4) (slot : Nat) (s : State) : Res State :=
  match sz.toNat with
  | 0 => go 1
  | 1 => go 2
  | _ => .fault (plainFault cILLEGAL)
where
  go (n : Nat) : Res State :=
    let th := getTh s slot t
    let ax := (th.ix + sext dx).toNat
    let ay := (th.iy + sext dy).toNat
    (checkPlace s slot t th.ddc ax n pLOAD).andThen (fun p =>
      (macX s slot t p ax n ret x).andThen (fun (s, x) =>
        (macY s slot t ay n ret y).andThen (fun (s, y) =>
          match x, y with
          | some a, some (.inr b) =>
            let prod := macOperand ux n a * macOperand uy n b
            .ok (advance s slot t (fun th => macResult (op (accGuard th) prod) n px py th))
          | some _, some (.inl f) => .after s f
          | x, y => .ok (modTh s slot t (fun th => { th with block := some (.operands self x y) })))))

def macdOp (s p : Int) : Int := s + p
def msbdOp (s p : Int) : Int := s - p
def muldOp (_ p : Int) : Int := p

/-- MACD (R56, R57). -/
def execMacd (cpu : Cpu) (t : Fin 4) (sz : BitVec 2) (px py ux uy : Bool) (dx dy : BitVec 8) (s : State) :
    Host.Outcome State Fault Refusal :=
  issue s cpu t (macBody macdOp sz px py ux uy dx dy (.macd cpu t sz px py ux uy dx dy) false none none t)

/-- MSBD (R56, R57). -/
def execMsbd (cpu : Cpu) (t : Fin 4) (sz : BitVec 2) (px py ux uy : Bool) (dx dy : BitVec 8) (s : State) :
    Host.Outcome State Fault Refusal :=
  issue s cpu t (macBody msbdOp sz px py ux uy dx dy (.msbd cpu t sz px py ux uy dx dy) false none none t)

/-- MULD (R56, R57). -/
def execMuld (cpu : Cpu) (t : Fin 4) (sz : BitVec 2) (px py ux uy : Bool) (dx dy : BitVec 8) (s : State) :
    Host.Outcome State Fault Refusal :=
  issue s cpu t (macBody muldOp sz px py ux uy dx dy (.muld cpu t sz px py ux uy dx dy) false none none t)

/-! ### Multiply and divide (R59, R60) -/

/-- A result with Z, N and V; C unchanged. -/
def mulResult (v : Word) (o : Bool) (th : Thread) : Thread :=
  let th := accZN th v
  { th with flags := putFlag th.flags fV o }

def mulOp (m : Word) (th : Thread) : Thread :=
  let p := th.acc.toInt * m.toInt
  mulResult (BitVec.ofInt 32 p) (decide (p < -(2 ^ 31) ∨ 2 ^ 31 - 1 < p)) th

def mulhOp (m : Word) (th : Thread) : Thread :=
  mulResult (BitVec.ofInt 32 (th.acc.toInt * m.toInt / 2 ^ 32)) false th

def mulhuOp (m : Word) (th : Thread) : Thread :=
  mulResult (BitVec.ofNat 32 (th.acc.toNat * m.toNat / 2 ^ 32)) false th

/-- The most negative word. -/
def minWord : Word := 0x80000000

def divOp (m : Word) (th : Thread) : Thread :=
  if m = 0 then accNZCV th (0xFFFFFFFF, true, true)
  else if th.acc = minWord ∧ m = 0xFFFFFFFF then accNZCV th (minWord, false, true)
  else accNZCV th (BitVec.ofInt 32 (th.acc.toInt.tdiv m.toInt), false, false)

def divuOp (m : Word) (th : Thread) : Thread :=
  if m = 0 then accNZCV th (0xFFFFFFFF, true, true) else accNZCV th (BitVec.ofNat 32 (th.acc.toNat / m.toNat), false, false)

def remOp (m : Word) (th : Thread) : Thread :=
  if m = 0 then accNZCV th (th.acc, true, true)
  else if th.acc = minWord ∧ m = 0xFFFFFFFF then accNZCV th (0, false, true)
  else accNZCV th (BitVec.ofInt 32 (th.acc.toInt.tmod m.toInt), false, false)

def remuOp (m : Word) (th : Thread) : Thread :=
  if m = 0 then accNZCV th (th.acc, true, true) else accNZCV th (BitVec.ofNat 32 (th.acc.toNat % m.toNat), false, false)

/-- Major 0x07: the memory operand, sign-extended or zero-extended from its size. -/
def mulBody (f : Word → Thread → Thread) (signed : Bool) (sz : BitVec 2) (m : BitVec 22) :=
  loadBody (fun n v => f (if signed then sextBytes n v else zextBytes n v)) sz m

/-- MUL (R59). -/
def execMul (cpu : Cpu) (t : Fin 4) (sz : BitVec 2) (m : BitVec 22) (s : State) : Host.Outcome State Fault Refusal :=
  issue s cpu t (mulBody mulOp true sz m (.mul cpu t sz m) false t)

/-- MULH (R59). -/
def execMulh (cpu : Cpu) (t : Fin 4) (sz : BitVec 2) (m : BitVec 22) (s : State) : Host.Outcome State Fault Refusal :=
  issue s cpu t (mulBody mulhOp true sz m (.mulh cpu t sz m) false t)

/-- MULHU (R59). -/
def execMulhu (cpu : Cpu) (t : Fin 4) (sz : BitVec 2) (m : BitVec 22) (s : State) : Host.Outcome State Fault Refusal :=
  issue s cpu t (mulBody mulhuOp false sz m (.mulhu cpu t sz m) false t)

/-- DIV (R59, R60). -/
def execDiv (cpu : Cpu) (t : Fin 4) (sz : BitVec 2) (m : BitVec 22) (s : State) : Host.Outcome State Fault Refusal :=
  issue s cpu t (mulBody divOp true sz m (.div cpu t sz m) false t)

/-- DIVU (R59, R60). -/
def execDivu (cpu : Cpu) (t : Fin 4) (sz : BitVec 2) (m : BitVec 22) (s : State) : Host.Outcome State Fault Refusal :=
  issue s cpu t (mulBody divuOp false sz m (.divu cpu t sz m) false t)

/-- REM (R59, R60). -/
def execRem (cpu : Cpu) (t : Fin 4) (sz : BitVec 2) (m : BitVec 22) (s : State) : Host.Outcome State Fault Refusal :=
  issue s cpu t (mulBody remOp true sz m (.rem cpu t sz m) false t)

/-- REMU (R59, R60). -/
def execRemu (cpu : Cpu) (t : Fin 4) (sz : BitVec 2) (m : BitVec 22) (s : State) : Host.Outcome State Fault Refusal :=
  issue s cpu t (mulBody remuOp false sz m (.remu cpu t sz m) false t)

end Sys2Proof.Machine
end

