-- ==== Sys2Proof/Machine/LoadReturn.lean ====
section
/-! DEFINITION. The return of data from shared SRAM and the acknowledgement of stores (R58, R68, R363), and the scrub of a
slice (R268). -/
namespace Sys2Proof.Machine

/-- The instruction that waited runs to its end with the data that has returned. -/
def completeLoad (s : State) (slot : Nat) (t : Fin 4) (body : Nat → State → Res State) : State :=
  let s' := modTh s slot t (fun th => { th with block := none })
  match body slot s' with
  | .ok r => r
  | .fault f => takeFault s' slot t f
  | .after r f => takeFault r slot t f
  | .stall => s

/-- The body of a blocked instruction, with its data returned. -/
def returnedBody (i : Instr) (t : Fin 4) : Option (Nat → State → Res State) :=
  match i with
  | .ld _ _ sz m => some (ldBody sz m i true t)
  | .ldu _ _ sz m => some (lduBody sz m i true t)
  | .ldx _ _ sz m => some (ldxBody sz m i true t)
  | .ldy _ _ sz m => some (ldyBody sz m i true t)
  | .xch _ _ sz m => some (xchBody sz m i true t)
  | .add _ _ src => some (aluBody addOp src i true t)
  | .adc _ _ src => some (aluBody adcOp src i true t)
  | .sub _ _ src => some (aluBody subOp src i true t)
  | .sbc _ _ src => some (aluBody sbcOp src i true t)
  | .and _ _ src => some (aluBody andOp src i true t)
  | .or _ _ src => some (aluBody orOp src i true t)
  | .xor _ _ src => some (aluBody xorOp src i true t)
  | .cmp _ _ src => some (aluBody cmpOp src i true t)
  | .mul _ _ sz m => some (mulBody mulOp true sz m i true t)
  | .mulh _ _ sz m => some (mulBody mulhOp true sz m i true t)
  | .mulhu _ _ sz m => some (mulBody mulhuOp false sz m i true t)
  | .div _ _ sz m => some (mulBody divOp true sz m i true t)
  | .divu _ _ sz m => some (mulBody divuOp false sz m i true t)
  | .rem _ _ sz m => some (mulBody remOp true sz m i true t)
  | .remu _ _ sz m => some (mulBody remuOp false sz m i true t)
  | .ldk _ _ cr cb d => some (ldkBody cr cb d i true t)
  | .xld _ _ sz cb d => some (xldBody sextBytes sz cb d i true t)
  | .xldu _ _ sz cb d => some (xldBody zextBytes sz cb d i true t)
  | _ => none

/-- A blocked multiply-accumulate with the operands it holds, the others returned (R58). -/
def returnedMac (i : Instr) (x : Option Word) (y : Option (FaultInfo ⊕ Word)) (t : Fin 4) : Option (Nat → State → Res State) :=
  match i with
  | .macd _ _ sz px py ux uy dx dy => some (macBody macdOp sz px py ux uy dx dy i true x y t)
  | .msbd _ _ sz px py ux uy dx dy => some (macBody msbdOp sz px py ux uy dx dy i true x y t)
  | .muld _ _ sz px py ux uy dx dy => some (macBody muldOp sz px py ux uy dx dy i true x y t)
  | _ => none

/-- What goes on when the data of a blocked thread returns. -/
def returned (b : Option Block) (t : Fin 4) : Option (Nat → State → Res State) :=
  match b with
  | some (.sram i) => returnedBody i t
  | some (.operands i x y) => returnedMac i x y t
  | _ => none

/-- The marker of an XCH whose data has returned awaits its acknowledgement alone. -/
def exchanged (th : Thread) : Thread :=
  { th with pend := th.pend.map (fun p => if p.bytes.isEmpty then { p with applied := true } else p) }

/-- SRAM_LOAD_RETURN (R58, R68). The load of a core that has halted meanwhile completes (DESIGN CHOICE, log 154). -/
def execSramLoadReturn (cpu : Cpu) (t : Fin 4) (s : State) : Host.Outcome State Fault Refusal :=
  onCore s cpu (fun slot s =>
    match returned (getTh s slot t).block t with
    | some body => modTh (completeLoad s slot t body) slot t exchanged
    | none => s)

/-- SRAM_STORE_ACK (R363): the acknowledgement of entry `i` of the thread's list arrives. Acknowledgements of one slice
come in order, so it is taken for the oldest entry of that slice; the bytes have then reached the slice. -/
def execSramStoreAck (cpu : Cpu) (t : Fin 4) (i : Nat) (s : State) : Host.Outcome State Fault Refusal :=
  onCore s cpu (fun slot s =>
    let th := getTh s slot t
    match th.pend[i]? with
    | none => s
    | some p =>
      let j := th.pend.findIdx (fun q => q.slice == p.slice)
      match th.pend[j]? with
      | none => s
      | some q =>
        if q.bytes.isEmpty && !q.applied then s
        else
          let s := if q.applied then s else applyPending s q
          modTh s slot t (fun th => { th with pend := th.pend.eraseIdx j }))

def scrubNext (_ : Nat) : Nat := 0

/-- SLICE_SCRUB (R268): the slice's scrubber meets its next word. -/
def execSliceScrub (cluster : Fin 8) (slice : Nat) (s : State) : Host.Outcome State Fault Refusal :=
  if dark s then .next s else
  let k := slice % 48
  let key := 48 * cluster.val + k
  let w := tget scrubNext s.sramScrub key
  let off := 0x06000000 * cluster.val + 0x00200000 * k + 4 * w
  let s := settleSram s off 4
  .next { s with sramScrub := tset scrubNext s.sramScrub key ((w + 1) % 0x80000) }

end Sys2Proof.Machine
end

