-- ==== Sys2Proof/Machine/RegWrite.lean ====
section
/-! DEFINITION. Plain register writes, and what the host reads of BAR0 and the status window (R4, R493 to R496). -/
namespace Sys2Proof.Machine

/-! ### BAR0 (R494, R495) -/

/-- A write of the vector control word of MSI-X entry `v`: a vector that is unmasked while its message is pending sends it,
as PCI Express defines. -/
def vectorControl (s : State) (v : Nat) (w : Word) : State :=
  let s := barPut s (16 * v + 12) (leBytes 4 w.toNat)
  if !bitOf w 0 && bitOf s.pba v then raiseMsi { s with pba := s.pba &&& ~~~(oneAt 64 v) } v else s

/-- The host writes a word of BAR0. Writes to reserved offsets of the control page are discarded. -/
def hostWrite (s : State) (o : Nat) (w : Word) : State :=
  if !s.mod.mrst ∨ s.mod.mode ≠ .active ∨ o % 4 ≠ 0 then s
  else if 0x1000 ≤ o then barPut s o (leBytes 4 w.toNat)
  else if o < 0x400 then (if o % 16 = 12 then vectorControl s (o / 16) w else barPut s o (leBytes 4 w.toNat))
  else if o = 0x800 then takeDoorbell s (bits w 0 6)
  else if o = 0x804 then barPut s o (leBytes 4 (w &&& 0x1FF).toNat)
  else if o = 0x808 then barPut s o (leBytes 4 (w &&& 0x8000003F).toNat)
  else s

/-- The offset is of a word that the mailbox SRAM holds. -/
def barBacked (o : Nat) : Bool := decide (o < 0x400 ∨ o = 0x804 ∨ o = 0x808 ∨ 0x1000 ≤ o)

/-- The word that the host reads in BAR0. -/
def barWord (s : State) (o : Nat) : Word :=
  if o = 0x400 then bits s.pba 0 32
  else if o = 0x404 then bits s.pba 32 32
  else if o = 0x80C then
    (ofBool 32 s.so.ready <<< 31) ||| (ofBool 32 (isReduced s) <<< 30) ||| s.so.dbign.setWidth 32
  else if barBacked o then memWord s.mbx o
  else 0

/-- A host read of a word of BAR0: the memory corrects or poisons it (R266), and none is Completer Abort (R494). -/
def barRead (s : State) (o : Nat) : State × Option Word :=
  if barBacked o then
    let s := { s with mbx := (settleWords 4 s.mbx (wordsOf 4 o 4)).mem }
    (s, if memPoisoned 4 s.mbx o 4 then none else some (barWord s o))
  else (s, some (barWord s o))

/-! ### The status window (R496) -/

/-- The word that the host reads in BAR2. -/
def statusWord (s : State) (o : Nat) : Word :=
  if o = 0x0000 then s.so.version
  else if o = 0x0004 then BitVec.ofNat 32 (s.mod.service + 256 * phaseOf s)
  else if o = 0x0008 then identCores s
  else if o = 0x0010 then s.so.session
  else if 0x0100 ≤ o ∧ o < 0x0120 then clStat s (Fin.ofNat 8 ((o - 0x100) / 4))
  else if 0x1000 ≤ o ∧ o < 0x3000 then bits (tget ringDefault s.evtRing ((o - 0x1000) / 16)) (8 * (o % 16)) 32
  else if o = 0x3000 then s.evtProd.setWidth 32
  else if o = 0x3004 then s.evtLost
  else if 0x8000 ≤ o ∧ o < 0xC000 then frWord s (o - 0x8000)
  else if 0xC000 ≤ o ∧ o < 0xD000 then nmWord s (o - 0xC000)
  else 0

/-! ### REGISTER_WRITE (R4) -/

/-- The core's register is written through the window of its cluster (R492). -/
def coreRegWrite (s : State) (n : Nat) (off : BitVec 16) (v : Word) : State :=
  match siteOf s n with
  | some site => windowWrite s (clusterOf site) n off.toNat v
  | none => s

/-- REGISTER_WRITE (R4, R6): a write of a register of a core, of device CSR space, of a control core's page, or of BAR0. -/
def execRegisterWrite (reg : RegAddr) (v : BitVec 32) (s : State) : Host.Outcome State Fault Refusal :=
  if dark s then .next s else
  match reg with
  | .core n off => .next (coreRegWrite s n off v)
  | .dev off => .next (if devWaits s off.toNat (some v) then s else devWrite s off.toNat v)
  | .so k off => .next (soPageWrite s k.val off.toNat v)
  | .bar0 off => .next (hostWrite s off.toNat v)

end Sys2Proof.Machine
end

