-- ==== Sys2Proof/Machine/Dispatch.lean ====
section
/-! DEFINITION. One arm per command: each calls the meaning of its row of the opcode table. -/
namespace Sys2Proof.Machine

def exec (i : Instr) (s : State) : Host.Outcome State Fault Refusal :=
  match i with
  | .ld cpu t sz m => Sys2Proof.Machine.execLd cpu t sz m s
  | .ldu cpu t sz m => Sys2Proof.Machine.execLdu cpu t sz m s
  | .ldx cpu t sz m => Sys2Proof.Machine.execLdx cpu t sz m s
  | .ldy cpu t sz m => Sys2Proof.Machine.execLdy cpu t sz m s
  | .leax cpu t sz m => Sys2Proof.Machine.execLeax cpu t sz m s
  | .leay cpu t sz m => Sys2Proof.Machine.execLeay cpu t sz m s
  | .st cpu t sz m => Sys2Proof.Machine.execSt cpu t sz m s
  | .stx cpu t sz m => Sys2Proof.Machine.execStx cpu t sz m s
  | .sty cpu t sz m => Sys2Proof.Machine.execSty cpu t sz m s
  | .stz cpu t sz m => Sys2Proof.Machine.execStz cpu t sz m s
  | .xch cpu t sz m => Sys2Proof.Machine.execXch cpu t sz m s
  | .add cpu t src => Sys2Proof.Machine.execAdd cpu t src s
  | .adc cpu t src => Sys2Proof.Machine.execAdc cpu t src s
  | .sub cpu t src => Sys2Proof.Machine.execSub cpu t src s
  | .sbc cpu t src => Sys2Proof.Machine.execSbc cpu t src s
  | .and cpu t src => Sys2Proof.Machine.execAnd cpu t src s
  | .or cpu t src => Sys2Proof.Machine.execOr cpu t src s
  | .xor cpu t src => Sys2Proof.Machine.execXor cpu t src s
  | .cmp cpu t src => Sys2Proof.Machine.execCmp cpu t src s
  | .ldi cpu t imm => Sys2Proof.Machine.execLdi cpu t imm s
  | .ldih cpu t imm => Sys2Proof.Machine.execLdih cpu t imm s
  | .lix cpu t imm => Sys2Proof.Machine.execLix cpu t imm s
  | .liy cpu t imm => Sys2Proof.Machine.execLiy cpu t imm s
  | .addx cpu t imm => Sys2Proof.Machine.execAddx cpu t imm s
  | .addy cpu t imm => Sys2Proof.Machine.execAddy cpu t imm s
  | .cmpx cpu t imm => Sys2Proof.Machine.execCmpx cpu t imm s
  | .cmpy cpu t imm => Sys2Proof.Machine.execCmpy cpu t imm s
  | .nop cpu t => Sys2Proof.Machine.execNop cpu t s
  | .shl cpu t n => Sys2Proof.Machine.execShl cpu t n s
  | .shr cpu t n => Sys2Proof.Machine.execShr cpu t n s
  | .sar cpu t n => Sys2Proof.Machine.execSar cpu t n s
  | .rol cpu t n => Sys2Proof.Machine.execRol cpu t n s
  | .neg cpu t => Sys2Proof.Machine.execNeg cpu t s
  | .not cpu t => Sys2Proof.Machine.execNot cpu t s
  | .abs cpu t => Sys2Proof.Machine.execAbs cpu t s
  | .sexb cpu t => Sys2Proof.Machine.execSexb cpu t s
  | .sexh cpu t => Sys2Proof.Machine.execSexh cpu t s
  | .zexb cpu t => Sys2Proof.Machine.execZexb cpu t s
  | .zexh cpu t => Sys2Proof.Machine.execZexh cpu t s
  | .clz cpu t => Sys2Proof.Machine.execClz cpu t s
  | .popc cpu t => Sys2Proof.Machine.execPopc cpu t s
  | .tax cpu t => Sys2Proof.Machine.execTax cpu t s
  | .tay cpu t => Sys2Proof.Machine.execTay cpu t s
  | .txa cpu t => Sys2Proof.Machine.execTxa cpu t s
  | .tya cpu t => Sys2Proof.Machine.execTya cpu t s
  | .swxy cpu t => Sys2Proof.Machine.execSwxy cpu t s
  | .gfl cpu t => Sys2Proof.Machine.execGfl cpu t s
  | .sfl cpu t => Sys2Proof.Machine.execSfl cpu t s
  | .macclr cpu t => Sys2Proof.Machine.execMacclr cpu t s
  | .rdg cpu t => Sys2Proof.Machine.execRdg cpu t s
  | .macsh cpu t n => Sys2Proof.Machine.execMacsh cpu t n s
  | .macd cpu t sz px py ux uy dx dy => Sys2Proof.Machine.execMacd cpu t sz px py ux uy dx dy s
  | .msbd cpu t sz px py ux uy dx dy => Sys2Proof.Machine.execMsbd cpu t sz px py ux uy dx dy s
  | .muld cpu t sz px py ux uy dx dy => Sys2Proof.Machine.execMuld cpu t sz px py ux uy dx dy s
  | .mul cpu t sz m => Sys2Proof.Machine.execMul cpu t sz m s
  | .mulh cpu t sz m => Sys2Proof.Machine.execMulh cpu t sz m s
  | .mulhu cpu t sz m => Sys2Proof.Machine.execMulhu cpu t sz m s
  | .div cpu t sz m => Sys2Proof.Machine.execDiv cpu t sz m s
  | .divu cpu t sz m => Sys2Proof.Machine.execDivu cpu t sz m s
  | .rem cpu t sz m => Sys2Proof.Machine.execRem cpu t sz m s
  | .remu cpu t sz m => Sys2Proof.Machine.execRemu cpu t sz m s
  | .branch cpu t cond off => Sys2Proof.Machine.execBranch cpu t cond off s
  | .jmp cpu t imm => Sys2Proof.Machine.execJmp cpu t imm s
  | .call cpu t imm => Sys2Proof.Machine.execCall cpu t imm s
  | .jx cpu t => Sys2Proof.Machine.execJx cpu t s
  | .callx cpu t => Sys2Proof.Machine.execCallx cpu t s
  | .ret cpu t => Sys2Proof.Machine.execRet cpu t s
  | .rspop cpu t => Sys2Proof.Machine.execRspop cpu t s
  | .rspush cpu t => Sys2Proof.Machine.execRspush cpu t s
  | .sramLoadReturn cpu t => Sys2Proof.Machine.execSramLoadReturn cpu t s
  | .sramStoreAck cpu t ix => Sys2Proof.Machine.execSramStoreAck cpu t ix s
  | .kcopy cpu t cd cs => Sys2Proof.Machine.execKcopy cpu t cd cs s
  | .kread cpu t cs sel => Sys2Proof.Machine.execKread cpu t cs sel s
  | .kaim cpu t cd cs => Sys2Proof.Machine.execKaim cpu t cd cs s
  | .knarrow cpu t cd cs => Sys2Proof.Machine.execKnarrow cpu t cd cs s
  | .kmask cpu t cd cs => Sys2Proof.Machine.execKmask cpu t cd cs s
  | .kvoid cpu t cd => Sys2Proof.Machine.execKvoid cpu t cd s
  | .khere cpu t cd => Sys2Proof.Machine.execKhere cpu t cd s
  | .kwrap cpu t cd cs ca => Sys2Proof.Machine.execKwrap cpu t cd cs ca s
  | .kunwrap cpu t cd cs ca => Sys2Proof.Machine.execKunwrap cpu t cd cs ca s
  | .setg cpu t n cs ca => Sys2Proof.Machine.execSetg cpu t n cs ca s
  | .ldk cpu t cr cb d => Sys2Proof.Machine.execLdk cpu t cr cb d s
  | .stk cpu t cr cb d => Sys2Proof.Machine.execStk cpu t cr cb d s
  | .xld cpu t sz cb d => Sys2Proof.Machine.execXld cpu t sz cb d s
  | .xldu cpu t sz cb d => Sys2Proof.Machine.execXldu cpu t sz cb d s
  | .xst cpu t sz cb d => Sys2Proof.Machine.execXst cpu t sz cb d s
  | .gate cpu t n => Sys2Proof.Machine.execGate cpu t n s
  | .rgate cpu t => Sys2Proof.Machine.execRgate cpu t s
  | .closureClose cpu t n => Sys2Proof.Machine.execClosureClose cpu t n s
  | .closureOpen cpu t => Sys2Proof.Machine.execClosureOpen cpu t s
  | .closureEnd cpu t => Sys2Proof.Machine.execClosureEnd cpu t s
  | .fence cpu t scope => Sys2Proof.Machine.execFence cpu t scope s
  | .exceptionEntry cpu t src => Sys2Proof.Machine.execExceptionEntry cpu t src s
  | .eret cpu t => Sys2Proof.Machine.execEret cpu t s
  | .escalation cpu t code orig faddr info => Sys2Proof.Machine.execEscalation cpu t code orig faddr info s
  | .escret cpu t => Sys2Proof.Machine.execEscret cpu t s
  | .wfe cpu t => Sys2Proof.Machine.execWfe cpu t s
  | .sev cpu t mask => Sys2Proof.Machine.execSev cpu t mask s
  | .clrev cpu t => Sys2Proof.Machine.execClrev cpu t s
  | .cycWake cpu => Sys2Proof.Machine.execCycWake cpu s
  | .threadStart cpu t => Sys2Proof.Machine.execThreadStart cpu t s
  | .threadResume cpu t => Sys2Proof.Machine.execThreadResume cpu t s
  | .slotTableUpdate cpu => Sys2Proof.Machine.execSlotTableUpdate cpu s
  | .notifyDelivery cpu => Sys2Proof.Machine.execNotifyDelivery cpu s
  | .orphanWait cpu => Sys2Proof.Machine.execOrphanWait cpu s
  | .dbgStop cpu t => Sys2Proof.Machine.execDbgStop cpu t s
  | .debugStopTaken cpu t => Sys2Proof.Machine.execDebugStopTaken cpu t s
  | .dbgStep cpu t => Sys2Proof.Machine.execDbgStep cpu t s
  | .dbgResume cpu t => Sys2Proof.Machine.execDbgResume cpu t s
  | .dbgEvent cpu t => Sys2Proof.Machine.execDbgEvent cpu t s
  | .dbgStopAll cpu => Sys2Proof.Machine.execDbgStopAll cpu s
  | .dbgResumeAll cpu => Sys2Proof.Machine.execDbgResumeAll cpu s
  | .dbgDataAccess cpu write => Sys2Proof.Machine.execDbgDataAccess cpu write s
  | .dbgFlagWrite core index value => Sys2Proof.Machine.execDbgFlagWrite core index value s
  | .dbgBarrierArrive core net => Sys2Proof.Machine.execDbgBarrierArrive core net s
  | .dbgBarrierWithdraw core net => Sys2Proof.Machine.execDbgBarrierWithdraw core net s
  | .numericCtlWrite core who v => Sys2Proof.Machine.execNumericCtlWrite core who v s
  | .numSeedLoWrite core v => Sys2Proof.Machine.execNumSeedLoWrite core v s
  | .numSeedHiWrite core who v => Sys2Proof.Machine.execNumSeedHiWrite core who v s
  | .numericSettingsApply core => Sys2Proof.Machine.execNumericSettingsApply core s
  | .vadd core t vd va vb fa fb fd => Sys2Proof.Machine.execVadd core t vd va vb fa fb fd s
  | .vsub core t vd va vb fa fb fd => Sys2Proof.Machine.execVsub core t vd va vb fa fb fd s
  | .vmul core t vd va vb fa fb fd => Sys2Proof.Machine.execVmul core t vd va vb fa fb fd s
  | .vmac core t vd va vb fa fb fd => Sys2Proof.Machine.execVmac core t vd va vb fa fb fd s
  | .vmin core t vd va vb fa fb fd => Sys2Proof.Machine.execVmin core t vd va vb fa fb fd s
  | .vmax core t vd va vb fa fb fd => Sys2Proof.Machine.execVmax core t vd va vb fa fb fd s
  | .vdiv core t vd va vb fa fb fd => Sys2Proof.Machine.execVdiv core t vd va vb fa fb fd s
  | .vlsum core t vd va fa fd => Sys2Proof.Machine.execVlsum core t vd va fa fd s
  | .vcmp core t vd va vb fa fb cc => Sys2Proof.Machine.execVcmp core t vd va vb fa fb cc s
  | .vand core t vd va vb => Sys2Proof.Machine.execVand core t vd va vb s
  | .vor core t vd va vb => Sys2Proof.Machine.execVor core t vd va vb s
  | .vxor core t vd va vb => Sys2Proof.Machine.execVxor core t vd va vb s
  | .vsel core t vd va vb fd => Sys2Proof.Machine.execVsel core t vd va vb fd s
  | .vpopc core t vd va fd => Sys2Proof.Machine.execVpopc core t vd va fd s
  | .vrsum core t vd va fa fd => Sys2Proof.Machine.execVrsum core t vd va fa fd s
  | .vrmax core t vd va fa fd => Sys2Proof.Machine.execVrmax core t vd va fa fd s
  | .vrmin core t vd va fa fd => Sys2Proof.Machine.execVrmin core t vd va fa fd s
  | .vrdot core t vd va vb fa fb fd => Sys2Proof.Machine.execVrdot core t vd va vb fa fb fd s
  | .vperm core t vd va vb fa => Sys2Proof.Machine.execVperm core t vd va vb fa s
  | .vsplat core t vd fd => Sys2Proof.Machine.execVsplat core t vd fd s
  | .vget core t va fa => Sys2Proof.Machine.execVget core t va fa s
  | .vcvt core t vd va fa part fd => Sys2Proof.Machine.execVcvt core t vd va fa part fd s
  | .vld core t vd h x off => Sys2Proof.Machine.execVld core t vd h x off s
  | .vst core t vd h x off => Sys2Proof.Machine.execVst core t vd h x off s
  | .vscaleWrite core who reg v => Sys2Proof.Machine.execVscaleWrite core who reg v s
  | .vectorRetire core => Sys2Proof.Machine.execVectorRetire core s
  | .mma core t a x y => Sys2Proof.Machine.execMma core t a x y s
  | .tzero core t a int => Sys2Proof.Machine.execTzero core t a int s
  | .taccTile core t d a half dp => Sys2Proof.Machine.execTaccTile core t d a half dp s
  | .taccMem core t a h x off fs tr => Sys2Proof.Machine.execTaccMem core t a h x off fs tr s
  | .tupd core t d a half dp eb => Sys2Proof.Machine.execTupd core t d a half dp eb s
  | .tlsum core t d a half dp eb => Sys2Proof.Machine.execTlsum core t d a half dp eb s
  | .tld core t tt h x off fs tr => Sys2Proof.Machine.execTld core t tt h x off fs tr s
  | .tst core t tt h x off fs tr => Sys2Proof.Machine.execTst core t tt h x off fs tr s
  | .tlds core t tt h x off => Sys2Proof.Machine.execTlds core t tt h x off s
  | .tsts core t tt h x off => Sys2Proof.Machine.execTsts core t tt h x off s
  | .tfence core t => Sys2Proof.Machine.execTfence core t s
  | .tileCfgWrite core who reg v => Sys2Proof.Machine.execTileCfgWrite core who reg v s
  | .tileRetire core matrix => Sys2Proof.Machine.execTileRetire core matrix s
  | .hrebind core who v => Sys2Proof.Machine.execHrebind core who v s
  | .handleRebindDone core => Sys2Proof.Machine.execHandleRebindDone core s
  | .sliceScrub cluster slice => Sys2Proof.Machine.execSliceScrub cluster slice s
  | .rsend core t r => Sys2Proof.Machine.execRsend core t r s
  | .reductionRelease r => Sys2Proof.Machine.execReductionRelease r s
  | .mrouteWrite r reg v => Sys2Proof.Machine.execMrouteWrite r reg v s
  | .streamStart core who u entry => Sys2Proof.Machine.execStreamStart core who u entry s
  | .streamStop core u => Sys2Proof.Machine.execStreamStop core u s
  | .sprogWrite core u ix v => Sys2Proof.Machine.execSprogWrite core u ix v s
  | .srel core who u count => Sys2Proof.Machine.execSrel core who u count s
  | .streamCycleGrant core => Sys2Proof.Machine.execStreamCycleGrant core s
  | .streamRunStart core u => Sys2Proof.Machine.execStreamRunStart core u s
  | .streamRowArrival core u rows => Sys2Proof.Machine.execStreamRowArrival core u rows s
  | .streamWriteAck core u => Sys2Proof.Machine.execStreamWriteAck core u s
  | .streamIdleTimeout core u => Sys2Proof.Machine.execStreamIdleTimeout core u s
  | .streamFaultDelivery core u => Sys2Proof.Machine.execStreamFaultDelivery core u s
  | .cdoor core who v => Sys2Proof.Machine.execCdoor core who v s
  | .cctlGo cluster ch v => Sys2Proof.Machine.execCctlGo cluster ch v s
  | .cctlPause cluster ch on => Sys2Proof.Machine.execCctlPause cluster ch on s
  | .cctlAbort cluster ch => Sys2Proof.Machine.execCctlAbort cluster ch s
  | .courierBurstGrant cluster n => Sys2Proof.Machine.execCourierBurstGrant cluster n s
  | .courierPaused cluster ch => Sys2Proof.Machine.execCourierPaused cluster ch s
  | .courierComplete cluster ch => Sys2Proof.Machine.execCourierComplete cluster ch s
  | .fgo core who k v => Sys2Proof.Machine.execFgo core who k v s
  | .farReadData core ix => Sys2Proof.Machine.execFarReadData core ix s
  | .pstw core t => Sys2Proof.Machine.execPstw core t s
  | .pclr core t => Sys2Proof.Machine.execPclr core t s
  | .pget core t ix => Sys2Proof.Machine.execPget core t ix s
  | .pret core t => Sys2Proof.Machine.execPret core t s
  | .post core t e => Sys2Proof.Machine.execPost core t e s
  | .postq core t e => Sys2Proof.Machine.execPostq core t e s
  | .fsig core t mode er scope f => Sys2Proof.Machine.execFsig core t mode er scope f s
  | .fwait core t scope f => Sys2Proof.Machine.execFwait core t scope f s
  | .ftry core t scope f => Sys2Proof.Machine.execFtry core t scope f s
  | .fget core t f => Sys2Proof.Machine.execFget core t f s
  | .bar core t n => Sys2Proof.Machine.execBar core t n s
  | .barv core t n => Sys2Proof.Machine.execBarv core t n s
  | .bwait core t n => Sys2Proof.Machine.execBwait core t n s
  | .barrierRelease net => Sys2Proof.Machine.execBarrierRelease net s
  | .barMembWrite core v => Sys2Proof.Machine.execBarMembWrite core v s
  | .postArrival src => Sys2Proof.Machine.execPostArrival src s
  | .postDispatch core => Sys2Proof.Machine.execPostDispatch core s
  | .creditReturn ix => Sys2Proof.Machine.execCreditReturn ix s
  | .flagSignalArrival ix => Sys2Proof.Machine.execFlagSignalArrival ix s
  | .deadLetterReturn ix => Sys2Proof.Machine.execDeadLetterReturn ix s
  | .postQueueClose core q v => Sys2Proof.Machine.execPostQueueClose core q v s
  | .dlqPop core => Sys2Proof.Machine.execDlqPop core s
  | .chtHiWrite core e v => Sys2Proof.Machine.execChtHiWrite core e v s
  | .hbmUnitService off write => Sys2Proof.Machine.execHbmUnitService off write s
  | .lpUnitService off write link => Sys2Proof.Machine.execLpUnitService off write link s
  | .hbmRefreshSlot stack => Sys2Proof.Machine.execHbmRefreshSlot stack s
  | .lpRefreshSlot package => Sys2Proof.Machine.execLpRefreshSlot package s
  | .selfRefreshExit hbm index => Sys2Proof.Machine.execSelfRefreshExit hbm index s
  | .migrationWindow => Sys2Proof.Machine.execMigrationWindow s
  | .trainingStart port fast => Sys2Proof.Machine.execTrainingStart port fast s
  | .trainingFrame port frame => Sys2Proof.Machine.execTrainingFrame port frame s
  | .trainingPhaseEnd port obs => Sys2Proof.Machine.execTrainingPhaseEnd port obs s
  | .trainingTimeout port => Sys2Proof.Machine.execTrainingTimeout port s
  | .latp port stamp => Sys2Proof.Machine.execLatp port stamp s
  | .late port stamp hold => Sys2Proof.Machine.execLate port stamp hold s
  | .latr port value => Sys2Proof.Machine.execLatr port value s
  | .flitSlot port => Sys2Proof.Machine.execFlitSlot port s
  | .flitReceive port rx => Sys2Proof.Machine.execFlitReceive port rx s
  | .linkCtrl port data => Sys2Proof.Machine.execLinkCtrl port data s
  | .replayNak port seq => Sys2Proof.Machine.execReplayNak port seq s
  | .replayTimeout port => Sys2Proof.Machine.execReplayTimeout port s
  | .lossOfSignal port lane => Sys2Proof.Machine.execLossOfSignal port lane s
  | .blockLockLoss port lane => Sys2Proof.Machine.execBlockLockLoss port lane s
  | .portQuiesce port => Sys2Proof.Machine.execPortQuiesce port s
  | .portQuiesced port => Sys2Proof.Machine.execPortQuiesced port s
  | .portResume port => Sys2Proof.Machine.execPortResume port s
  | .read u => Sys2Proof.Machine.execRead u s
  | .readResp u => Sys2Proof.Machine.execReadResp u s
  | .write u => Sys2Proof.Machine.execWrite u s
  | .writeAck u => Sys2Proof.Machine.execWriteAck u s
  | .signal u => Sys2Proof.Machine.execSignal u s
  | .dead u => Sys2Proof.Machine.execDead u s
  | .reduce u => Sys2Proof.Machine.execReduce u s
  | .barrier u => Sys2Proof.Machine.execBarrier u s
  | .seqRestart src epoch => Sys2Proof.Machine.execSeqRestart src epoch s
  | .seqRestartAck src epoch => Sys2Proof.Machine.execSeqRestartAck src epoch s
  | .csrRead src tag off => Sys2Proof.Machine.execCsrRead src tag off s
  | .csrWrite src tag off v => Sys2Proof.Machine.execCsrWrite src tag off v s
  | .csrResp src tag status v => Sys2Proof.Machine.execCsrResp src tag status v s
  | .injectStop src => Sys2Proof.Machine.execInjectStop src s
  | .injectStopped src => Sys2Proof.Machine.execInjectStopped src s
  | .injectResume src => Sys2Proof.Machine.execInjectResume src s
  | .reorderTimeout pair vc => Sys2Proof.Machine.execReorderTimeout pair vc s
  | .remoteTimeout ix => Sys2Proof.Machine.execRemoteTimeout ix s
  | .fabricResetExit => Sys2Proof.Machine.execFabricResetExit s
  | .routeEntrySwitch off => Sys2Proof.Machine.execRouteEntrySwitch off s
  | .ftWrite f reg v => Sys2Proof.Machine.execFtWrite f reg v s
  | .ingest port u => Sys2Proof.Machine.execIngest port u s
  | .ingestLast port u => Sys2Proof.Machine.execIngestLast port u s
  | .headerChecksDone pipe => Sys2Proof.Machine.execHeaderChecksDone pipe s
  | .chunkTagVerify pipe => Sys2Proof.Machine.execChunkTagVerify pipe s
  | .envelopeAccepted pipe => Sys2Proof.Machine.execEnvelopeAccepted pipe s
  | .ingestIdleTimeout pipe => Sys2Proof.Machine.execIngestIdleTimeout pipe s
  | .ingestAbort port => Sys2Proof.Machine.execIngestAbort port s
  | .ptWrite entry => Sys2Proof.Machine.execPtWrite entry s
  | .ptRead entry => Sys2Proof.Machine.execPtRead entry s
  | .sealDoor hi => Sys2Proof.Machine.execSealDoor hi s
  | .sealJobComplete => Sys2Proof.Machine.execSealJobComplete s
  | .batchCloseCmd => Sys2Proof.Machine.execBatchCloseCmd s
  | .batchIdleTimeout => Sys2Proof.Machine.execBatchIdleTimeout s
  | .batchSigned => Sys2Proof.Machine.execBatchSigned s
  | .rcptAckWrite v => Sys2Proof.Machine.execRcptAckWrite v s
  | .ksImport slot => Sys2Proof.Machine.execKsImport slot s
  | .ksRetire slot => Sys2Proof.Machine.execKsRetire slot s
  | .keyErase slot => Sys2Proof.Machine.execKeyErase slot s
  | .attGo => Sys2Proof.Machine.execAttGo s
  | .fwVerify kind => Sys2Proof.Machine.execFwVerify kind s
  | .fwActivate kind => Sys2Proof.Machine.execFwActivate kind s
  | .cmoClean k byway l1only way set => Sys2Proof.Machine.execCmoClean k byway l1only way set s
  | .cmoInvalidate k byway l1only way set => Sys2Proof.Machine.execCmoInvalidate k byway l1only way set s
  | .cmoCleanInvalidate k byway l1only way set => Sys2Proof.Machine.execCmoCleanInvalidate k byway l1only way set s
  | .l2LockWrite k v => Sys2Proof.Machine.execL2LockWrite k v s
  | .coreResetHold cluster core => Sys2Proof.Machine.execCoreResetHold cluster core s
  | .coreResetRelease cluster core => Sys2Proof.Machine.execCoreResetRelease cluster core s
  | .clusterResetHold cluster => Sys2Proof.Machine.execClusterResetHold cluster s
  | .clCsrdAccess cluster write => Sys2Proof.Machine.execClCsrdAccess cluster write s
  | .doorbell hole => Sys2Proof.Machine.execDoorbell hole s
  | .hello hole => Sys2Proof.Machine.execHello hole s
  | .identify hole => Sys2Proof.Machine.execIdentify hole s
  | .attest hole => Sys2Proof.Machine.execAttest hole s
  | .loadFirmware hole host => Sys2Proof.Machine.execLoadFirmware hole host s
  | .activateFirmware hole flashOk => Sys2Proof.Machine.execActivateFirmware hole flashOk s
  | .keyImport hole => Sys2Proof.Machine.execKeyImport hole s
  | .keyRetire hole => Sys2Proof.Machine.execKeyRetire hole s
  | .modelLoad hole host => Sys2Proof.Machine.execModelLoad hole host s
  | .modelEvict hole => Sys2Proof.Machine.execModelEvict hole s
  | .planDefine hole host => Sys2Proof.Machine.execPlanDefine hole host s
  | .parcelBundle hole host => Sys2Proof.Machine.execParcelBundle hole host s
  | .parcelStatus hole => Sys2Proof.Machine.execParcelStatus hole s
  | .clusterDrain hole => Sys2Proof.Machine.execClusterDrain hole s
  | .clusterDrainTimeout cluster => Sys2Proof.Machine.execClusterDrainTimeout cluster s
  | .clusterReturn hole => Sys2Proof.Machine.execClusterReturn hole s
  | .setOppoint hole => Sys2Proof.Machine.execSetOppoint hole s
  | .hbmRetire hole => Sys2Proof.Machine.execHbmRetire hole s
  | .portTrain hole => Sys2Proof.Machine.execPortTrain hole s
  | .portRetire hole => Sys2Proof.Machine.execPortRetire hole s
  | .routeLoad hole => Sys2Proof.Machine.execRouteLoad hole s
  | .selftest hole => Sys2Proof.Machine.execSelftest hole s
  | .calibrate hole => Sys2Proof.Machine.execCalibrate hole s
  | .meterRead hole => Sys2Proof.Machine.execMeterRead hole s
  | .nightmailConfig hole => Sys2Proof.Machine.execNightmailConfig hole s
  | .debugAttach hole => Sys2Proof.Machine.execDebugAttach hole s
  | .resetUnit hole => Sys2Proof.Machine.execResetUnit hole s
  | .ticketStart ticket => Sys2Proof.Machine.execTicketStart ticket s
  | .ticketDone ticket out => Sys2Proof.Machine.execTicketDone ticket out s
  | .stageDispatch parcel => Sys2Proof.Machine.execStageDispatch parcel s
  | .stageEnd core word2 => Sys2Proof.Machine.execStageEnd core word2 s
  | .functionReset => Sys2Proof.Machine.execFunctionReset s
  | .soCoreRestart k ok => Sys2Proof.Machine.execSoCoreRestart k ok s
  | .handoverRevert k => Sys2Proof.Machine.execHandoverRevert k s
  | .nightMailTick raw leak0 leak1 => Sys2Proof.Machine.execNightMailTick raw leak0 leak1 s
  | .oppointStep cluster => Sys2Proof.Machine.execOppointStep cluster s
  | .clusterIdleEntry cluster => Sys2Proof.Machine.execClusterIdleEntry cluster s
  | .napOrder cluster => Sys2Proof.Machine.execNapOrder cluster s
  | .offOrder cluster => Sys2Proof.Machine.execOffOrder cluster s
  | .clWake cluster => Sys2Proof.Machine.execClWake cluster s
  | .clusterWakeDone cluster => Sys2Proof.Machine.execClusterWakeDone cluster s
  | .i3cStatus => Sys2Proof.Machine.execI3cStatus s
  | .dormant => Sys2Proof.Machine.execDormant s
  | .wake => Sys2Proof.Machine.execWake s
  | .mtrSelect kind index => Sys2Proof.Machine.execMtrSelect kind index s
  | .keyset key sig => Sys2Proof.Machine.execKeyset key sig s
  | .mrstLow => Sys2Proof.Machine.execMrstLow s
  | .mrstRise slot refclk25 settled => Sys2Proof.Machine.execMrstRise slot refclk25 settled s
  | .perst => Sys2Proof.Machine.execPerst s
  | .brownout => Sys2Proof.Machine.execBrownout s
  | .overvoltage => Sys2Proof.Machine.execOvervoltage s
  | .refclk25Loss => Sys2Proof.Machine.execRefclk25Loss s
  | .leakTraceChange trace asserted => Sys2Proof.Machine.execLeakTraceChange trace asserted s
  | .bringupPhaseA => Sys2Proof.Machine.execBringupPhaseA s
  | .bringupPhaseB => Sys2Proof.Machine.execBringupPhaseB s
  | .bringupPhaseC => Sys2Proof.Machine.execBringupPhaseC s
  | .bringupPhaseD hbmFail lpFail => Sys2Proof.Machine.execBringupPhaseD hbmFail lpFail s
  | .bringupPhaseE => Sys2Proof.Machine.execBringupPhaseE s
  | .frankingSample volts amps => Sys2Proof.Machine.execFrankingSample volts amps s
  | .windowEnd => Sys2Proof.Machine.execWindowEnd s
  | .reportFrame frame => Sys2Proof.Machine.execReportFrame frame s
  | .hubRestart => Sys2Proof.Machine.execHubRestart s
  | .frankingUpdateCheck image => Sys2Proof.Machine.execFrankingUpdateCheck image s
  | .powerLoss => Sys2Proof.Machine.execPowerLoss s
  | .powerUp => Sys2Proof.Machine.execPowerUp s
  | .converterFault rail => Sys2Proof.Machine.execConverterFault rail s
  | .registerWrite reg v => Sys2Proof.Machine.execRegisterWrite reg v s
  | .inputInOperatingRange => Sys2Proof.Machine.execInputInOperatingRange s
  | .converterCheckPass rail => Sys2Proof.Machine.execConverterCheckPass rail s
  | .nightMailReloadDone ok => Sys2Proof.Machine.execNightMailReloadDone ok s
  | .ksImportDone => Sys2Proof.Machine.execKsImportDone s
  | .attestReportDone => Sys2Proof.Machine.execAttestReportDone s
  | .fwCommandDone => Sys2Proof.Machine.execFwCommandDone s
  | .testComplete hole out => Sys2Proof.Machine.execTestComplete hole out s
  | .jtagSelect site act => Sys2Proof.Machine.execJtagSelect site act s

end Sys2Proof.Machine
end

