-- ==== Sys2Proof/Safety.lean ====
section
/-! DEFINITION. The terms in which claims about the machine are stated: when a thread can run its instruction, what a
command leaves alone, and the invariants of the whole state. -/
namespace Sys2Proof.Machine

/-! ### An instruction runs -/

/-- The state once the word at the thread's PC has been read (R45, R267). -/
def fetched (s : State) (slot : Nat) (t : Fin 4) : State := settleFetch s slot (getTh s slot t).pc.toNat

/-- Thread `t` of `cpu`, whose core stands in `slot`, can issue its next instruction and the fetch of it succeeds (R41,
R63, R64, R112). -/
structure Ready (s : State) (cpu : Cpu) (t : Fin 4) (slot : Nat) : Prop where
  here : slotOf s cpu = some slot
  free : canIssue s slot t = true
  word : fetchFault (fetched s slot t) slot t = none

/-- What an issue leaves of the thread's debug state: a STEP has made its one instruction, and the stop follows it; it is over
where that instruction has stopped the thread or halted the core, and goes on while the instruction has not completed (R140). -/
def stepDone (th : Thread) : Thread :=
  if th.stepping then
    if th.st = .stoppedFault ∨ th.st = .halted then { th with stepping := false }
    else { th with stepping := th.block.isSome, stopReq := true }
  else th

/-- The thread goes on to the next instruction. -/
def nextPc (th : Thread) : Thread := { th with pc := th.pc + 4 }

/-- A thread whose event bit is set (R123, R124): one that waits in WFE takes the event and goes on, in ESCALATION if it is in
that state (R112). -/
def woken (th : Thread) : Thread :=
  if (th.st = .waiting ∨ th.st = .escalation) ∧ th.wait = some .event then
    { th with st := if th.st = .escalation then .escalation else .running, wait := none, pc := th.pc + 4, ev := false }
  else { th with ev := true }

/-- The module as a debug access to the core in `slot` finds it: a core of a cluster that is asleep has its cluster woken
(R532). -/
def reached (s : State) (slot : Nat) : State := if slot < 576 then wakeCause s (clusterOf slot) else s

/-! ### Frames -/

/-- Every byte of every memory reads as before: the cores' local memories, shared SRAM, the L2 of the control cores, the
mailbox, HBM and LPDDR5X. -/
structure SameBytes (s s' : State) : Prop where
  loc : ∀ i a, memByte (getCore s' i).mem a = memByte (getCore s i).mem a
  sram : ∀ a, memByte s'.sram a = memByte s.sram a
  l2 : ∀ a, memByte s'.l2 a = memByte s.l2 a
  mbx : ∀ a, memByte s'.mbx a = memByte s.mbx a
  hbm : ∀ a, memByte s'.fab.hbm a = memByte s.fab.hbm a
  lp : ∀ a, memByte s'.fab.lp a = memByte s.fab.lp a

/-- The offset is not one of the three error registers of the cluster's SRAM (R272). -/
def notSramLog (c : Fin 8) (o : Nat) : Prop :=
  o ≠ 0x10800 + 0x10 * c.val ∧ o ≠ 0x10804 + 0x10 * c.val ∧ o ≠ 0x10808 + 0x10 * c.val

/-- What the fetch may leave in the Sorting Office: a line in the instruction cache of a control core (R484). -/
structure OnlyFetch (s s' : State) (slot : Nat) : Prop where
  so : s'.so = { s.so with l1i := s'.so.l1i }
  cluster : slot < 576 → s'.so = s.so ∧ s'.fresh = s.fresh

/-- Reads by `slot`'s core have left at most corrected check bits and their count (R267, R272), and a fetched line. -/
structure OnlyReads (s s' : State) (slot : Nat) : Prop where
  core : getCore s' slot = { getCore s slot with mem := (getCore s' slot).mem }
  cores : ∀ j, j ≠ slot → getCore s' j = getCore s j
  bytes : SameBytes s s'
  tags : (getCore s' slot).mem.tags = (getCore s slot).mem.tags ∧ s'.l2.tags = s.l2.tags
  dev : ∀ o, notSramLog (clusterOf slot) o → devGet s' o = devGet s o
  fetch : OnlyFetch s s' slot
  rest : s' = { s with
    cores := s'.cores, l2 := s'.l2, dev := s'.dev, so := s'.so, fresh := s'.fresh, setNow := s'.setNow }

/-- An instruction of a thread in `slot` has made its core `c'`, memory apart, and changed nothing else: not another core, nor
a byte or tag of memory, nor any other part of the module. Only what the fetch and the reads may leave is open: corrected
check bits of the words read and the count of corrections (R267, R272), a line fetched from the boot ROM (R484), and the end of
an orphan episode (R134). -/
structure OnlyCore (s s' : State) (slot : Nat) (c' : Core) : Prop where
  core : getCore s' slot = { c' with mem := (getCore s' slot).mem, orphanRaised := false }
  cores : ∀ j, j ≠ slot → getCore s' j = getCore s j
  bytes : SameBytes s s'
  tags : (getCore s' slot).mem.tags = (getCore s slot).mem.tags ∧ s'.l2.tags = s.l2.tags
  dev : ∀ o, notSramLog (clusterOf slot) o → devGet s' o = devGet s o
  fetch : OnlyFetch s s' slot
  rest : s' = { s with
    cores := s'.cores, l2 := s'.l2, dev := s'.dev, so := s'.so, fresh := s'.fresh, setNow := s'.setNow }

/-- The core with thread `t` replaced. -/
def withThread (c : Core) (t : Fin 4) (th : Thread) : Core := { c with th := c.th.set t (stepDone th) }

/-- An instruction of thread `t` in `slot` has made the thread `th'` and changed nothing else: not the other threads of the
core, nor its units, CSR words and memory, nor anything else of the module (`OnlyCore`). -/
def OnlyThread (s s' : State) (slot : Nat) (t : Fin 4) (th' : Thread) : Prop :=
  OnlyCore s s' slot (withThread (getCore s slot) t th')

/-- The command `i` completes, and all it does is make thread `t` in `slot` the thread `th'`. -/
def RunsTo (s : State) (i : Instr) (slot : Nat) (t : Fin 4) (th' : Thread) : Prop :=
  ∃ s', exec i s = .next s' ∧ OnlyThread s s' slot t th'

/-- The command `i` of thread `t` completes, and all it does is make the core in `slot` the core `c'`, memory apart. -/
def RunsToCore (s : State) (i : Instr) (slot : Nat) (t : Fin 4) (c' : Core) : Prop :=
  ∃ s', exec i s = .next s' ∧ OnlyCore s s' slot { c' with th := c'.th.set t (stepDone c'.th[t]) }

/-- The command `i` completes, and all it does is make the core in `slot` the core `c`. -/
def Becomes (s : State) (i : Instr) (slot : Nat) (c : Core) : Prop :=
  ∃ s', exec i s = .next s' ∧ getCore s' slot = c ∧ s' = { s with cores := s'.cores } ∧
    ∀ j, j ≠ slot → getCore s' j = getCore s j

/-! ### What leaves on a port -/

/-- What leaves as `f` fills a slot of port `p` (R399 to R401): the flit sealed with its CRC, and the levels on the eight lanes
where it completes a unit of the error correction. -/
def slotOut (s : State) (p : Nat) (f : BitVec 640) : List Output :=
  .flit p (sealFlit f) ::
    (if (getPort s p).unit.length + 1 < unitFlits (longReach s p) then []
     else [.lanes p (unitLanes (longReach s p) ((getPort s p).unit ++ [sealFlit f]) (getPort s p).roundCtr)])

/-! ### Operands in local memory -/

/-- An access of `n` bytes at `a` under `cap` passes the checks of R38 to R40 and lies in the local memory of a core of a
cluster. -/
structure LocalAccess (slot : Nat) (cap : Cap) (a n : Nat) (need : BitVec 16) : Prop where
  core : slot < 576
  cap : capCheck cap a n need = none
  aligned : a % n = 0
  inside : a + n ≤ 0x80000

/-- No word under the `n` bytes at `a` is poisoned or uncorrectable (R267). -/
def Clean (m : Mem) (a n : Nat) : Prop := ∀ w ∈ wordsOf 4 a n, memCheck m w ≠ .double ∧ memCheck m w ≠ .poison

/-- An instruction of thread `t` in `slot` has made the thread `th'` and stored the bytes `bs` at `a` of its core's local
memory: they read back, every other byte of every memory reads as before, the granules touched have lost their tags (R85),
and nothing else has changed but what reads leave. -/
structure OnlyStore (s s' : State) (slot : Nat) (t : Fin 4) (th' : Thread) (a : Nat) (bs : List Byte) : Prop where
  core : getCore s' slot =
    { withThread (getCore s slot) t th' with mem := (getCore s' slot).mem, orphanRaised := false }
  cores : ∀ j, j ≠ slot → getCore s' j = getCore s j
  stored : ∀ i (h : i < bs.length), memByte (getCore s' slot).mem (a + i) = bs[i]
  outside : ∀ x, x < a ∨ a + bs.length ≤ x → memByte (getCore s' slot).mem x = memByte (getCore s slot).mem x
  tags : ∀ g, memTag (getCore s' slot).mem g = (memTag (getCore s slot).mem g && !decide (g ∈ wordsOf 16 a bs.length))
  dev : ∀ o, notSramLog (clusterOf slot) o → devGet s' o = devGet s o
  fetch : OnlyFetch s s' slot
  rest : s' = { s with cores := s'.cores, dev := s'.dev, so := s'.so, fresh := s'.fresh }

/-! ### Save frames (R102 to R105) -/

/-- SFC passes step 1 of R102 for a frame at `a` on a core of a cluster. -/
structure FrameRoom (sfc : Cap) (a : Nat) : Prop where
  tag : sfc.tag = true
  open' : sfc.otype = 0
  perms : sfc.perms &&& 0x001B = 0x001B
  aligned : a % 16 = 0
  low : sfc.base.toNat ≤ a
  high : a + 0x180 ≤ sfc.base.toNat + sfc.length.toNat
  inside : a + 0x180 ≤ 0x7F000

/-- Memory holds capability `c` with its tag at `a`. -/
def HoldsCap (m : Mem) (a : Nat) (c : Cap) : Prop := memBytes m a 16 = capBytes c ∧ memTag m (a / 16) = c.tag

/-- The frame of R103 at `a`: what was saved of `th`, with the PC and the words of the event. -/
structure HoldsFrame (m : Mem) (a : Nat) (th : Thread) (pc cause faddr info : Word) : Prop where
  words : ∀ o w, (o, w) ∈
    [(0x000, pc), (0x004, cause), (0x008, faddr), (0x00C, info), (0x010, th.acc), (0x014, th.acg.setWidth 32),
     (0x018, th.ix), (0x01C, th.iy), (0x020, flagsView th), (0x024, BitVec.ofNat 32 th.glink.length), (0x028, 0),
     (0x02C, 0)] → memWord m (a + o) = w
  stack : ∀ i, i < 16 → memWord m (a + 0x40 + 4 * i) = th.rs.getD i 0
  caps : ∀ o c, (o, c) ∈
    [(0x080, { th.pcc with cursor := pc }), (0x090, th.ddc), (0x0A0, th.c1), (0x0B0, th.c2), (0x0C0, th.c3),
     (0x0D0, th.c4), (0x0E0, th.c5), (0x0F0, th.c6)] → HoldsCap m (a + o) c
  links : ∀ i, i < 4 →
    HoldsCap m (a + 0x100 + 32 * i) (th.glink.getD i (Cap.null, Cap.null)).1 ∧
      HoldsCap m (a + 0x110 + 32 * i) (th.glink.getD i (Cap.null, Cap.null)).2

/-- A granule as a return restores it: a clear tag restores as null (R105). -/
def grantedCap (m : Mem) (a : Nat) : Cap := if memTag m (a / 16) then capOfBytes (memBytes m a 16) true else Cap.null

/-- `th'` holds what R103 marks as restored from the frame at `a`; SFC and the rest are not said here. -/
structure Restored (m : Mem) (a : Nat) (th' : Thread) : Prop where
  regs : th'.pc = memWord m a ∧ th'.acc = memWord m (a + 0x10) ∧ th'.acg = (memWord m (a + 0x14)).setWidth 8 ∧
    th'.ix = memWord m (a + 0x18) ∧ th'.iy = memWord m (a + 0x1C)
  flags : th'.flags = memWord m (a + 0x20) &&& 0x0100011F
  depth : th'.rs.length = min 16 ((memWord m (a + 0x20)).extractLsb' 16 5).toNat
  stack : ∀ i (h : i < th'.rs.length), th'.rs[i] = memWord m (a + 0x40 + 4 * i)
  pcc : th'.pcc = { grantedCap m (a + 0x80) with cursor := th'.pc }
  caps : th'.ddc = grantedCap m (a + 0x90) ∧ th'.c1 = grantedCap m (a + 0xA0) ∧ th'.c2 = grantedCap m (a + 0xB0) ∧
    th'.c3 = grantedCap m (a + 0xC0) ∧ th'.c4 = grantedCap m (a + 0xD0) ∧ th'.c5 = grantedCap m (a + 0xE0) ∧
    th'.c6 = grantedCap m (a + 0xF0)
  links : th'.glink.length = min 4 ((memWord m (a + 0x24)).extractLsb' 0 3).toNat ∧
    ∀ i (h : i < th'.glink.length),
      th'.glink[i] = (grantedCap m (a + 0x100 + 32 * i), grantedCap m (a + 0x110 + 32 * i))

/-! ### Flags as numbers -/

/-- FLAGS after a result `v` that sets Z and N and leaves the other bits (R53). -/
structure SetsZN (fl fl' v : Word) : Prop where
  z : fl'.getLsbD 0 = decide (v = 0)
  n : fl'.getLsbD 1 = decide (v.toInt < 0)
  rest : ∀ i, 2 ≤ i → fl'.getLsbD i = fl.getLsbD i

/-- FLAGS after a result `v` that sets Z, N, C and V and leaves the other bits (R53). -/
structure SetsNZCV (fl fl' v : Word) (c o : Bool) : Prop where
  z : fl'.getLsbD 0 = decide (v = 0)
  n : fl'.getLsbD 1 = decide (v.toInt < 0)
  c : fl'.getLsbD 2 = c
  v : fl'.getLsbD 3 = o
  rest : ∀ i, 4 ≤ i → fl'.getLsbD i = fl.getLsbD i

/-- A number that 32 signed bits cannot hold. -/
def tooWide (v : Int) : Bool := decide (v < -(2 ^ 31) ∨ 2 ^ 31 ≤ v)

/-- The thread with a result in ACC, by other than a multiply-accumulate: ACG is the sign (R34). -/
def withAcc (th : Thread) (v : Word) : Thread := { th with acc := v, acg := if v.toInt < 0 then 0xFF else 0x00 }

/-! ### Vector instructions -/

/-- The bits of element `j` of a register in format `f` (R148). -/
def laneBits (f : BitVec 4) (x : BitVec 512) (j : Nat) : Nat := x.toNat / 2 ^ (fmtWidth f * j) % 2 ^ fmtWidth f

/-- The elements of `x` below `l` are those of `v`, and the rest is zero (R190). -/
def Lanes (f : BitVec 4) (x : BitVec 512) (l : Nat) (v : Nat → Nat) : Prop :=
  (∀ j, j < l → laneBits f x j = v j % 2 ^ fmtWidth f) ∧ ∀ j, l ≤ j → laneBits f x j = 0

/-- The vector instruction `i` of thread `t` issues: one operation more is in flight, of which `p` tells, the thread goes on
to the next instruction changed by `f` (under NANTRAP it waits for the result first, R170), and nothing else happens. -/
def VecIssues (s : State) (i : Instr) (slot : Nat) (t : Fin 4) (f : Thread → Thread) (p : VecOp → Prop) : Prop :=
  let core := getCore s slot
  ∃ s' op, exec i s = .next s' ∧ p op ∧ op.t = t ∧ op.pc = core.th[t].pc ∧ op.trap = (csrGet core 0x3000).getLsbD 2 ∧
    OnlyCore s s' slot
      { coreModTh core t (fun th => stepDone
          { nextPc (f th) with block := if (csrGet core 0x3000).getLsbD 2 then some .nanWait else th.block }) with
        vq := core.vq ++ [op] }

/-- No write of register `n` is in flight (R186). -/
def vFree (core : Core) (n : BitVec 4) : Prop := ∀ o ∈ core.vq, ∀ d x, o.vd = some (d, x) → d ≠ n

/-! ### The fabric -/

/-- The unit arrives at this device, next in its flow, from no buffer of a port, and nothing is held (R431, R432), nor does an
earlier unit of the flow wait for the calibration of a package (R354, R574); the module runs (R592). -/
structure Arrives (s : State) (u : FUnit) : Prop where
  awake : dark s = false
  vc : opVcOk u.op u.vc = true
  here : u.dst = fabDev s
  device : endpointPort s u.dst = none
  free : behindHeld s u = false
  fresh : rxPort s u = none ∧ s.fab.answers.contains u = false
  inOrder : u.eseq = expectedOf s (flowKey u.src u.vc)
  store : s.fab.store = []

/-- The state once the sequence check has passed `u` (R432). -/
def counted (s : State) (u : FUnit) : State := setExpected s (flowKey u.src u.vc) (u.eseq + 1)

/-- The unit waits at port `p` to leave, under this device's number and, on VC1 to VC7, the next number of its flow (R431). -/
def Leaves (s s' : State) (u : FUnit) (p : Nat) : Prop :=
  (getPort s' p).txq = (getPort s p).txq ++
    [{ u with
       src := fabDev s, eseq := if u.vc = 0 then u.eseq else tget ctrDefault s.fab.sendCtr (flowKey u.dst u.vc) }]

/-! ### Commands of the mailbox (R497 to R500) -/

/-- Firmware has nothing to notice of this parcel: it is final, runs with its last record unsealed, or waits for its envelope
(R456, R505). -/
def parcelRests (s : State) (p : Parcel) : Bool :=
  isFinal p.st || (p.st == .running && !p.lastSealed) || (p.st != .running && (ptGet s p.entry).st == .pending)

/-- Firmware has nothing to notice: no parcel has moved, no core has halted, no dispatch waits, and no seal job, copy or drain has ended
unnoticed (R505, R565). -/
structure NothingDue (s : State) : Prop where
  parcels : s.so.parcels.all (parcelRests s) = true
  halts : s.soNotes = []
  dispatches : s.so.dispatch = []
  seals : s.so.sealing.notes = []
  copies : s.so.doneCopies = []
  drains : s.so.drains = []
  clusters : allClusters.all (fun c => (getCl s c).service != .draining) = true

/-- No line of the control cores' caches waits to be written back, so that none is written to memory when another takes its
place (R484). -/
def CleanCaches (s : State) : Prop := ∀ t ∈ [s.so.l1, s.so.l2c], ∀ p ∈ t, ∀ l, p.2 = some l → l.dirty = false

/-- The command of pigeonhole `h` has completed: its header tells status, DETAIL, ticket and response length, and the
response stands behind it (R497, R498). -/
structure Answered (s' : State) (h : BitVec 6) (status : BitVec 16) (detail ticket : Word) (resp : List Byte) : Prop where
  idle : holeBusy s' h = false
  status : barNat s' (holeBase h + 16) 2 = status.toNat
  length : barNat s' (holeBase h + 12) 4 = resp.length
  ticket : barNat s' (holeBase h + 20) 4 = ticket.toNat
  detail : barNat s' (holeBase h + 24) 4 = detail.toNat
  resp : holeBytes s' h 0 resp.length = resp

/-! ### Control cores and the Franking log -/

/-- Control core `k` starts at 0x0000_0000: its thread 0 runs, with every register at its reset value (R84, R486). -/
def Started (s' : State) (k : Fin 4) : Prop :=
  (getCore s' (576 + k.val)).held = false ∧ (getCore s' (576 + k.val)).csr = [] ∧
    getTh s' (576 + k.val) 0 = { Thread.resetSo with st := .running } ∧
    ∀ t, t ≠ 0 → getTh s' (576 + k.val) t = Thread.reset

/-- Control core `k` has restarted; the threads of every other core are as before. -/
def Restarted (s s' : State) (k : Fin 4) : Prop :=
  Started s' k ∧ ∀ j t, j ≠ 576 + k.val → getTh s' j t = getTh s j t

/-- One entry has been added to the legal event log: sequence number, TYPE, DATA, and rail 0's ENERGY as it stands (R554). -/
def FrankingLogs (f f' : Franking) (typ : Byte) (d : Nat) : Prop :=
  f'.logNext = f.logNext + 1 ∧
    tget logDefault f'.log (f.logNext.toNat % 1024) =
      ((getRail f' 0).energy ++ (BitVec.ofNat 24 d ++ (typ ++ f.logNext : BitVec 40) : BitVec 64) : BitVec 128) ∧
    ∀ j, j ≠ f.logNext.toNat % 1024 → tget logDefault f'.log j = tget logDefault f.log j

/-! ### Invariants -/

/-- Every memory of the module is in its canonical form. -/
structure MemoryInv (s : State) : Prop where
  loc : ∀ i, Memory.wf (getCore s i).mem = true
  sram : Memory.wf s.sram = true
  l2 : Memory.wf s.l2 = true
  mbx : Memory.wf s.mbx = true
  hbm : Memory.wf s.fab.hbm = true
  lp : Memory.wf s.fab.lp = true

end Sys2Proof.Machine
end

