-- ==== Sys2Proof/Certificates/Slice0/Obligations.lean ====
section
/-! DEFINITION. The statements about the model, for the provers. -/
open Sys2Proof Sys2Proof.Machine

/-! ### The block -/

/-- A step with the command `c` in front runs `c` on the state with the rest of the queue. -/
def Claim.StepRunsFront : Prop :=
  ∀ (s : State) (c : Instr) (q : List Instr), step { s with pending := c :: q } = exec c { s with pending := q }

/-! ### Scalar arithmetic (R33 to R35, R53 to R55) -/

/-- R53, immediate forms of ADD, ADC, SUB and SBC: the result, the four flags, and nothing else. -/
def Claim.AddSubImmediate : Prop :=
  ∀ (s : State) (cpu : Cpu) (t : Fin 4) (slot : Nat) (imm : BitVec 24), Ready s cpu t slot →
    let th := getTh s slot t
    let a := th.acc
    let m : Word := imm.signExtend 32
    let k : Nat := (th.flags.getLsbD 2).toNat
    ∀ i v c o, (i, v, c, o) ∈
      [(Instr.add cpu t (.imm imm), a + m, decide (2 ^ 32 ≤ a.toNat + m.toNat), tooWide (a.toInt + m.toInt)),
       (Instr.adc cpu t (.imm imm), a + m + BitVec.ofNat 32 k, decide (2 ^ 32 ≤ a.toNat + m.toNat + k),
        tooWide (a.toInt + m.toInt + k)),
       (Instr.sub cpu t (.imm imm), a - m, decide (a.toNat < m.toNat), tooWide (a.toInt - m.toInt)),
       (Instr.sbc cpu t (.imm imm), a - m - BitVec.ofNat 32 k, decide (a.toNat < m.toNat + k),
        tooWide (a.toInt - m.toInt - k))] →
      ∃ s' fl, exec i s = .next s' ∧ SetsNZCV th.flags fl v c o ∧
        OnlyThread s s' slot t { withAcc th v with flags := fl, pc := th.pc + 4 }

/-- R53, R54: CMP imm, CMPX and CMPY set the flags of a subtraction and write no register. -/
def Claim.CompareImmediate : Prop :=
  ∀ (s : State) (cpu : Cpu) (t : Fin 4) (slot : Nat) (imm : BitVec 24), Ready s cpu t slot →
    let th := getTh s slot t
    let m : Word := imm.signExtend 32
    ∀ i a, (i, a) ∈
      [(Instr.cmp cpu t (.imm imm), th.acc), (Instr.cmpx cpu t imm, th.ix), (Instr.cmpy cpu t imm, th.iy)] →
      ∃ s' fl, exec i s = .next s' ∧
        SetsNZCV th.flags fl (a - m) (decide (a.toNat < m.toNat)) (tooWide (a.toInt - m.toInt)) ∧
        OnlyThread s s' slot t { th with flags := fl, pc := th.pc + 4 }

/-- R53, R54, R55: the instructions that write ACC and set Z and N from it, and nothing else. -/
def Claim.LogicAndMoves : Prop :=
  ∀ (s : State) (cpu : Cpu) (t : Fin 4) (slot : Nat) (imm : BitVec 24) (hi : BitVec 16) (n : BitVec 5),
    Ready s cpu t slot →
    let th := getTh s slot t
    let a := th.acc
    let m : Word := imm.signExtend 32
    ∀ i v, (i, v) ∈
      [(Instr.and cpu t (.imm imm), a &&& m), (Instr.or cpu t (.imm imm), a ||| m),
       (Instr.xor cpu t (.imm imm), a ^^^ m), (Instr.ldi cpu t imm, m),
       (Instr.ldih cpu t hi, BitVec.ofNat 32 (hi.toNat * 65536 + a.toNat % 65536)),
       (Instr.rol cpu t n, a <<< n.toNat ||| a >>> (32 - n.toNat)), (Instr.not cpu t, BitVec.allOnes 32 ^^^ a),
       (Instr.sexb cpu t, (a.setWidth 8).signExtend 32), (Instr.sexh cpu t, (a.setWidth 16).signExtend 32),
       (Instr.zexb cpu t, BitVec.ofNat 32 (a.toNat % 256)), (Instr.zexh cpu t, BitVec.ofNat 32 (a.toNat % 65536)),
       (Instr.popc cpu t, BitVec.ofNat 32 ((List.range 32).countP fun j => a.getLsbD j)),
       (Instr.txa cpu t, th.ix), (Instr.tya cpu t, th.iy), (Instr.rdg cpu t, th.acg.signExtend 32)] →
      ∃ s' fl, exec i s = .next s' ∧ SetsZN th.flags fl v ∧
        OnlyThread s s' slot t { withAcc th v with flags := fl, pc := th.pc + 4 }

/-- R55: CLZ gives the number of zeros above the highest one. -/
def Claim.CountLeadingZeros : Prop :=
  ∀ (s : State) (cpu : Cpu) (t : Fin 4) (slot : Nat), Ready s cpu t slot →
    let th := getTh s slot t
    ∃ s' fl k, exec (.clz cpu t) s = .next s' ∧ k ≤ 32 ∧ th.acc.toNat < 2 ^ (32 - k) ∧
      (k < 32 → 2 ^ (31 - k) ≤ th.acc.toNat) ∧ SetsZN th.flags fl (BitVec.ofNat 32 k) ∧
      OnlyThread s s' slot t { withAcc th (BitVec.ofNat 32 k) with flags := fl, pc := th.pc + 4 }

/-- R55: SHL, SHR and SAR put the last bit shifted out in C, unless n is zero. -/
def Claim.Shifts : Prop :=
  ∀ (s : State) (cpu : Cpu) (t : Fin 4) (slot : Nat) (n : BitVec 5), Ready s cpu t slot →
    let th := getTh s slot t
    let a := th.acc
    ∀ i v out, (i, v, out) ∈
      [(Instr.shl cpu t n, BitVec.ofNat 32 (a.toNat * 2 ^ n.toNat), a.getLsbD (32 - n.toNat)),
       (Instr.shr cpu t n, BitVec.ofNat 32 (a.toNat / 2 ^ n.toNat), a.getLsbD (n.toNat - 1)),
       (Instr.sar cpu t n, BitVec.ofInt 32 (a.toInt / 2 ^ n.toNat), a.getLsbD (n.toNat - 1))] →
      ∃ s' fl, exec i s = .next s' ∧
        SetsNZCV th.flags fl v (if n = 0 then th.flags.getLsbD 2 else out) (th.flags.getLsbD 3) ∧
        OnlyThread s s' slot t { withAcc th v with flags := fl, pc := th.pc + 4 }

/-- R55: NEG subtracts from zero with the flags of SUB, and ABS sets V for 0x8000_0000 alone and leaves C. -/
def Claim.NegateAndAbsolute : Prop :=
  ∀ (s : State) (cpu : Cpu) (t : Fin 4) (slot : Nat), Ready s cpu t slot →
    let th := getTh s slot t
    let a := th.acc
    ∀ i v c o, (i, v, c, o) ∈
      [(Instr.neg cpu t, 0 - a, decide (0 < a.toNat), tooWide (0 - a.toInt)),
       (Instr.abs cpu t, BitVec.ofNat 32 a.toInt.natAbs, th.flags.getLsbD 2, decide (a = 0x80000000))] →
      ∃ s' fl, exec i s = .next s' ∧ SetsNZCV th.flags fl v c o ∧
        OnlyThread s s' slot t { withAcc th v with flags := fl, pc := th.pc + 4 }

/-- R54, R55: the instructions that write IX or IY set no flag, and NOP writes nothing. -/
def Claim.IndexRegisters : Prop :=
  ∀ (s : State) (cpu : Cpu) (t : Fin 4) (slot : Nat) (imm : BitVec 24), Ready s cpu t slot →
    let th := getTh s slot t
    let m : Word := imm.signExtend 32
    ∀ i x y, (i, x, y) ∈
      [(Instr.lix cpu t imm, m, th.iy), (Instr.liy cpu t imm, th.ix, m), (Instr.addx cpu t imm, th.ix + m, th.iy),
       (Instr.addy cpu t imm, th.ix, th.iy + m), (Instr.tax cpu t, th.acc, th.iy), (Instr.tay cpu t, th.ix, th.acc),
       (Instr.swxy cpu t, th.iy, th.ix), (Instr.nop cpu t, th.ix, th.iy)] →
      ∃ s', exec i s = .next s' ∧ OnlyThread s s' slot t { th with ix := x, iy := y, pc := th.pc + 4 }

/-- R35, R55: GFL copies FLAGS with RSDEPTH, SFL writes the RW fields and clears W1C fields, MACCLR clears ACG:ACC. -/
def Claim.FlagsAndAccumulator : Prop :=
  ∀ (s : State) (cpu : Cpu) (t : Fin 4) (slot : Nat), Ready s cpu t slot →
    let th := getTh s slot t
    (∃ s' v, exec (.gfl cpu t) s = .next s' ∧ OnlyThread s s' slot t { withAcc th v with pc := th.pc + 4 } ∧
      (∀ j ∈ [0, 1, 2, 3, 4, 8], v.getLsbD j = th.flags.getLsbD j) ∧ v.extractLsb' 16 5 = BitVec.ofNat 5 th.rs.length ∧
      (∀ j ∈ [5, 6, 7, 9, 10, 11, 12, 13, 14, 15], v.getLsbD j = false) ∧
      (th.rs.length ≤ 16 → v.getLsbD 24 = th.flags.getLsbD 24 ∧
        ∀ j ∈ [21, 22, 23, 25, 26, 27, 28, 29, 30, 31], v.getLsbD j = false)) ∧
    (∃ s' fl, exec (.sfl cpu t) s = .next s' ∧ OnlyThread s s' slot t { th with flags := fl, pc := th.pc + 4 } ∧
      (∀ j ∈ [0, 1, 2, 3, 8], fl.getLsbD j = th.acc.getLsbD j) ∧
      (∀ j ∈ [4, 24], fl.getLsbD j = (th.flags.getLsbD j && !th.acc.getLsbD j)) ∧
      (∀ j, j ∉ [0, 1, 2, 3, 4, 8, 24] → fl.getLsbD j = th.flags.getLsbD j)) ∧
    (∃ s' fl, exec (.macclr cpu t) s = .next s' ∧ SetsZN th.flags fl 0 ∧
      OnlyThread s s' slot t { th with acc := 0, acg := 0, flags := fl, pc := th.pc + 4 })

/-- R55: MACSH divides ACG:ACC by 2^n, rounds half to even, saturates to 32 bits, and says in V whether it did. -/
def Claim.MacshRounds : Prop :=
  ∀ (s : State) (cpu : Cpu) (t : Fin 4) (slot : Nat) (n : BitVec 5), Ready s cpu t slot →
    let th := getTh s slot t
    let x := (th.acg ++ th.acc).toInt
    let d : Int := 2 ^ n.toNat
    ∃ s' fl, ∃ q v : Int, exec (.macsh cpu t n) s = .next s' ∧
      (2 * (q * d - x) ≤ d ∧ 2 * (x - q * d) ≤ d) ∧
      (2 * (q * d - x) = d ∨ 2 * (x - q * d) = d → q % 2 = 0) ∧
      v = max (-(2 ^ 31)) (min (2 ^ 31 - 1) q) ∧
      SetsNZCV th.flags fl (BitVec.ofInt 32 v) (th.flags.getLsbD 2) (decide (v ≠ q)) ∧
      OnlyThread s s' slot t { withAcc th (BitVec.ofInt 32 v) with flags := fl, pc := th.pc + 4 }

/-! ### Operands (R36, R37, R44, R47, R50 to R52) -/

/-- R36, R37: the addressing modes of the 22-bit specifier, their addresses, and what they increment. -/
def Claim.AddressingModes : Prop :=
  ∀ (th : Thread) (d : BitVec 12) (b : BitVec 20) (n : Nat),
    (∀ m e ea th', (m, e, ea, th') ∈
      [((0b00#2 ++ 0#8 ++ d : BitVec 22), EaMode.ixd d, th.ix + d.signExtend 32, th),
       (0b01#2 ++ 0#8 ++ d, EaMode.iyd d, th.iy + d.signExtend 32, th),
       (0b10#2 ++ 0b00#2 ++ 0#18, EaMode.ixInc, th.ix, { th with ix := th.ix + BitVec.ofNat 32 n }),
       (0b10#2 ++ 0b01#2 ++ 0#18, EaMode.iyInc, th.iy, { th with iy := th.iy + BitVec.ofNat 32 n }),
       (0b10#2 ++ 0b10#2 ++ 0#18, EaMode.ixiy, th.ix + th.iy, th),
       (0b11#2 ++ b ++ 0#0, EaMode.abs b, th.ddc.base + b.setWidth 32, th)] →
      eaMode m = some e ∧ eaOf th e = ea ∧ postInc e n th = th') ∧
    (∀ k : BitVec 18, eaMode (0b10#2 ++ 0b11#2 ++ k) = none)

/-- R50: LEAX and LEAY write the address into IX or IY, with no access to memory, and no flag. -/
def Claim.LoadAddress : Prop :=
  ∀ (s : State) (cpu : Cpu) (t : Fin 4) (slot : Nat) (m : BitVec 22) (e : EaMode), Ready s cpu t slot →
    eaMode m = some e → e ≠ .ixInc → e ≠ .iyInc →
    let th := getTh s slot t
    (∃ s', exec (.leax cpu t 2 m) s = .next s' ∧ OnlyThread s s' slot t { th with ix := eaOf th e, pc := th.pc + 4 }) ∧
    (∃ s', exec (.leay cpu t 2 m) s = .next s' ∧ OnlyThread s s' slot t { th with iy := eaOf th e, pc := th.pc + 4 })

/-- R36, R37, R44, R50, R53: a load, and a logical operation with a memory operand, from local memory. The post-increment
has taken place, and the result of LDX and LDY prevails over it. -/
def Claim.LoadsFromLocalMemory : Prop :=
  ∀ (s : State) (cpu : Cpu) (t : Fin 4) (slot : Nat) (sz : BitVec 2) (m : BitVec 22) (n : Nat) (e : EaMode),
    Ready s cpu t slot → szBytes sz = some n → eaMode m = some e →
    let th := getTh s slot t
    let a := (eaOf th e).toNat
    let mem := (getCore s slot).mem
    LocalAccess slot th.ddc a n pLOAD → Clean mem a n → tileHolds s slot a n false = false →
    let v := memNat mem a n
    let sv : Word := (BitVec.ofNat (8 * n) v).signExtend 32
    (∀ i w, (i, w) ∈
      [(Instr.ld cpu t sz m, sv), (Instr.ldu cpu t sz m, BitVec.ofNat 32 v),
       (Instr.and cpu t (.mem sz m), th.acc &&& sv), (Instr.or cpu t (.mem sz m), th.acc ||| sv),
       (Instr.xor cpu t (.mem sz m), th.acc ^^^ sv)] →
      ∃ s' fl, exec i s = .next s' ∧ SetsZN th.flags fl w ∧
        OnlyThread s s' slot t { withAcc (postInc e n th) w with flags := fl, pc := th.pc + 4 }) ∧
    (n = 4 →
      (∃ s', exec (.ldx cpu t sz m) s = .next s' ∧
        OnlyThread s s' slot t { postInc e n th with ix := BitVec.ofNat 32 v, pc := th.pc + 4 }) ∧
      (∃ s', exec (.ldy cpu t sz m) s = .next s' ∧
        OnlyThread s s' slot t { postInc e n th with iy := BitVec.ofNat 32 v, pc := th.pc + 4 }))

/-- R53, R59, R60: arithmetic with a memory operand in local memory; division corners included. That REM and REMU by zero
write ACG with the sign of the unchanged ACC is the model's choice (log entry 25). -/
def Claim.ArithmeticFromLocalMemory : Prop :=
  ∀ (s : State) (cpu : Cpu) (t : Fin 4) (slot : Nat) (sz : BitVec 2) (m : BitVec 22) (n : Nat) (e : EaMode),
    Ready s cpu t slot → szBytes sz = some n → eaMode m = some e →
    let th := getTh s slot t
    let a := (eaOf th e).toNat
    let mem := (getCore s slot).mem
    LocalAccess slot th.ddc a n pLOAD → Clean mem a n → tileHolds s slot a n false = false →
    let u : Word := BitVec.ofNat 32 (memNat mem a n)
    let sv : Word := (BitVec.ofNat (8 * n) (memNat mem a n)).signExtend 32
    let x := th.acc
    let c := th.flags.getLsbD 2
    let min : Word := 0x80000000
    (∀ i w c' o, (i, w, c', o) ∈
      [(Instr.add cpu t (.mem sz m), x + sv, decide (2 ^ 32 ≤ x.toNat + sv.toNat), tooWide (x.toInt + sv.toInt)),
       (Instr.adc cpu t (.mem sz m), x + sv + BitVec.ofNat 32 c.toNat,
        decide (2 ^ 32 ≤ x.toNat + sv.toNat + c.toNat), tooWide (x.toInt + sv.toInt + c.toNat)),
       (Instr.sub cpu t (.mem sz m), x - sv, decide (x.toNat < sv.toNat), tooWide (x.toInt - sv.toInt)),
       (Instr.sbc cpu t (.mem sz m), x - sv - BitVec.ofNat 32 c.toNat, decide (x.toNat < sv.toNat + c.toNat),
        tooWide (x.toInt - sv.toInt - c.toNat)),
       (Instr.mul cpu t sz m, x * sv, c, tooWide (x.toInt * sv.toInt)),
       (Instr.mulh cpu t sz m, BitVec.ofInt 32 (x.toInt * sv.toInt / 2 ^ 32), c, false),
       (Instr.mulhu cpu t sz m, BitVec.ofNat 32 (x.toNat * u.toNat / 2 ^ 32), c, false),
       (Instr.div cpu t sz m,
        if sv = 0 then 0xFFFFFFFF else if x = min ∧ sv = 0xFFFFFFFF then min else BitVec.ofInt 32 (x.toInt.tdiv sv.toInt),
        decide (sv = 0), decide (sv = 0 ∨ x = min ∧ sv = 0xFFFFFFFF)),
       (Instr.divu cpu t sz m, if u = 0 then 0xFFFFFFFF else BitVec.ofNat 32 (x.toNat / u.toNat),
        decide (u = 0), decide (u = 0)),
       (Instr.rem cpu t sz m,
        if sv = 0 then x else if x = min ∧ sv = 0xFFFFFFFF then 0 else BitVec.ofInt 32 (x.toInt.tmod sv.toInt),
        decide (sv = 0), decide (sv = 0 ∨ x = min ∧ sv = 0xFFFFFFFF)),
       (Instr.remu cpu t sz m, if u = 0 then x else BitVec.ofNat 32 (x.toNat % u.toNat), decide (u = 0), decide (u = 0))] →
      ∃ s' fl, exec i s = .next s' ∧ SetsNZCV th.flags fl w c' o ∧
        OnlyThread s s' slot t { withAcc (postInc e n th) w with flags := fl, pc := th.pc + 4 }) ∧
    (∃ s' fl, exec (.cmp cpu t (.mem sz m)) s = .next s' ∧
      SetsNZCV th.flags fl (x - sv) (decide (x.toNat < sv.toNat)) (tooWide (x.toInt - sv.toInt)) ∧
      OnlyThread s s' slot t { postInc e n th with flags := fl, pc := th.pc + 4 })

/-- R37, R44, R51, R52, R85: a store to local memory writes the low bytes of its register, little-endian, and nothing else;
the values stored by STX and STY are those before a post-increment. -/
def Claim.StoresToLocalMemory : Prop :=
  ∀ (s : State) (cpu : Cpu) (t : Fin 4) (slot : Nat) (sz : BitVec 2) (m : BitVec 22) (n : Nat) (e : EaMode),
    Ready s cpu t slot → szBytes sz = some n → eaMode m = some e →
    let th := getTh s slot t
    let a := (eaOf th e).toNat
    let mem := (getCore s slot).mem
    (LocalAccess slot th.ddc a n pSTORE → tileHolds s slot a n true = false →
      (∀ i w, (i, w) ∈
        [(Instr.st cpu t sz m, th.acc), (Instr.stz cpu t sz m, 0)] ++
          (if n = 4 then [(Instr.stx cpu t sz m, th.ix), (Instr.sty cpu t sz m, th.iy)] else []) →
        ∃ s', exec i s = .next s' ∧
          OnlyStore s s' slot t { postInc e n th with pc := th.pc + 4 } a (leBytes n w.toNat))) ∧
    (n = 4 → LocalAccess slot th.ddc a n (pLOAD ||| pSTORE) → Clean mem a n → tileHolds s slot a n true = false →
      let v : Word := BitVec.ofNat 32 (memNat mem a n)
      ∃ s' fl, exec (.xch cpu t sz m) s = .next s' ∧ SetsZN th.flags fl v ∧
        OnlyStore s s' slot t { withAcc (postInc e n th) v with flags := fl, pc := th.pc + 4 } a (leBytes n th.acc.toNat))

/-- R56, R57: a multiply-accumulate over two operands in local memory: the exact product, the 40-bit sum saturated or
wrapped, MV, Z and N over 40 bits, and the pointers. -/
def Claim.MultiplyAccumulate : Prop :=
  ∀ (s : State) (cpu : Cpu) (t : Fin 4) (slot : Nat) (sz : BitVec 2) (px py ux uy : Bool) (dx dy : BitVec 8) (n : Nat),
    Ready s cpu t slot → szBytes sz = some n → n ≠ 4 →
    let th := getTh s slot t
    let mem := (getCore s slot).mem
    let ax := (th.ix + dx.signExtend 32).toNat
    let ay := (th.iy + dy.signExtend 32).toNat
    LocalAccess slot th.ddc ax n pLOAD → LocalAccess slot th.ddc ay n pLOAD → Clean mem ax n → Clean mem ay n →
    tileHolds s slot ax n false = false → tileHolds s slot ay n false = false →
    let val (u : Bool) (a : Nat) : Int := if u then memNat mem a n else (BitVec.ofNat (8 * n) (memNat mem a n)).toInt
    let p := val ux ax * val uy ay
    let old := (th.acg ++ th.acc).toInt
    ∀ i sum, (i, sum) ∈
      [(Instr.macd cpu t sz px py ux uy dx dy, old + p), (Instr.msbd cpu t sz px py ux uy dx dy, old - p),
       (Instr.muld cpu t sz px py ux uy dx dy, p)] →
      let outside := decide (sum < -(2 ^ 39) ∨ 2 ^ 39 ≤ sum)
      let r : BitVec 40 :=
        if outside ∧ th.flags.getLsbD 8 = true then BitVec.ofInt 40 (max (-(2 ^ 39)) (min (2 ^ 39 - 1) sum))
        else BitVec.ofInt 40 sum
      ∃ s' fl, exec i s = .next s' ∧ fl.getLsbD 0 = decide (r = 0) ∧ fl.getLsbD 1 = decide (r.toInt < 0) ∧
        fl.getLsbD 4 = (th.flags.getLsbD 4 || outside) ∧ (∀ j, j ∉ [0, 1, 4] → fl.getLsbD j = th.flags.getLsbD j) ∧
        OnlyThread s s' slot t
          { th with
            acg := r.extractLsb' 32 8, acc := r.extractLsb' 0 32, flags := fl, pc := th.pc + 4,
            ix := if px then th.ix + BitVec.ofNat 32 n else th.ix,
            iy := if py then th.iy + BitVec.ofNat 32 n else th.iy }

/-! ### Control transfer and the return stack (R61 to R63, R70 to R72) -/

/-- R61: a branch is taken exactly on its condition, and changes no register but the PC. -/
def Claim.BranchConditions : Prop :=
  ∀ (s : State) (cpu : Cpu) (t : Fin 4) (slot : Nat) (off : BitVec 23), Ready s cpu t slot →
    let th := getTh s slot t
    let z := th.flags.getLsbD 0
    let n := th.flags.getLsbD 1
    let c := th.flags.getLsbD 2
    let v := th.flags.getLsbD 3
    let target := th.pc + 4 * off.signExtend 32
    ∀ cond taken, (cond, taken) ∈
      [(0x0#4, z), (0x1#4, !z), (0x2#4, c), (0x3#4, !c), (0x4#4, n), (0x5#4, !n), (0x6#4, v), (0x7#4, !v),
       (0x8#4, !c && !z), (0x9#4, c || z), (0xA#4, n == v), (0xB#4, n != v), (0xC#4, !z && n == v),
       (0xD#4, z || n != v), (0xE#4, true), (0xF#4, th.flags.getLsbD 4)] →
      (taken = false → ∃ s', exec (.branch cpu t cond off) s = .next s' ∧
        OnlyThread s s' slot t { th with pc := th.pc + 4 }) ∧
      (taken = true → checkTarget s slot th.pcc target = none → ∃ s', exec (.branch cpu t cond off) s = .next s' ∧
        OnlyThread s s' slot t { th with pc := target })

/-- R62, R63, R70 to R72: jumps, calls and returns whose target passes its checks, and the return stack of 16 entries,
with the wrap of RSWRAP. -/
def Claim.JumpsCallsReturns : Prop :=
  ∀ (s : State) (cpu : Cpu) (t : Fin 4) (slot : Nat) (imm : BitVec 24), Ready s cpu t slot →
    let th := getTh s slot t
    let near := th.pc + 4 * imm.signExtend 32
    let good (x : Word) : Prop := checkTarget s slot th.pcc x = none
    let completes (i : Instr) (th' : Thread) : Prop := ∃ s', exec i s = .next s' ∧ OnlyThread s s' slot t th'
    (good near → completes (.jmp cpu t imm) { th with pc := near }) ∧
    (good th.ix → completes (.jx cpu t) { th with pc := th.ix }) ∧
    (th.rs.length < 16 →
      (good near → completes (.call cpu t imm) { th with rs := th.rs ++ [th.pc + 4], pc := near }) ∧
      (good th.ix → completes (.callx cpu t) { th with rs := th.rs ++ [th.pc + 4], pc := th.ix }) ∧
      completes (.rspush cpu t) { th with rs := th.rs ++ [th.ix], pc := th.pc + 4 }) ∧
    (∀ older newest, th.rs = older ++ [newest] →
      (good newest → completes (.ret cpu t) { th with rs := older, pc := newest }) ∧
      completes (.rspop cpu t) { th with rs := older, ix := newest, pc := th.pc + 4 }) ∧
    (∀ oldest newer, th.rs = oldest :: newer → th.rs.length = 16 → rsWrap s slot t = true →
      let pushed (x pc : Word) : Thread := { th with rs := newer ++ [x], flags := th.flags ||| 0x01000000, pc := pc }
      (good near → completes (.call cpu t imm) (pushed (th.pc + 4) near)) ∧
      (good th.ix → completes (.callx cpu t) (pushed (th.pc + 4) th.ix)) ∧
      completes (.rspush cpu t) (pushed th.ix (th.pc + 4)))

/-! ### Shared SRAM (R68, R85, R267, R268, R363) -/

/-- R68: a load from shared SRAM blocks its thread with the instruction, and when its data returns it completes with the
value; every memory reads as before. That the slice is read at the return is the model's choice (log entry 8). -/
def Claim.LoadFromSharedSram : Prop :=
  ∀ (s : State) (cpu : Cpu) (t : Fin 4) (slot : Nat) (sz : BitVec 2) (m : BitVec 22) (n : Nat) (e : EaMode),
    slotOf s cpu = some slot → slot < 576 → szBytes sz = some n → eaMode m = some e →
    let th := getTh s slot t
    let a := (eaOf th e).toNat
    capCheck th.ddc a n pLOAD = none → a % n = 0 → 0x40000000 ≤ a → a + n ≤ 0x70000000 →
    let off := a - 0x40000000
    let v := memNat s.sram off n
    ∀ i w, (i, w) ∈
      [(Instr.ld cpu t sz m, (BitVec.ofNat (8 * n) v).signExtend 32), (Instr.ldu cpu t sz m, BitVec.ofNat 32 v)] →
      (Ready s cpu t slot → RunsTo s i slot t { th with block := some (.sram i) }) ∧
      ((getCore s slot).held = false → th.block = some (.sram i) → (∀ u, (getTh s slot u).pend = []) → Clean s.sram off n →
        ∃ s' fl, exec (.sramLoadReturn cpu t) s = .next s' ∧ SetsZN th.flags fl w ∧
          getTh s' slot t = { withAcc (postInc e n th) w with flags := fl, block := none, pc := th.pc + 4 } ∧
          SameBytes s s' ∧ (∀ u, u ≠ t → getTh s' slot u = getTh s slot u) ∧ (∀ j, j ≠ slot → getCore s' j = getCore s j))

/-- R85, R354, R363: a store to shared SRAM is one more unacknowledged store of its thread, of at most sixteen; with its
acknowledgement the bytes stand in the slice, the granules touched have lost their tags, and no other byte has changed.
That a store reaches its slice at its acknowledgement is the model's choice (log entry 7). -/
def Claim.StoreToSharedSram : Prop :=
  ∀ (s : State) (cpu : Cpu) (t : Fin 4) (slot : Nat) (sz : BitVec 2) (m : BitVec 22) (n : Nat) (e : EaMode),
    slotOf s cpu = some slot → slot < 576 → szBytes sz = some n → eaMode m = some e →
    let th := getTh s slot t
    let a := (eaOf th e).toNat
    let off := a - 0x40000000
    let bs := leBytes n th.acc.toNat
    let p : PendStore := ⟨off / 0x200000, off, bs, false, false⟩
    (Ready s cpu t slot → capCheck th.ddc a n pSTORE = none → a % n = 0 → 0x40000000 ≤ a → a + n ≤ 0x70000000 →
      (∀ u, u ≠ t → ∀ q ∈ (getTh s slot u).pend, q.slice ≠ p.slice) →
      (th.pend.length < 16 →
        RunsTo s (.st cpu t sz m) slot t (nextPc (postInc e n { th with pend := th.pend ++ [p] }))) ∧
      (16 ≤ th.pend.length → exec (.st cpu t sz m) s = .next s)) ∧
    ((getCore s slot).held = false → ∀ rest, th.pend = p :: rest →
      ∃ s', exec (.sramStoreAck cpu t 0) s = .next s' ∧ getTh s' slot t = { th with pend := rest } ∧
        (∀ i (h : i < bs.length), memByte s'.sram (off + i) = bs[i]) ∧
        (∀ x, x < off ∨ off + bs.length ≤ x → memByte s'.sram x = memByte s.sram x) ∧
        (∀ g, memTag s'.sram g = (memTag s.sram g && !decide (g ∈ wordsOf 16 off bs.length))) ∧
        s' = { s with cores := s'.cores, sram := s'.sram })

/-- R267, R268: the scrubber of a slice meets its next word: a single error is corrected, a double one becomes poison with
zero data, every other word stays, and the scrubber moves on, round its slice of 0x80000 words. -/
def Claim.SliceScrub : Prop :=
  ∀ (s : State) (cluster : Fin 8) (k : Nat), k < 48 → dark s = false →
    let key := 48 * cluster.val + k
    let w := tget scrubNext s.sramScrub key
    let word := (0x06000000 * cluster.val + 0x00200000 * k) / 4 + w
    ∃ s', exec (.sliceScrub cluster k) s = .next s' ∧
      tget scrubNext s'.sramScrub key = (w + 1) % 0x80000 ∧
      (∀ j, j ≠ key → tget scrubNext s'.sramScrub j = tget scrubNext s.sramScrub j) ∧
      memCheck s'.sram word = (match memCheck s.sram word with
        | .good => .good | .single => .good | .double => .poison | .poison => .poison) ∧
      (∀ v, v ≠ word → memCheck s'.sram v = memCheck s.sram v) ∧
      (∀ a, memByte s'.sram a = if memCheck s.sram word = .double ∧ a / 4 = word then 0 else memByte s.sram a) ∧
      s'.cores = s.cores

/-! ### Capabilities and gates (R79 to R96) -/

/-- R42, R80, R81: the checks of an access under a capability come in the order tag, seal, permissions, bounds. -/
def Claim.CapabilityCheckOrder : Prop :=
  ∀ (c : Cap) (a n : Nat) (need : BitVec 16),
    let at' (code : BitVec 8) : Option FaultInfo := some ⟨code, BitVec.ofNat 32 a, 0⟩
    let within := c.base.toNat ≤ a ∧ a + n ≤ c.base.toNat + c.length.toNat
    (c.tag = false → capCheck c a n need = at' 0x02) ∧
    (c.tag = true → c.otype ≠ 0 → capCheck c a n need = at' 0x05) ∧
    (c.tag = true → c.otype = 0 → c.perms &&& need ≠ need → capCheck c a n need = at' 0x04) ∧
    (c.tag = true → c.otype = 0 → c.perms &&& need = need → ¬ within → capCheck c a n need = at' 0x03) ∧
    (c.tag = true → c.otype = 0 → c.perms &&& need = need → within → capCheck c a n need = none)

/-- R90, R91: the derivations of major 0x10 and 0x11 that succeed, and nothing else changes. -/
def Claim.CapabilityDerivation : Prop :=
  ∀ (s : State) (cpu : Cpu) (t : Fin 4) (slot : Nat) (cd cs ca : BitVec 3), Ready s cpu t slot →
    let th := getTh s slot t
    let c := capReg th cs
    let a := capReg th ca
    let gives (i : Instr) (r : Cap) : Prop := RunsTo s i slot t { setCapReg th cd r with pc := th.pc + 4 }
    let authority (perm : BitVec 16) : Prop :=
      a.tag = true ∧ a.otype = 0 ∧ a.perms &&& perm = perm ∧ a.base.toNat ≤ a.cursor.toNat ∧
        a.cursor.toNat + 1 ≤ a.base.toNat + a.length.toNat ∧ 1 ≤ a.cursor.toNat ∧ a.cursor.toNat ≤ 0xFFF
    gives (.kcopy cpu t cd cs) c ∧
    gives (.kvoid cpu t cd) ⟨false, 0, 0, 0, 0, 0⟩ ∧
    gives (.khere cpu t cd) { th.pcc with cursor := th.pc } ∧
    (c.tag = true → c.otype = 0 →
      gives (.kaim cpu t cd cs) { c with cursor := th.acc } ∧
      gives (.kmask cpu t cd cs) { c with perms := c.perms &&& th.acc.setWidth 16 } ∧
      (c.base.toNat ≤ c.cursor.toNat → c.cursor.toNat + th.acc.toNat ≤ c.base.toNat + c.length.toNat →
        gives (.knarrow cpu t cd cs) { c with base := c.cursor, length := th.acc }) ∧
      (authority 0x0020 → gives (.kwrap cpu t cd cs ca) { c with otype := a.cursor.setWidth 12 })) ∧
    (c.tag = true → c.otype ≠ 0 → c.otype.setWidth 32 = a.cursor → authority 0x0040 →
      gives (.kunwrap cpu t cd cs ca) { c with otype := 0 })

/-- R90: KREAD gives a field of a capability, tagged or not, with Z and N. -/
def Claim.CapabilityRead : Prop :=
  ∀ (s : State) (cpu : Cpu) (t : Fin 4) (slot : Nat) (cs : BitVec 3), Ready s cpu t slot →
    let th := getTh s slot t
    let c := capReg th cs
    ∀ sel v, (sel, v) ∈
      [(0#3, c.cursor), (1#3, c.base), (2#3, c.length), (3#3, c.perms.setWidth 32), (4#3, c.otype.setWidth 32),
       (5#3, if c.tag then 1 else 0)] →
      ∃ s' fl, exec (.kread cpu t cs sel) s = .next s' ∧ SetsZN th.flags fl v ∧
        OnlyThread s s' slot t { withAcc th v with flags := fl, pc := th.pc + 4 }

/-- R81, R90, R91: whatever tagged capability an instruction of majors 0x10 and 0x11 puts into a register, a register or
PCC held a tagged one before with every permission and every address it has. -/
def Claim.CapabilityMonotone : Prop :=
  ∀ (s : State) (cpu : Cpu) (t : Fin 4) (slot : Nat) (cd cs ca : BitVec 3) (r : Cap), Ready s cpu t slot →
    let th := getTh s slot t
    ∀ i ∈ [Instr.kcopy cpu t cd cs, .kaim cpu t cd cs, .knarrow cpu t cd cs, .kmask cpu t cd cs, .kvoid cpu t cd,
        .khere cpu t cd, .kwrap cpu t cd cs ca, .kunwrap cpu t cd cs ca],
      RunsTo s i slot t (nextPc (setCapReg th cd r)) → r.tag = true →
        ∃ c, (c = th.pcc ∨ ∃ k, c = capReg th k) ∧ c.tag = true ∧ r.perms &&& c.perms = r.perms ∧
          c.base.toNat ≤ r.base.toNat ∧ r.base.toNat + r.length.toNat ≤ c.base.toNat + c.length.toNat

/-- R95, R96: SETG fills a gate register; GATE links and enters through it; RGATE returns to the newest link.
That SETG on a control core takes a code address for good if the core can fetch there is the model's choice (log entry 24). -/
def Claim.Gates : Prop :=
  ∀ (s : State) (cpu : Cpu) (t : Fin 4) (slot : Nat) (n cs ca : BitVec 3), Ready s cpu t slot →
    let core := getCore s slot
    let th := getTh s slot t
    let c := capReg th cs
    let d := capReg th ca
    (c.tag = true → d.tag = true → c.otype ≠ 0 → d.otype = c.otype → c.perms &&& 0x0084 = 0x0084 →
      c.base.toNat ≤ c.cursor.toNat → c.cursor.toNat + 4 ≤ c.base.toNat + c.length.toNat → c.cursor.toNat % 4 = 0 →
      fetchable s slot c.cursor.toNat = true → (csrGet core 0x2014).getLsbD n.toNat = false →
      RunsToCore s (.setg cpu t n cs ca) slot t
        { coreModTh core t nextPc with gates := tset gateDefault core.gates n.toNat (some (c, d)) }) ∧
    (∀ code data, gateGet core n.toNat = some (code, data) → th.glink.length < 4 →
      RunsTo s (.gate cpu t n) slot t
        { th with
          glink := th.glink ++ [({ th.pcc with cursor := th.pc + 4 }, th.ddc)], pcc := { code with otype := 0 },
          ddc := { data with otype := 0 }, pc := code.cursor }) ∧
    (∀ older p d', th.glink = older ++ [(p, d')] →
      RunsTo s (.rgate cpu t) slot t { th with glink := older, pcc := p, ddc := d', pc := p.cursor })

/-- R79, R85, R92: accesses through a capability register to local memory: XLD, XLDU, XST, and LDK and STK with the tag. -/
def Claim.AccessThroughCapability : Prop :=
  ∀ (s : State) (cpu : Cpu) (t : Fin 4) (slot : Nat) (sz : BitVec 2) (cr cb : BitVec 3) (d : BitVec 12) (n : Nat),
    Ready s cpu t slot → szBytes sz = some n → cb ≠ 7 →
    let th := getTh s slot t
    let c := capReg th cb
    let a := (c.cursor + d.signExtend 32).toNat
    let mem := (getCore s slot).mem
    let v := memNat mem a n
    (LocalAccess slot c a n pLOAD → Clean mem a n → tileHolds s slot a n false = false → ∀ i w, (i, w) ∈
      [(Instr.xld cpu t sz cb d, (BitVec.ofNat (8 * n) v).signExtend 32), (Instr.xldu cpu t sz cb d, BitVec.ofNat 32 v)] →
      ∃ s' fl, exec i s = .next s' ∧ SetsZN th.flags fl w ∧
        OnlyThread s s' slot t { withAcc th w with flags := fl, pc := th.pc + 4 }) ∧
    (LocalAccess slot c a n pSTORE → tileHolds s slot a n true = false → ∃ s', exec (.xst cpu t sz cb d) s = .next s' ∧
      OnlyStore s s' slot t (nextPc th) a (leBytes n th.acc.toNat)) ∧
    (LocalAccess slot c a 16 (pLOAD ||| pLOADCAP) → Clean mem a 16 → memSplit mem (a / 16) = false →
      tileHolds s slot a 16 false = false →
      RunsTo s (.ldk cpu t cr cb d) slot t
        (nextPc (setCapReg th cr (capOfBytes (memBytes mem a 16) (memTag mem (a / 16)))))) ∧
    (LocalAccess slot c a 16 (pSTORE ||| pSTORECAP) → tileHolds s slot a 16 true = false →
      ∃ s', exec (.stk cpu t cr cb d) s = .next s' ∧ getTh s' slot t = stepDone (nextPc th) ∧
        memBytes (getCore s' slot).mem a 16 = capBytes (capReg th cr) ∧
        memTag (getCore s' slot).mem (a / 16) = ((capReg th cr).tag && !frameGranule s slot a) ∧
        (∀ x, x < a ∨ a + 16 ≤ x → memByte (getCore s' slot).mem x = memByte mem x) ∧
        (∀ g, g ≠ a / 16 → memTag (getCore s' slot).mem g = memTag mem g) ∧
        (∀ j, j ≠ slot → getCore s' j = getCore s j) ∧ (∀ u, u ≠ t → getTh s' slot u = getTh s slot u))

/-- R85, R271, R272: LDK of a granule one of whose three tag copies differs reads the tag by majority, makes the copies agree
and counts the copy in TAG_FIX; a write of the granule makes them agree. -/
def Claim.TagCopies : Prop :=
  (∀ (s : State) (cpu : Cpu) (t : Fin 4) (slot : Nat) (cr cb : BitVec 3) (d : BitVec 12), Ready s cpu t slot → cb ≠ 7 →
    let th := getTh s slot t
    let c := capReg th cb
    let a := (c.cursor + d.signExtend 32).toNat
    let mem := (getCore s slot).mem
    let fix := 0x1080C + 0x10 * (clusterOf slot).val
    LocalAccess slot c a 16 (pLOAD ||| pLOADCAP) → Clean mem a 16 → memSplit mem (a / 16) = true →
    tileHolds s slot a 16 false = false →
    ∃ s', exec (.ldk cpu t cr cb d) s = .next s' ∧
      getTh s' slot t = stepDone (nextPc (setCapReg th cr (capOfBytes (memBytes mem a 16) (memTag mem (a / 16))))) ∧
      (∀ g, memSplit (getCore s' slot).mem g = (memSplit mem g && !decide (g = a / 16))) ∧
      devGet s' fix = BitVec.ofNat 32 (min 0xFFFF ((devGet s fix).toNat + 1)) ∧
      (getCore s' slot).mem.tags = mem.tags ∧ SameBytes s s' ∧ (∀ u, u ≠ t → getTh s' slot u = getTh s slot u) ∧
      (∀ j, j ≠ slot → getCore s' j = getCore s j)) ∧
  (∀ (m : Mem) (a : Nat) (bs : List Byte) (tag : Bool) (g : Nat),
    memSplit (memStore 4 m a bs) g = (memSplit m g && !decide (g ∈ wordsOf 16 a bs.length)) ∧
    (bs.length = 16 → a % 16 = 0 →
      memSplit (memStoreCap m a bs tag) g = (memSplit m g && !decide (g = a / 16))))

/-- R79: the 128 bits of a capability are read back as it was, whatever its fields and its tag. -/
def Claim.CapabilityRoundTrip : Prop := ∀ c : Cap, capOfBytes (capBytes c) c.tag = c

/-! ### Closures, fences and exceptions (R98 to R109, R362) -/

/-- R98, R362: CLOSE within its limit, OPEN, and a FENCE with nothing left to wait for. -/
def Claim.ClosuresAndFences : Prop :=
  ∀ (s : State) (cpu : Cpu) (t : Fin 4) (slot : Nat) (n : BitVec 11) (scope : BitVec 3), Ready s cpu t slot →
    let th := getTh s slot t
    (th.pcc.perms &&& 0x0100 = 0x0100 → n.toNat ≤ (csrGet (getCore s slot) 0x2010).toNat → th.closeEnd = none →
      RunsTo s (.closureClose cpu t n) slot t
        (nextPc { th with closeEnd := if n = 0 then none else some (clockOf s slot + n.toNat) })) ∧
    RunsTo s (.closureOpen cpu t) slot t (nextPc { th with closeEnd := none }) ∧
    (scope.toNat < 6 → scope.toNat < 2 ∨ th.pend = [] → RunsTo s (.fence cpu t scope) slot t (nextPc th))

/-- R99, R100: the end of a closure with nothing held opens the thread and does nothing else. -/
def Claim.ClosureEnds : Prop :=
  ∀ (s : State) (cpu : Cpu) (t : Fin 4) (slot k : Nat), slotOf s cpu = some slot → (getCore s slot).held = false →
    (getTh s slot t).closeEnd = some k → (getTh s slot t).stopReq = false → (getCore s slot).notes = [] →
    streamFaultFor (getCore s slot) t = none → t ≠ handlerOf (getCore s slot) →
    exec (.closureEnd cpu t) s = .next (modTh s slot t fun th => { th with closeEnd := none })

/-- R102, R103, R128, R583: the entry of a fault on a core of a cluster. The save frame holds the thread; SFC moves on by 0x180;
the transfer takes its place on the frame path, 24 cycles (R583); with route 0 the thread stops, a STEP of it is over, a
notification becomes pending in the cycle after the transfer, and firmware hears of the stop; with route 1 the gate's handler
starts with CAUSE in ACC and the frame address in IX. No byte outside the frame changes. -/
def Claim.FaultEntry : Prop :=
  ∀ (s : State) (cpu : Cpu) (t : Fin 4) (slot : Nat) (code : BitVec 8) (faddr info : Word),
    slotOf s cpu = some slot → slot < 576 → canTrap s slot t = true → (getTh s slot t).st = .running →
    (getCore s slot).escActive = false → code ∈ faultCodes →
    let core := getCore s slot
    let th := getTh s slot t
    let fa := th.sfc.cursor.toNat
    FrameRoom th.sfc fa →
    let cause := BitVec.ofNat 32 (t.val * 65536 + code.toNat)
    let route := decide (t = superOf s slot) || (csrGet core (0x2000 + 4 * t.val)).getLsbD 8
    let saved : Thread :=
      { th with sfc := { th.sfc with cursor := th.sfc.cursor + 0x180 }, closeEnd := none, wait := none, block := none }
    let now := clockOf s slot
    let path := takePath core now t
    ((∀ m ∈ core.frames, m.last ≤ now) →
      path = { core with frames := [⟨now, t, now + 24⟩] } ∧ frameLast core now t = now + 24) ∧
    let happens (th' : Thread) (notes : Core) (told : List (Nat × Bool)) : Prop :=
      ∃ s', exec (.exceptionEntry cpu t (.reported code faddr info)) s = .next s' ∧
        HoldsFrame (getCore s' slot).mem fa th th.pc cause faddr info ∧
        (∀ x, x < fa ∨ fa + 0x180 ≤ x → memByte (getCore s' slot).mem x = memByte core.mem x) ∧
        getCore s' slot =
          { path with th := core.th.set t th', mem := (getCore s' slot).mem, notes := notes.notes } ∧
        s' = { s with cores := s'.cores, soNotes := s.soNotes ++ told } ∧ (∀ j, j ≠ slot → getCore s' j = getCore s j)
    (route = false →
      happens (endStep { saved with st := .stoppedFault, cause := code })
        (addNote path (.stopped t code th.sfc.cursor (frameLast core now t + 1))) ((logicalOf s slot).toList.map (·, false))) ∧
    (∀ c d, route = true → gateGet core ((csrGet core (0x2000 + 4 * t.val)).extractLsb' 0 3).toNat = some (c, d) →
      happens
        { withAcc saved cause with
          pcc := { c with otype := 0 }, ddc := { d with otype := 0 }, pc := c.cursor, ix := th.sfc.cursor, rs := [],
          glink := [], st := .running } path [])

/-- R105: ERET on a core of a cluster takes the frame below SFC.CURSOR, restores what R103 marks, and moves SFC down to it. -/
def Claim.ExceptionReturn : Prop :=
  ∀ (s : State) (cpu : Cpu) (t : Fin 4) (slot : Nat), Ready s cpu t slot → slot < 576 →
    let th := getTh s slot t
    let fa := (th.sfc.cursor - 0x180).toNat
    th.st = .running → FrameRoom th.sfc fa → Clean (getCore s slot).mem fa 0x180 →
    ∃ s', exec (.eret cpu t) s = .next s' ∧ Restored (getCore s slot).mem fa (getTh s' slot t) ∧
      (getTh s' slot t).sfc = { th.sfc with cursor := th.sfc.cursor - 0x180 } ∧ (getTh s' slot t).st = .running ∧
      (getTh s' slot t).closeEnd = none ∧ SameBytes s s' ∧ (∀ u, u ≠ t → getTh s' slot u = getTh s slot u) ∧
      (∀ j, j ≠ slot → getCore s' j = getCore s j)

/-- R102, R103, R105: a fault that stops its thread, and RESUME of it, give back every register: a capability without a tag
comes back as null, and a STEP of the thread is over (R140). -/
def Claim.FaultThenResume : Prop :=
  ∀ (s : State) (cpu : Cpu) (t : Fin 4) (slot : Nat) (code : BitVec 8) (faddr info : Word),
    slotOf s cpu = some slot → slot < 576 → canTrap s slot t = true → (getTh s slot t).st = .running →
    (getCore s slot).escActive = false → code ∈ faultCodes → t ≠ superOf s slot →
      (csrGet (getCore s slot) (0x2000 + 4 * t.val)).getLsbD 8 = false →
    let th := getTh s slot t
    let fa := th.sfc.cursor.toNat
    FrameRoom th.sfc fa → th.rs.length ≤ 16 → th.glink.length ≤ 4 → th.flags &&& 0x0100011F = th.flags →
    let back (c : Cap) : Cap := if c.tag then c else Cap.null
    ∃ s1 s2, exec (.exceptionEntry cpu t (.reported code faddr info)) s = .next s1 ∧
      exec (.threadResume cpu t) s1 = .next s2 ∧
      getTh s2 slot t =
        { th with
          pcc := { back { th.pcc with cursor := th.pc } with cursor := th.pc }, ddc := back th.ddc, c1 := back th.c1,
          c2 := back th.c2, c3 := back th.c3, c4 := back th.c4, c5 := back th.c5, c6 := back th.c6,
          glink := th.glink.map fun l => (back l.1, back l.2), st := .running, cause := code, closeEnd := none,
          wait := none, block := none, stepping := false, stopReq := th.stopReq && !th.stepping }

/-- R107: an escalation on a core of a cluster writes the escalation frame with SFC, starts the handler with its fixed
registers, and marks the core. -/
def Claim.EscalationEntry : Prop :=
  ∀ (s : State) (cpu : Cpu) (t : Fin 4) (slot : Nat) (code orig : BitVec 8) (faddr info : Word),
    slotOf s cpu = some slot → slot < 576 → canTrap s slot t = true → (getTh s slot t).st = .running →
    (getCore s slot).escActive = false → code = 0x0B ∨ code = 0x09 →
    let core := getCore s slot
    let th := getTh s slot t
    let cause := BitVec.ofNat 32 (t.val * 65536 + orig.toNat * 256 + code.toNat)
    ∃ s', exec (.escalation cpu t code orig faddr info) s = .next s' ∧
      let m := (getCore s' slot).mem
      let th' := getTh s' slot t
      HoldsFrame m 0x7FE80 th th.pc cause faddr info ∧ HoldsCap m (0x7FE80 + 0x30) th.sfc ∧
      (∀ x, x < 0x7FE80 ∨ 0x80000 ≤ x → memByte m x = memByte core.mem x) ∧
      th'.acc = cause ∧ th'.ix = 0x7FE80 ∧ th'.iy = 0x7FE80 ∧ th'.pc = 0x7F000 ∧
      th'.pcc = ⟨true, 0x7F000, 0x7F000, 0x800, 0x0005, 0⟩ ∧
      (th'.ddc.tag = true ∧ th'.ddc.base = 0x7F800 ∧ th'.ddc.length = 0x800 ∧ th'.ddc.perms = 0x001B ∧ th'.ddc.otype = 0) ∧
      (th'.c1.tag = true ∧ th'.c1.base = 0x100000 ∧ th'.c1.length = 0xA000 ∧ th'.c1.perms = 0x0203 ∧ th'.c1.otype = 0) ∧
      (∀ c ∈ [th'.c2, th'.c3, th'.c4, th'.c5, th'.c6, th'.sfc], c = Cap.null) ∧
      th'.rs = [] ∧ th'.glink = [] ∧ th'.closeEnd = none ∧ th'.st = .escalation ∧ th'.flags = th.flags ∧
      (getCore s' slot).escActive = true ∧ (∀ u, u ≠ t → getTh s' slot u = getTh s slot u) ∧
      (∀ j, j ≠ slot → getCore s' j = getCore s j)

/-- R108: ESCRET in escalation restores the escalation frame but SFC, and the other threads go on. -/
def Claim.EscalationReturn : Prop :=
  ∀ (s : State) (cpu : Cpu) (t : Fin 4) (slot : Nat), Ready s cpu t slot → slot < 576 →
    let th := getTh s slot t
    th.st = .escalation → Clean (getCore s slot).mem 0x7FE80 0x180 →
    ∃ s', exec (.escret cpu t) s = .next s' ∧ Restored (getCore s slot).mem 0x7FE80 (getTh s' slot t) ∧
      (getTh s' slot t).sfc = th.sfc ∧ (getTh s' slot t).st = .running ∧ (getCore s' slot).escActive = false ∧
      SameBytes s s' ∧ (∀ u, u ≠ t → getTh s' slot u = getTh s slot u) ∧ (∀ j, j ≠ slot → getCore s' j = getCore s j)

/-- R43, R102, R109: a fault of an instruction changes nothing before it is taken; in escalation it halts the core. -/
def Claim.InstructionFaults : Prop :=
  ∀ (s : State) (cpu : Cpu) (t : Fin 4) (slot : Nat) (m : BitVec 22), Ready s cpu t slot →
    let th := getTh s slot t
    let s0 := fetched s slot t
    (∀ i ∈ [Instr.ldx cpu t 0 m, .ldx cpu t 3 m, .stx cpu t 1 m, .xch cpu t 0 m, .leax cpu t 1 m, .ld cpu t 3 m],
      exec i s = .next (afterIssue (takeFault s0 slot t ⟨0x01, 0, 0⟩) slot t)) ∧
    (th.rs = [] → ∀ i ∈ [Instr.ret cpu t, .rspop cpu t],
      exec i s = .next (afterIssue (takeFault s0 slot t ⟨0x08, 0, 0⟩) slot t)) ∧
    (16 ≤ th.rs.length → rsWrap s slot t = false →
      exec (.rspush cpu t) s = .next (afterIssue (takeFault s0 slot t ⟨0x07, 0, 0⟩) slot t)) ∧
    (th.glink = [] → exec (.rgate cpu t) s = .next (afterIssue (takeFault s0 slot t ⟨0x09, 0, 0⟩) slot t)) ∧
    (th.st = .running → exec (.escret cpu t) s = .next (afterIssue (takeFault s0 slot t ⟨0x01, 0, 0⟩) slot t)) ∧
    (th.st = .escalation → exec (.eret cpu t) s = .next (afterIssue (takeFault s0 slot t ⟨0x01, 0, 0⟩) slot t) ∧
      ∀ f : FaultInfo, (getCore (takeFault s0 slot t f) slot).halted = true ∧
        ∀ u, (getTh (takeFault s0 slot t f) slot u).st = .halted)

/-! ### Threads, events and notifications (R112 to R135) -/

/-- R122 to R124, R127: WFE takes a pending event or waits (a thread in ESCALATION without leaving that state, R112), and ends a
closure; CLREV clears the event bit; SEV and CYC_WAKE set the event bits of the threads they select. -/
def Claim.EventsAndWaiting : Prop :=
  ∀ (s : State) (cpu : Cpu) (t : Fin 4) (slot : Nat) (mask : BitVec 4),
    let core := getCore s slot
    let th := getTh s slot t
    (Ready s cpu t slot →
      (th.ev = true → RunsTo s (.wfe cpu t) slot t (nextPc { th with ev := false, closeEnd := none })) ∧
      (th.ev = false → RunsTo s (.wfe cpu t) slot t
        { th with st := if th.st = .escalation then .escalation else .waiting, wait := some .event, waitFrom := clockOf s slot, closeEnd := none }) ∧
      RunsTo s (.clrev cpu t) slot t (nextPc { th with ev := false }) ∧
      (∃ s' c', exec (.sev cpu t mask) s = .next s' ∧ OnlyCore s s' slot c' ∧ c' = { core with th := c'.th } ∧
        ∀ u : Fin 4, c'.th[u] =
          let before := if u = t then stepDone (nextPc th) else core.th[u]
          if mask.getLsbD u.val then woken before else before)) ∧
    (slotOf s cpu = some slot → core.held = false →
      ∃ s', exec (.cycWake cpu) s = .next s' ∧ s' = { s with cores := s'.cores } ∧
        (∀ j, j ≠ slot → getCore s' j = getCore s j) ∧
        ∀ u : Fin 4, getTh s' slot u =
          if cycleReg s slot = csrGet core 0x1074 ∧ (csrGet core (0x1050 + 4 * u.val)).getLsbD 4 = true then woken core.th[u]
          else core.th[u])

/-- R114: START begins a stopped or not yet running thread at its entry with its registers cleared and its capabilities
kept; a START of the thread whose dispatch is open ends that dispatch. -/
def Claim.ThreadStart : Prop :=
  ∀ (s : State) (cpu : Cpu) (t : Fin 4) (slot : Nat), slotOf s cpu = some slot → slot < 576 → (getCore s slot).held = false →
    let core := getCore s slot
    let th := getTh s slot t
    let entry := csrGet core (0x1010 + 4 * t.val)
    th.st = .notRunning ∨ th.st = .stoppedFault →
    ∃ s', exec (.threadStart cpu t) s = .next s' ∧ s' = { s with cores := s'.cores } ∧
      (∀ j, j ≠ slot → getCore s' j = getCore s j) ∧ (∀ u, u ≠ t → getTh s' slot u = getTh s slot u) ∧
      getTh s' slot t =
        { th with
          pc := entry, pcc := { th.pcc with cursor := entry }, acc := 0, acg := 0, ix := 0, iy := 0, flags := 0, rs := [],
          glink := [], staged := [], ev := false, cause := 0, st := .running, wait := none, block := none,
          closeEnd := none } ∧
      (t = core.pdThread → (getCore s' slot).pdActive = false ∧ (getCore s' slot).shadow = ⟨0, 0, 0, 0, 0⟩) ∧
      (t ≠ core.pdThread → getCore s' slot = { core with th := (getCore s' slot).th })

/-- R120: the writes to the slot table that wait take effect together, the last write to a register prevailing. -/
def Claim.SlotTableTakesEffect : Prop :=
  ∀ (s : State) (cpu : Cpu) (slot : Nat), slotOf s cpu = some slot → (getCore s slot).held = false →
    let core := getCore s slot
    ∃ s', exec (.slotTableUpdate cpu) s = .next s' ∧ s' = { s with cores := s'.cores } ∧
      (∀ j, j ≠ slot → getCore s' j = getCore s j) ∧
      getCore s' slot = { core with csr := (getCore s' slot).csr, slotPend := [] } ∧
      ∀ o, csrGet (getCore s' slot) o =
        (((core.slotPend.filter fun p => p.1 == o).getLast?).map (·.2)).getD (csrGet core o)

/-- R134: an unarmed wait makes one orphan wait pending, with the mask of the waiting threads. -/
def Claim.OrphanWait : Prop :=
  ∀ (s : State) (cpu : Cpu) (slot : Nat), slotOf s cpu = some slot → (getCore s slot).held = false →
    let core := getCore s slot
    orphaned s slot = true →
    (core.orphanRaised = false → ∃ s' mask, exec (.orphanWait cpu) s = .next s' ∧
      getCore s' slot = addNote { core with orphanRaised := true } (.orphan mask (clockOf s slot)) ∧
      (∀ k : Fin 4, mask.getLsbD k.val = decide (core.th[k].st = .waiting)) ∧
      s' = { s with cores := s'.cores } ∧ (∀ j, j ≠ slot → getCore s' j = getCore s j)) ∧
    (core.orphanRaised = true → exec (.orphanWait cpu) s = .next s)

/-- R129, R130: the oldest notification enters the supervisor of a core of a cluster at its gate, whatever its route: the
frame holds the supervisor at its resume point, and CAUSE, FADDR and INFO tell of the event; the transfer
takes its place on the frame path (R583). -/
def Claim.NotificationDelivery : Prop :=
  ∀ (s : State) (cpu : Cpu) (slot : Nat) (note : Note) (rest : List Note) (code data : Cap),
    slotOf s cpu = some slot → slot < 576 → (getCore s slot).held = false → (getCore s slot).notes = note :: rest →
    notifiable s slot = true →
    let core := getCore s slot
    let k := superOf s slot
    let th := getTh s slot k
    tileBeforeCommit s slot k = none →
    let fa := th.sfc.cursor.toNat
    FrameRoom th.sfc fa →
    gateGet core ((csrGet core (0x2000 + 4 * k.val)).extractLsb' 0 3).toNat = some (code, data) →
    let pc := if th.st = .waiting ∧ th.wait = some .event then th.pc + 4 else th.pc
    let told : Word × Word × Word := match note with
      | .stopped j c frame _ => (BitVec.ofNat 32 (j.val * 65536 + c.toNat), frame, 0)
      | .orphan mask _ => (0x28, 0, mask.setWidth 32)
    ∃ s', exec (.notifyDelivery cpu) s = .next s' ∧
      (getCore s' slot).notes = (takePath { core with notes := rest } (clockOf s slot) k).notes ∧
      HoldsFrame (getCore s' slot).mem fa th pc told.1 told.2.1 told.2.2 ∧
      (∀ x, x < fa ∨ fa + 0x180 ≤ x → memByte (getCore s' slot).mem x = memByte core.mem x) ∧
      getTh s' slot k =
        { withAcc th told.1 with
          sfc := { th.sfc with cursor := th.sfc.cursor + 0x180 }, pcc := { code with otype := 0 },
          ddc := { data with otype := 0 }, pc := code.cursor, ix := th.sfc.cursor, rs := [], glink := [],
          closeEnd := none, wait := none, block := none, st := .running } ∧
      (∀ u, u ≠ k → getTh s' slot u = getTh s slot u) ∧ (∀ j, j ≠ slot → getCore s' j = getCore s j)

/-! ### Debug (R136 to R145) -/

/-- R112, R138 to R140, R145: what STOP, the boundary, STEP, RESUME and EVENT do to their thread, and STOP and RESUME of all
threads to each of them; a WAITING thread stops at once where nothing holds the stop. A debug access wakes the cluster of its core
(R532). That a STOP of a thread that does not run is dropped is the model's choice (log entry 97). -/
def Claim.DebugControl : Prop :=
  ∀ (s : State) (cpu : Cpu) (t : Fin 4) (slot : Nat), slotOf s cpu = some slot → (getCore s slot).held = false →
    let th := getTh s slot t
    let s0 := reached s slot
    let resumed (x : Thread) : Thread :=
      if x.st = .stoppedDebug then { x with st := .running, stepping := false, stopReq := false } else x
    let asked (x : Thread) : Thread :=
      if x.st = .running ∨ x.st = .escalation then { x with stopReq := true, stepping := false } else x
    (th.st = .running ∨ th.st = .escalation →
      exec (.dbgStop cpu t) s = .next (modTh s0 slot t fun th => { th with stopReq := true, stepping := false })) ∧
    (th.st = .waiting →
      let s1 := modTh s0 slot t fun th => { th with stopReq := true, stepping := false }
      (stopDue s1 slot t = false → exec (.dbgStop cpu t) s = .next s1) ∧
      (stopDue s1 slot t = true → tileBeforeCommit s1 slot t = none →
        exec (.dbgStop cpu t) s = .next (modTh s1 slot t fun th =>
          { th with
            pend := th.pend.filter (fun p => p.applied || !p.bytes.isEmpty), st := .stoppedDebug, cause := 0x30,
            stopReq := false, stepping := false, wait := none, block := none }))) ∧
    (th.st = .notRunning ∨ th.st = .stoppedFault ∨ th.st = .stoppedDebug ∨ th.st = .halted →
      exec (.dbgStop cpu t) s = .next s0) ∧
    (stopDue s slot t = true → tileBeforeCommit s slot t = none →
      exec (.debugStopTaken cpu t) s = .next (modTh s slot t fun th =>
        { th with
          pend := th.pend.filter (fun p => p.applied || !p.bytes.isEmpty), st := .stoppedDebug, cause := 0x30,
          stopReq := false, stepping := false, wait := none, block := none })) ∧
    (th.st = .stoppedDebug →
      exec (.dbgStep cpu t) s = .next (modTh s0 slot t fun th =>
        { th with st := .running, stepping := true, stopReq := false }) ∧
      exec (.dbgResume cpu t) s = .next (modTh s0 slot t resumed)) ∧
    exec (.dbgEvent cpu t) s = .next (modTh s0 slot t woken) ∧
    (∃ s', exec (.dbgResumeAll cpu) s = .next s' ∧ (∀ u, getTh s' slot u = resumed (getTh s slot u)) ∧
      s' = { s0 with cores := s'.cores } ∧ (∀ j, j ≠ slot → getCore s' j = getCore s j)) ∧
    ((∀ u, (getTh s slot u).st ≠ .waiting) →
      ∃ s', exec (.dbgStopAll cpu) s = .next s' ∧ (∀ u, getTh s' slot u = asked (getTh s slot u)) ∧
        s' = { s0 with cores := s'.cores } ∧ (∀ j, j ≠ slot → getCore s' j = getCore s j))

/-- R136, R141, R145: JTAG selects a site and lets it go, and once it is selected writes and reads the core's debug registers; a
debug access wakes the cluster of its core (R532); a read of DBG_DATA gives the register that DBG_SEL names of a stopped thread,
a write sets it, and an access that is not allowed reads zero, writes nothing and sets SEL_ERR. That JTAG reaches the DEBUG page
of the core it has selected is the model's choice (log entry 131), and so is it that a read of one it has not selected gives
zero (log entry 83). -/
def Claim.DebugData : Prop :=
  ∀ (s : State) (cpu : Cpu) (t : Fin 4) (slot site : Nat) (v : Word), slotOf s cpu = some slot →
    (getCore s slot).held = false → dark s = false →
    let core := getCore s slot
    let th := getTh s slot t
    let s0 := reached s slot
    (site < 576 → ∀ act on, (act, on) ∈ [(JtagAct.select, true), (.deselect, false)] →
      exec (.jtagSelect site act) s = .next (modCore (reached s site) site fun c => { c with jtag := on })) ∧
    (slot < 576 →
      (core.jtag = true →
        (∃ s', exec (.jtagSelect slot (.write 2 v)) s = .next s' ∧ csrGet (getCore s' slot) 0x9008 = v &&& 0x0003FFFF) ∧
        exec (.jtagSelect slot (.read 2)) s = .next { s0 with outbox := s.outbox ++ [.word (csrGet core 0x9008)] }) ∧
      (core.jtag = false →
        exec (.jtagSelect slot (.write 2 v)) s = .next s0 ∧
        exec (.jtagSelect slot (.read 2)) s = .next { s0 with outbox := s.outbox ++ [.word 0] })) ∧
    (∀ k x put, (k, x, put) ∈
      [(0, th.acc, { th with acc := v }), (1, th.acg.setWidth 32, { th with acg := v.setWidth 8 }),
       (2, th.ix, { th with ix := v }), (3, th.iy, { th with iy := v }), (5, th.pc, { th with pc := v })] →
      dbgSel core = (t, k) →
      (th.st = .stoppedDebug ∨ th.st = .stoppedFault ∨ th.st = .notRunning ∨ th.st = .halted →
        exec (.dbgDataAccess cpu none) s = .next { s0 with outbox := s.outbox ++ [.word x] } ∧
        ∃ s', exec (.dbgDataAccess cpu (some v)) s = .next s' ∧ getTh s' slot t = put ∧
          (∀ u, u ≠ t → getTh s' slot u = getTh s slot u) ∧ (∀ j, j ≠ slot → getCore s' j = getCore s j) ∧
          s' = { s0 with cores := s'.cores }) ∧
      (th.st = .running ∨ th.st = .waiting →
        (∃ s', exec (.dbgDataAccess cpu none) s = .next s' ∧ getCore s' slot = { core with selErr := true } ∧
          s'.outbox = s.outbox ++ [.word 0] ∧ (∀ j, j ≠ slot → getCore s' j = getCore s j)) ∧
        ∃ s', exec (.dbgDataAccess cpu (some v)) s = .next s' ∧ getCore s' slot = { core with selErr := true } ∧
          s' = { s0 with cores := s'.cores, setNow := s'.setNow } ∧ (∀ j, j ≠ slot → getCore s' j = getCore s j)))

/-! ### Posts and flags (R315 to R337) -/

/-- R316, R317, R320: PSTW stages ACC, PCLR empties the staging words, PGET and FGET read a received word and a flag. -/
def Claim.StagingAndReading : Prop :=
  ∀ (s : State) (n : Nat) (t : Fin 4) (slot : Nat) (i : BitVec 2) (f : BitVec 6), Ready s (.core n) t slot →
    let core := getCore s slot
    let th := getTh s slot t
    (th.pcc.perms &&& 0x0400 = 0x0400 →
      (th.staged.length < 4 → RunsTo s (.pstw n t) slot t (nextPc { th with staged := th.staged ++ [th.acc] })) ∧
      RunsTo s (.pclr n t) slot t (nextPc { th with staged := [] })) ∧
    (∀ c v p, (c, v, p) ∈
      [(Instr.pget n t i, th.recvd.extractLsb' (32 * i.toNat) 32, 0x0400#16),
       (Instr.fget n t f, (flagGet core f.toNat).setWidth 32, 0x0800#16)] → th.pcc.perms &&& p = p →
      ∃ s' fl, exec c s = .next s' ∧ SetsZN th.flags fl v ∧
        OnlyThread s s' slot t { withAcc th v with flags := fl, pc := th.pc + 4 })

/-- R317, R321 to R324: POST and POSTQ through an open entry with credit to a core of this device: the credit is spent, the
staging words are empty, ACC is 0, and the descriptor is on its way. POSTQ through an entry that is not valid, closed or
without credit answers 0x05, 0x02 or 0x01 and sends nothing. -/
def Claim.PostsLeave : Prop :=
  ∀ (s : State) (n : Nat) (t : Fin 4) (slot : Nat) (e : BitVec 5), Ready s (.core n) t slot →
    let core := getCore s slot
    let th := getTh s slot t
    let lo := csrGet core (0x7100 + 8 * e.toNat)
    let hi := csrGet core (0x7104 + 8 * e.toNat)
    let dst := (lo.extractLsb' 0 10).toNat
    let credit := tget creditDefault core.credit e.toNat
    let closed := tget closedDefault core.chClosed e.toNat
    logicalOf s slot = some n → 3 ≤ th.staged.length → th.staged.length ≤ 4 → th.pcc.perms &&& 0x0400 = 0x0400 →
    (hi.getLsbD 31 = true → closed = false → credit ≠ 0 → th.pend = [] → lo.extractLsb' 16 16 = fabDev s →
      dst < logicalCount s →
      let user : BitVec 4 := if th.staged.length = 4 then ((th.staged.getD 3 0).extractLsb' 0 4) else 0
      let desc : BitVec 128 :=
        (fabDev s ++ BitVec.ofNat 10 n ++ BitVec.ofNat 2 t.val ++ user) ++ th.staged.getD 2 0 ++ th.staged.getD 1 0 ++
          th.staged.getD 0 0
      ∀ i ∈ Instr.postq n t e :: (if t = handlerOf core then [] else [.post n t e]),
        ∃ s' fl, exec i s = .next s' ∧ SetsZN th.flags fl 0 ∧
          getTh s' slot t = stepDone { withAcc th 0 with flags := fl, pc := th.pc + 4, staged := [] } ∧
          (∀ k, tget creditDefault (getCore s' slot).credit k =
            if k = e.toNat then credit - 1 else tget creditDefault core.credit k) ∧
          s'.msgs = s.msgs ++
            [.post (.here n e.toNat (tget genDefault core.gen e.toNat)) dst (hi.extractLsb' 20 2) desc] ∧
          SameBytes s s' ∧ (∀ u, u ≠ t → getTh s' slot u = getTh s slot u) ∧ (∀ j, j ≠ slot → getCore s' j = getCore s j)) ∧
    (∀ v, (hi.getLsbD 31 = false ∧ v = 0x05) ∨ (hi.getLsbD 31 = true ∧ closed = true ∧ v = 0x02) ∨
        (hi.getLsbD 31 = true ∧ closed = false ∧ credit = 0 ∧ v = 0x01) →
      ∃ s' fl, exec (.postq n t e) s = .next s' ∧ SetsZN th.flags fl v ∧
        OnlyThread s s' slot t { withAcc th v with flags := fl, pc := th.pc + 4 })

/-- R316, R336: FWAIT and FTRY take one from a flag that counts; on a flag at zero FWAIT waits and FTRY answers 0. -/
def Claim.FlagWaits : Prop :=
  ∀ (s : State) (n : Nat) (t : Fin 4) (slot : Nat) (sc : BitVec 3) (f : BitVec 6), Ready s (.core n) t slot →
    let core := getCore s slot
    let th := getTh s slot t
    let taken (c : Core) : Core := { c with flags := tset flagDefault c.flags f.toNat (flagGet core f.toNat - 1) }
    sc.toNat < 6 → th.pcc.perms &&& 0x0800 = 0x0800 → scopeFault core f sc = none →
    (flagGet core f.toNat ≠ 0 →
      RunsToCore s (.fwait n t sc f) slot t (taken (coreModTh core t nextPc)) ∧
      ∃ fl, SetsZN th.flags fl 1 ∧
        RunsToCore s (.ftry n t sc f) slot t (taken (coreModTh core t fun th => nextPc { withAcc th 1 with flags := fl }))) ∧
    (flagGet core f.toNat = 0 →
      RunsTo s (.fwait n t sc f) slot t
        { th with st := if th.st = .escalation then .escalation else .waiting, wait := some (.flag f), waitFrom := clockOf s slot } ∧
      ∃ fl, SetsZN th.flags fl 0 ∧ RunsTo s (.ftry n t sc f) slot t (nextPc { withAcc th 0 with flags := fl }))

/-- R315, R322, R337: FSIG in mode 00 adds one to the own flag, in mode 01 sends a signal through an entry to a core of this
device. -/
def Claim.FlagSignalsLeave : Prop :=
  ∀ (s : State) (n : Nat) (t : Fin 4) (slot : Nat) (e : BitVec 5) (sc : BitVec 3) (f : BitVec 6),
    Ready s (.core n) t slot →
    let core := getCore s slot
    let th := getTh s slot t
    let lo := csrGet core (0x7100 + 8 * e.toNat)
    let hi := csrGet core (0x7104 + 8 * e.toNat)
    logicalOf s slot = some n → sc.toNat < 6 → th.pcc.perms &&& 0x0800 = 0x0800 → scopeFault core f sc = none →
    th.pend = [] →
    ((∀ u : Fin 4, core.th[u].wait ≠ some (.flag f)) → flagGet core f.toNat ≠ 255 →
      RunsToCore s (.fsig n t 0 0 sc f) slot t
        { coreModTh core t nextPc with flags := tset flagDefault core.flags f.toNat (flagGet core f.toNat + 1) }) ∧
    (hi.getLsbD 31 = true → tget closedDefault core.chClosed e.toNat = false → lo.extractLsb' 16 16 = fabDev s →
      (lo.extractLsb' 0 10).toNat < logicalCount s →
      ∃ s', exec (.fsig n t 1 (e.setWidth 6) sc f) s = .next s' ∧ getTh s' slot t = stepDone (nextPc th) ∧
        s'.msgs = s.msgs ++
          [.signal (.here n e.toNat (tget genDefault core.gen e.toNat)) (lo.extractLsb' 0 10).toNat f
            (fabDev s ++ BitVec.ofNat 10 n ++ BitVec.ofNat 2 t.val ++ 0#4)] ∧
        SameBytes s s' ∧ (∀ u, u ≠ t → getTh s' slot u = getTh s slot u) ∧ (∀ j, j ≠ slot → getCore s' j = getCore s j))

/-- R325, R326, R332, R335, R345: what each unit in transit does when it arrives at a core that serves: a post enters an open
queue with room, and wakes the threads that its queue wakes; a signal adds one to its flag; a credit comes back to the
binding it left; a dead letter enters the dead-letter queue and closes its entry. -/
def Claim.TransitArrivals : Prop :=
  ∀ (s : State) (i : Nat) (m : Msg) (slot : Nat), s.msgs[i]? = some m → siteOf s (msgDst m) = some slot →
    msgDst m ≠ 1023 → coreServes s slot = true → asleep s (clusterOf slot) = false →
    (∀ c e g d q w, m = .post (.here c e g) d q w →
      ∀ x ∈ s.msgs.take i, ∀ g' d' q' w', x ≠ .post (.here c e g') d' q' w') →
    flowHolds s i m = false →
    let core := getCore s slot
    let s0 : State := flowMoves { s with msgs := s.msgs.eraseIdx i } m
    (∀ org d q desc, m = .post org d q desc → queueOpen core q.toNat = true →
      core.queues[q.toNat].length < 16 →
      ∃ s', exec (.postArrival (.transit i)) s = .next s' ∧ s' = { s0 with cores := s'.cores } ∧
        (getCore s' slot).queues = core.queues.set q.toNat (core.queues[q.toNat] ++ [⟨desc, some org⟩]) ∧
        ∀ u : Fin 4, getTh s' slot u =
          if (csrGet core (0x1050 + 4 * u.val)).getLsbD q.toNat then woken core.th[u] else core.th[u]) ∧
    (∀ org d q desc st, m = .post org d q desc → queueRefuses core (Fin.ofNat 4 q.toNat) = some st →
      exec (.postArrival (.transit i)) s = .next (refuse s0 org 0 desc st)) ∧
    (∀ f, ((∃ org d w, m = .signal org d f w) ∨ (∃ d, m = .routed d f)) →
      (∀ u : Fin 4, core.th[u].wait ≠ some (.flag f)) →
      ∃ s', exec (.flagSignalArrival i) s = .next s' ∧ s' = { s0 with cores := s'.cores, setNow := s'.setNow } ∧
        (flagGet core f.toNat ≠ 255 → s'.setNow = s.setNow ∧ getCore s' slot =
          { core with flags := tset flagDefault core.flags f.toNat (flagGet core f.toNat + 1) }) ∧
        (flagGet core f.toNat = 255 → flagGet (getCore s' slot) f.toNat = 255 ∧
          csrGet (getCore s' slot) 0x8064 = 0x80000000 ||| f.setWidth 32)) ∧
    (∀ d e gen, m = .credit d e gen →
      ∃ s', exec (.creditReturn i) s = .next s' ∧
        tget creditDefault (getCore s' slot).credit e =
          (if tget genDefault core.gen e = gen then tget creditDefault core.credit e + 1
           else tget creditDefault core.credit e) ∧ s'.msgs = s0.msgs) ∧
    (∀ d letter, m = .dead d letter → core.dlq.length < 8 → (csrGet core 0x7000).getLsbD 14 = false →
      ∃ s', exec (.deadLetterReturn i) s = .next s' ∧ (getCore s' slot).dlq = core.dlq ++ [letter] ∧
        tget closedDefault (getCore s' slot).chClosed letter.origin.toNat =
          (tget closedDefault core.chClosed letter.origin.toNat ||
            (decide (letter.kind = 0 ∨ letter.kind = 1) && decide (letter.status ∈ [2#8, 3, 4]))) ∧ s'.msgs = s0.msgs)

/-- R327 to R329: a dispatch enters the handler through its queue's gate, with the thread's registers in the shadow; PRET
gives them back and returns through the gate link. -/
def Claim.DispatchAndReturn : Prop :=
  ∀ (s : State) (n : Nat) (slot : Nat) (q : Fin 4) (e : QEntry) (rest : List QEntry) (code data : Cap),
    slotOf s (.core n) = some slot → (getCore s slot).held = false →
    let core := getCore s slot
    let h := handlerOf core
    let th := getTh s slot h
    (dispatchable s slot = true → nextQueue core = some q → core.queues[q] = e :: rest → (∀ d v x, e.org ≠ some (.far d v x)) →
      th.glink.length < 4 → tileBeforeCommit s slot h = none →
      gateGet core ((csrGet core (0x7010 + 4 * q.val)).extractLsb' 8 3).toNat = some (code, data) →
      let pc := if th.st = .waiting ∧ th.wait = some .event then th.pc + 4 else th.pc
      ∃ s', exec (.postDispatch n) s = .next s' ∧
        s' = { s with
          cores := s'.cores, msgs := s.msgs ++ (match e.org with
            | some (.here c k g) => [.credit c k g]
            | _ => []) } ∧
        getTh s' slot h =
          { withAcc th (BitVec.ofNat 32 q.val) with
            recvd := e.desc, glink := th.glink ++ [({ th.pcc with cursor := pc }, th.ddc)], pcc := { code with otype := 0 },
            ddc := { data with otype := 0 }, pc := code.cursor, st := .running, wait := none } ∧
        (getCore s' slot).shadow = ⟨th.acc, th.acg, th.ix, th.iy, th.flags⟩ ∧ (getCore s' slot).pdActive = true ∧
        (getCore s' slot).pdThread = h ∧
        (getCore s' slot).queues = core.queues.set q rest ∧
        (∀ u, u ≠ h → getTh s' slot u = getTh s slot u) ∧ (∀ j, j ≠ slot → getCore s' j = getCore s j)) ∧
    (∀ older p d, Ready s (.core n) h slot → core.pdActive = true → core.pdThread = h → th.pcc.perms &&& 0x0400 = 0x0400 →
      th.glink = older ++ [(p, d)] →
      let sh := core.shadow
      RunsToCore s (.pret n h) slot h
        { coreModTh core h (fun th =>
            { th with
              acc := sh.acc, acg := sh.acg, ix := sh.ix, iy := sh.iy, flags := sh.flags, pcc := p, ddc := d, pc := p.cursor,
              glink := older }) with
          pdActive := false })

/-- R318, R331, R333, R346: a bound entry has its initial credit and is open; closing a queue returns its descriptors with
status 0x02; a pop removes the oldest dead letter. -/
def Claim.PostRegisters : Prop :=
  ∀ (s : State) (n : Nat) (slot : Nat) (e : BitVec 5) (q : Fin 4) (v : Word), slotOf s (.core n) = some slot →
    (getCore s slot).held = false →
    let core := getCore s slot
    let init := max 1 (min 16 (v.extractLsb' 0 5).toNat)
    (∃ s', exec (.chtHiWrite n e v) s = .next s' ∧ s' = { s with cores := s'.cores } ∧
      (∀ k, tget creditDefault (getCore s' slot).credit k =
        if k = e.toNat then BitVec.ofNat 5 init else tget creditDefault core.credit k) ∧
      (∀ k, tget closedDefault (getCore s' slot).chClosed k =
        if k = e.toNat then false else tget closedDefault core.chClosed k) ∧
      tget genDefault (getCore s' slot).gen e.toNat = tget genDefault core.gen e.toNat + 1 ∧
      ∀ u, getTh s' slot u = getTh s slot u) ∧
    ((csrGet core (0x7010 + 4 * q.val)).getLsbD 31 = true → v.getLsbD 31 = false →
      (∀ x ∈ core.queues[q], ∃ c k g, x.org = some (.here c k g)) →
      ∃ s', exec (.postQueueClose n q v) s = .next s' ∧ (getCore s' slot).queues[q] = [] ∧
        (csrGet (getCore s' slot) (0x7010 + 4 * q.val)).getLsbD 31 = false ∧
        s'.msgs = s.msgs ++ core.queues[q].filterMap (fun x => match x.org with
          | some (.here c k _) => some (.dead c ⟨x.desc, 0x02, 0, BitVec.ofNat 6 k⟩)
          | _ => none)) ∧
    exec (.dlqPop n) s = .next (modCore s slot fun c => { c with dlq := c.dlq.drop 1 })

/-! ### Barriers (R144, R339 to R341) -/

/-- R340: BAR, BARV and BWAIT on a network of which the core is a member, with another member still to arrive: BAR arrives and
waits, BARV arrives and goes on, BWAIT waits if the core has arrived and else goes on. On any other network BAR_ERR is set. -/
def Claim.BarrierInstructions : Prop :=
  ∀ (s : State) (n : Nat) (t : Fin 4) (slot : Nat) (net : BitVec 4) (other : Nat), Ready s (.core n) t slot →
    let core := getCore s slot
    let th := getTh s slot t
    let arrived (c : Core) : Core := { c with barArr := c.barArr ||| 1#16 <<< net.toNat }
    let waits (th : Thread) : Thread :=
      { th with st := if th.st = .escalation then .escalation else .waiting, wait := some (.barrier net), waitFrom := clockOf s slot }
    th.pcc.perms &&& 0x0800 = 0x0800 →
    (isMember core net.toNat = true → other ≠ slot → other ∈ barMembers s net.toNat →
      (getCore s other).barArr.getLsbD net.toNat = false → th.pend = [] →
      RunsToCore s (.bar n t net) slot t (arrived (coreModTh core t waits)) ∧
      RunsToCore s (.barv n t net) slot t (arrived (coreModTh core t nextPc))) ∧
    (isMember core net.toNat = true →
      (core.barArr.getLsbD net.toNat = true → RunsTo s (.bwait n t net) slot t (waits th)) ∧
      (core.barArr.getLsbD net.toNat = false → RunsTo s (.bwait n t net) slot t (nextPc th))) ∧
    (isMember core net.toNat = false → ∀ i ∈ [Instr.bar n t net, .barv n t net, .bwait n t net],
      RunsToCore s i slot t (csrSet (coreModTh core t nextPc) 0x8088 (0x80000000 ||| net.setWidth 32)))

/-- R340, R341: the arrival of the last member makes the release due, and the release frees the threads that wait on the
network in every core that is awake and clears the arrivals. -/
def Claim.BarrierRelease : Prop :=
  ∀ (s : State) (net : BitVec 4),
    (∀ (n : Nat) (slot : Nat), slotOf s (.core n) = some slot → (getCore s slot).held = false →
      isMember (getCore s slot) net.toNat = true → (getCore s slot).barArr.getLsbD net.toNat = false →
      spans s net.toNat = false → slot ∈ barMembers s net.toNat →
      (∀ m ∈ barMembers s net.toNat, m ≠ slot → (getCore s m).barArr.getLsbD net.toNat = true) →
      ∃ s', exec (.dbgBarrierArrive n net) s = .next s' ∧ s'.barDue = s.barDue ||| 1#16 <<< net.toNat ∧
        (getCore s' slot).barArr = (getCore s slot).barArr ||| 1#16 <<< net.toNat ∧
        (∀ u, getTh s' slot u = getTh s slot u) ∧ (∀ j, j ≠ slot → getCore s' j = getCore s j)) ∧
    (s.barDue.getLsbD net.toNat = true →
      (∀ p ∈ s.coreSite, ∀ x, p.2 = some x → asleep s (clusterOf x) = false) →
      ∃ s', exec (.barrierRelease net) s = .next s' ∧ s'.barDue = s.barDue &&& ~~~(1#16 <<< net.toNat) ∧
        s' = { s with cores := s'.cores, barDue := s'.barDue } ∧
        ∀ x, getCore s' x =
          if some x ∈ s.coreSite.map (·.2) then
            { getCore s x with
              barArr := (getCore s x).barArr &&& ~~~(1#16 <<< net.toNat),
              th := (getCore s x).th.map fun th =>
                if (th.st = .waiting ∨ th.st = .escalation) ∧ th.wait = some (.barrier net) then
                  { th with
                    st := if th.st = .escalation then .escalation else .running, wait := none, pc := th.pc + 4 }
                else th }
          else getCore s x)

/-- R143, R144, R341: the debug writes of a flag and of a barrier arrival, and a store of the membership that completes no
episode. -/
def Claim.DebugFlagsAndMembership : Prop :=
  ∀ (s : State) (n slot : Nat) (f : BitVec 6) (x : BitVec 8) (net : BitVec 4) (v : Word),
    slotOf s (.core n) = some slot → (getCore s slot).held = false →
    let core := getCore s slot
    ((∀ u : Fin 4, core.th[u].wait ≠ some (.flag f)) →
      ∃ s', exec (.dbgFlagWrite n f x) s = .next s' ∧ s' = { reached s slot with cores := s'.cores } ∧
        getCore s' slot =
          { core with flags := tset flagDefault core.flags f.toNat x, csr := (getCore s' slot).csr } ∧
        (∀ o, o ≠ 0x9010 → csrGet (getCore s' slot) o = csrGet core o) ∧ (∀ j, j ≠ slot → getCore s' j = getCore s j)) ∧
    (s.barDue.getLsbD net.toNat = false → spans s net.toNat = false →
      ∃ s', exec (.dbgBarrierWithdraw n net) s = .next s' ∧ s' = { reached s slot with cores := s'.cores } ∧
        (getCore s' slot).barArr = core.barArr &&& ~~~(1#16 <<< net.toNat) ∧
        (∀ u, getTh s' slot u = getTh s slot u) ∧ (∀ j, j ≠ slot → getCore s' j = getCore s j)) ∧
    ((∀ k, k < 16 → ∃ m, m ≠ slot ∧ m ∈ barMembers s k ∧ (getCore s m).barArr.getLsbD k = false) →
      exec (.barMembWrite n v) s = .next (modCore s slot fun c => csrSet c 0x8080 (v &&& 0xFFFF)))

/-! ### Mesh routes (R273 to R279, R344, R608) -/

/-- R273, R275, R276, R277, R344: a write of a route's settings discards its open round; RSEND records the own contribution;
a FLAGS_ONLY route signals each of its cores; and the result of a closed round, its contributions added in the tree over
logical cores, stands at the root with its descriptor in the root's queue. That a closed round not yet released is
discarded too is the model's choice (log entry 160). -/
def Claim.MeshRoutes : Prop :=
  ∀ (s : State) (r : BitVec 6),
    (∀ (reg : BitVec 2) (v : Word), dark s = false → ∃ s', exec (.mrouteWrite r reg v) s = .next s' ∧
      tget roundDefault s'.rounds r.toNat = (if reg.toNat < 3 then none else tget roundDefault s.rounds r.toNat) ∧
      (reg.toNat < 3 → devGet s' (0x78000 + 16 * r.toNat + 4 * reg.toNat) =
        (devReg (0x78000 + 16 * r.toNat + 4 * reg.toNat)).write
          (devGet s (0x78000 + 16 * r.toNat + 4 * reg.toNat)) v) ∧
      s'.cores = s.cores) ∧
    (∀ (n : Nat) (t : Fin 4) (slot : Nat), Ready s (.core n) t slot → logicalOf s slot = some n → slot < 576 →
      let th := getTh s slot t
      let ix := th.ix.toNat
      let bytes := mrBytes s r.toNat
      let round := (tget roundDefault s.rounds r.toNat).getD ⟨[], false⟩
      th.pcc.perms &&& 0x0400 = 0x0400 → t ≠ handlerOf (getCore s slot) → capCheck th.ddc ix bytes pLOAD = none →
      ix % 64 = 0 → ix + bytes ≤ 0x80000 → Clean (getCore s slot).mem ix bytes → tileHolds s slot ix bytes false = false →
      mrClass s r.toNat = 1 →
      mrHasMembers s r.toNat = true → mrMember s r.toNat n = true → (∀ p ∈ round.parts, p.1 ≠ n) →
      ∃ s', exec (.rsend n t r) s = .next s' ∧ getTh s' slot t = stepDone (nextPc th) ∧
        tget roundDefault s'.rounds r.toNat = some
          { round with parts := round.parts ++ [(n, contribution s r.toNat (memBytes (getCore s slot).mem ix bytes))] } ∧
        SameBytes s s' ∧ (∀ j, j ≠ slot → getCore s' j = getCore s j) ∧ s'.msgs = s.msgs) ∧
    (∀ (n : Nat) (t : Fin 4) (slot : Nat) (sc : BitVec 3), Ready s (.core n) t slot → logicalOf s slot = some n →
      let th := getTh s slot t
      let f : BitVec 6 := (mrDest s r.toNat).extractLsb' 0 6
      sc.toNat < 6 → th.pcc.perms &&& 0x0800 = 0x0800 → scopeFault (getCore s slot) f sc = none → th.pend = [] →
      mrClass s r.toNat = 2 → mrHasMembers s r.toNat = true →
      ∃ s', exec (.fsig n t 2 r sc 0) s = .next s' ∧ getTh s' slot t = stepDone (nextPc th) ∧
        s'.msgs = s.msgs ++
          (upFrom (mrLo s r.toNat) (mrHi s r.toNat + 1 - mrLo s r.toNat)).map (fun c => .routed c f) ∧ SameBytes s s') ∧
    (∀ (round : Round) (slot : Nat), tget roundDefault s.rounds r.toNat = some round → mrClass s r.toNat = 1 →
      mrHasMembers s r.toNat = true → roundFull s r.toNat round = true → siteOf s (mrRoot s r.toNat) = some slot →
      asleep s (clusterOf slot) = false → coreServes s slot = true → treesOf s r.toNat = [] → round.poison = false →
      let ws := (roundResult s r.toNat round).map (·.1)
      let dest := mrDest s r.toNat
      let a := (dest.extractLsb' 6 13).toNat * 64
      let q : Fin 4 := Fin.ofNat 4 (dest.extractLsb' 28 2).toNat
      queueRefuses (getCore s slot) q = none → 0 < ws.length →
      ∃ s', exec (.reductionRelease r) s = .next s' ∧ tget roundDefault s'.rounds r.toNat = none ∧
        memBytes (getCore s' slot).mem a (4 * ws.length) = ws.flatMap (fun w => leBytes 4 w.toNat) ∧
        (∀ x, x < a ∨ a + 4 * ws.length ≤ x → memByte (getCore s' slot).mem x = memByte (getCore s slot).mem x) ∧
        (getCore s' slot).queues[q] = (getCore s slot).queues[q] ++
          [⟨0#32 ++ BitVec.ofNat 32 r.toNat ++ BitVec.ofNat 32 (4 * ws.length) ++ BitVec.ofNat 32 a, none⟩] ∧
        s'.msgs = s.msgs ∧ (∀ j, j ≠ slot → getCore s' j = getCore s j))

/-- R275: the sum of four contributions is the sum of the sums of its pairs, and of three the third added to the sum of the
first two. -/
def Claim.ReductionTree : Prop :=
  ∀ (isInt strict : Bool) (a b c d : List Word),
    let up (l : List Word) : List (Word × Ev) := l.map fun w => (w, Ev.none)
    let add := reduceAddAll isInt strict
    reduceTree isInt strict 10 [up a, up b, up c, up d] = add (add (up a) (up b)) (add (up c) (up d)) ∧
    reduceTree isInt strict 10 [up a, up b, up c] = add (add (up a) (up b)) (up c) ∧
    reduceTree isInt strict 10 [up a] = up a

/-! ### Numeric settings and the vector unit (R168 to R202) -/

/-- R176, R177, R180 to R182: the numeric settings. With nothing in flight a store takes effect at once, and a zero seed
becomes the reset value; with a vector instruction in flight the storing thread waits; and the settings apply once nothing
is in flight. -/
def Claim.NumericSettings : Prop :=
  ∀ (s : State) (n slot : Nat) (t : Fin 4) (v : Word), slotOf s (.core n) = some slot → (getCore s slot).held = false →
    let core := getCore s slot
    let seed : BitVec 64 := v ++ core.seedLo
    let becomes (i : Instr) (c : Core) : Prop := ∃ s', exec i s = .next s' ∧ getCore s' slot = c ∧
      s' = { s with cores := s'.cores } ∧ ∀ j, j ≠ slot → getCore s' j = getCore s j
    becomes (.numSeedLoWrite n v) { core with seedLo := v } ∧
    (core.vq = [] → core.tq = [] → core.numPend = [] →
      becomes (.numericCtlWrite n .window v) (csrSet core 0x3000 (v &&& 7)) ∧
      becomes (.numSeedHiWrite n .window v)
        { core with
          seed := if seed = 0 then 0x9E3779B97F4A7C15 else seed, th := core.th.map fun th => { th with kept := none } } ∧
      (Ready s (.core n) t slot → checkCsr core.th[t] core.th[t].ddc 0x00103000 4 pSTORE = none →
        RunsToCore s (.numericCtlWrite n (.thread t) v) slot t
          (csrSet (csrSet (coreModTh core t nextPc) 0x3008 1) 0x3000 (v &&& 7)))) ∧
    (core.vq ≠ [] → Ready s (.core n) t slot → checkCsr core.th[t] core.th[t].ddc 0x00103000 4 pSTORE = none →
      RunsToCore s (.numericCtlWrite n (.thread t) v) slot t
        { csrSet (coreModTh core t fun th => { nextPc th with block := some .settings }) 0x3008 1 with
          numPend := core.numPend ++ [⟨.thread t, 0x3000, v.setWidth 64, 0⟩] }) ∧
    (core.vq = [] → core.tq = [] → core.numPend = [⟨.thread t, 0x3000, v.setWidth 64, 0⟩] →
      becomes (.numericSettingsApply n)
        { csrSet (coreModTh core t fun th => { th with block := none }) 0x3000 (v &&& 7) with numPend := [] })

/-- R164, R189 to R191: each lane of an element-wise operation is the exact result of its elements, rounded once in the mode
in effect, and the lanes above are zero. -/
def Claim.VectorArithmetic : Prop :=
  ∀ (s : State) (n slot : Nat) (t : Fin 4) (vd va vb fa fb fd : BitVec 4), Ready s (.core n) t slot →
    let core := getCore s slot
    let l := min (lanesOf fa) (min (lanesOf fb) (lanesOf fd))
    let a := velem core va fa
    let b := velem core vb fb
    let d := velem core vd fd
    core.numPend = [] → vFree core va → vFree core vb → vFree core vd → vvalOk core va fa = true →
    vvalOk core vb fb = true → vvalOk core vd fd = true → vscaled core vd = false →
    ∀ i g, (i, g) ∈
      [(Instr.vadd n t vd va vb fa fb fd, fun j => addF (a j) (b j)),
       (Instr.vsub n t vd va vb fa fb fd, fun j => addF (a j) (negF (b j))),
       (Instr.vmul n t vd va vb fa fb fd, fun j => mulF (a j) (b j)),
       (Instr.vmin n t vd va vb fa fb fd, fun j => minF (a j) (b j)),
       (Instr.vmax n t vd va vb fa fb fd, fun j => maxF (a j) (b j)),
       (Instr.vmac n t vd va vb fa fb fd, fun j => addF (d j) (mulF (a j) (b j)))] ++
        (if fmtFloat fd then [(Instr.vdiv n t vd va vb fa fb fd, fun j => divF (a j) (b j))] else []) →
      VecIssues s i slot t id fun op => op.cls = 0 ∧ op.scale = none ∧
        ∃ x, op.vd = some (vd, x) ∧ Lanes fd x l fun j => (roundTo (coreMode core) fd (g j)).code

/-- R192 to R195: compares, logic, selection, counts, permutes and splats, bit for bit. -/
def Claim.VectorBits : Prop :=
  ∀ (s : State) (n slot : Nat) (t : Fin 4) (vd va vb fa fb fd : BitVec 4), Ready s (.core n) t slot →
    let core := getCore s slot
    let acc := (getTh s slot t).acc
    core.numPend = [] → vFree core va → vFree core vb → vFree core 0 →
    let gives (i : Instr) (p : BitVec 512 → Prop) : Prop :=
      VecIssues s i slot t id fun op => op.cls = 0 ∧ op.scale = none ∧ ∃ x, op.vd = some (vd, x) ∧ p x
    gives (.vand n t vd va vb) (· = vreg core va &&& vreg core vb) ∧
    gives (.vor n t vd va vb) (· = vreg core va ||| vreg core vb) ∧
    gives (.vxor n t vd va vb) (· = vreg core va ^^^ vreg core vb) ∧
    (fd = 12 ∨ fd = 8 → gives (.vpopc n t vd va fd) fun x => Lanes fd x (lanesOf fd) fun j =>
      (List.range (fmtWidth fd)).countP fun k => (vreg core va).getLsbD (fmtWidth fd * j + k)) ∧
    (∀ cc : BitVec 4, cc.toNat ≤ 6 → vvalOk core va fa = true → vvalOk core vb fb = true →
      gives (.vcmp n t vd va vb fa fb cc) fun x => ∀ j, x.getLsbD j =
        (decide (j < min (lanesOf fa) (lanesOf fb)) && cmpHolds cc (velem core va fa j) (velem core vb fb j))) ∧
    (vvalOk core va fd = true → vvalOk core vb fd = true → vvalOk core vd fd = true →
      vscaled core va = vscaled core vb → vscaled core va = vscaled core vd →
      gives (.vsel n t vd va vb fd) fun x => Lanes fd x (lanesOf fd) fun j =>
        elemOf fd (vreg core (if (vreg core 0).getLsbD j then va else vb)).toNat j) ∧
    (vfmtOk core fa = true → 8 ≤ fmtWidth fa →
      gives (.vperm n t vd va vb fa) fun x => Lanes fa x (lanesOf fa) fun j =>
        let k := (vreg core vb).toNat / 256 ^ j % 256
        if 128 ≤ k then 0 else elemOf fa (vreg core va).toNat (k % lanesOf fa)) ∧
    (vfmtOk core fd = true →
      gives (.vsplat n t vd fd) fun x => Lanes fd x (lanesOf fd) fun _ => elemOf fd acc.toNat 0)

/-- R161, R194, R196: a reduction leaves its one element in lane 0: the sum of all terms rounded once, the largest or the
smallest; VCVT to as many or fewer lanes rounds each element of its part; VGET gives ACC an element's bits. -/
def Claim.VectorReductions : Prop :=
  ∀ (s : State) (n slot : Nat) (t : Fin 4) (vd va vb fa fb fd part : BitVec 4), Ready s (.core n) t slot →
    let core := getCore s slot
    let th := getTh s slot t
    core.numPend = [] → vFree core va → vFree core vb → vFree core vd → vvalOk core va fa = true →
    vvalOk core vd fd = true → vscaled core vd = false →
    let l := lanesOf fa
    let terms := velems core va fa l
    let dots := ((velems core va fa (min l (lanesOf fb))).zip (velems core vb fb (min l (lanesOf fb)))).map
      fun p => mulF p.1 p.2
    let first (v : FVal) : BitVec 512 → Prop := fun x => Lanes fd x 1 fun _ => (roundTo (coreMode core) fd v).code
    let gives (i : Instr) (cls : Nat) (p : BitVec 512 → Prop) : Prop :=
      VecIssues s i slot t id fun op => op.cls = cls ∧ ∃ x, op.vd = some (vd, x) ∧ p x
    (coreMode core ≠ .guist →
      gives (.vrsum n t vd va fa fd) 0 (first (sumF terms)) ∧
      (vvalOk core vb fb = true → gives (.vrdot n t vd va vb fa fb fd) 0 (first (sumF (velem core vd fd 0 :: dots))))) ∧
    gives (.vrmax n t vd va fa fd) 0 (first (terms.tail.foldl maxF (terms.headD (velem core va fa 0)))) ∧
    gives (.vrmin n t vd va fa fd) 0 (first (terms.tail.foldl minF (terms.headD (velem core va fa 0)))) ∧
    (lanesOf fd ≤ l → l / lanesOf fd ≤ 16 → part.toNat < l / lanesOf fd →
      gives (.vcvt n t vd va fa part fd) 1 fun x => Lanes fd x (lanesOf fd) fun j =>
        (roundTo (coreMode core) fd (velem core va fa (part.toNat * lanesOf fd + j))).code) ∧
    (∃ fl, SetsZN th.flags fl (BitVec.ofNat 32 (elemOf fa (vreg core va).toNat (th.ix.toNat % l))) ∧
      VecIssues s (.vget n t va fa) slot t
        (fun th => { withAcc th (BitVec.ofNat 32 (elemOf fa (vreg core va).toNat (th.ix.toNat % l))) with flags := fl })
        fun op => op.vd = none)

/-- R175, R176: VLSUM adds each element to its sum and rounds it by one draw of the generator, which moves on by as many draws
as there are elements; an instruction issued again after a fault takes its kept draws, and the generator stays. -/
def Claim.LongSums : Prop :=
  ∀ (s : State) (n slot : Nat) (t : Fin 4) (vd va fa fd : BitVec 4), Ready s (.core n) t slot →
    let core := getCore s slot
    let th := core.th[t]
    let l := min (lanesOf fa) (lanesOf fd)
    let i : Instr := .vlsum n t vd va fa fd
    core.numPend = [] → vFree core va → vFree core vd → vvalOk core va fa = true → vvalOk core vd fd = true →
    vscaled core vd = false → coreMode core ≠ .guist →
    ∀ start after, ((∀ x, th.kept ≠ some ⟨th.pc, i, x⟩) ∧ start = core.seed ∧ after = (drawList l core.seed).2) ∨
        (th.kept = some ⟨th.pc, i, start⟩ ∧ after = core.seed) →
      ∃ s' op x, exec i s = .next s' ∧ op.t = t ∧ op.cls = 2 ∧ op.kept = some ⟨th.pc, i, start⟩ ∧
        op.vd = some (vd, x) ∧
        Lanes fd x l (fun j => (roundLsum (coreMode core) fd ((drawList l start).1.getD j 0)
          (addF (velem core vd fd j) (velem core va fa j))).code) ∧
        OnlyCore s s' slot
          { coreModTh core t (fun th => stepDone
              { nextPc th with
                kept := none, block := if (csrGet core 0x3000).getLsbD 2 then some .nanWait else th.block }) with
            vq := core.vq ++ [op], seed := after }

/-- R197 to R199: VLD and VST through a handle on local memory: 64 bytes at the handle's base and offset, and nothing else of
memory. -/
def Claim.VectorMemory : Prop :=
  ∀ (s : State) (n slot : Nat) (t : Fin 4) (vd : BitVec 4) (h : BitVec 6) (x : Bool) (off : BitVec 13) (a : Nat),
    Ready s (.core n) t slot →
    let core := getCore s slot
    let o := off.toNat * 64 + (if x then core.th[t].ix.toNat else 0)
    core.numPend = [] → core.rebind = none → core.tq = [] → vFree core vd →
    (localHandle core 0 h.toNat false 64 o 64 = .ok a → Clean core.mem a 64 →
      VecIssues s (.vld n t vd h x off) slot t id fun op =>
        op.cls = 0 ∧ op.vd = some (vd, BitVec.ofNat 512 (memNat core.mem a 64))) ∧
    (localHandle core 0 h.toNat true 64 o 64 = .ok a →
      ∃ s' op, exec (.vst n t vd h x off) s = .next s' ∧ op.vd = none ∧
        getCore s' slot =
          { coreModTh core t (fun th => stepDone
              { nextPc th with block := if (csrGet core 0x3000).getLsbD 2 then some .nanWait else th.block }) with
            vq := core.vq ++ [op], mem := (getCore s' slot).mem, orphanRaised := false } ∧
        memBytes (getCore s' slot).mem a 64 = leBytes 64 (vreg core vd).toNat ∧
        (∀ y, y < a ∨ a + 64 ≤ y → memByte (getCore s' slot).mem y = memByte core.mem y) ∧
        (∀ j, j ≠ slot → getCore s' j = getCore s j))

/-- R168 to R170, R186, R202: the oldest vector instruction retires: its register and scale word take their values, the
counters of its class and the exception flags rise; a NaN under NANTRAP writes nothing and faults its thread at its own PC.
A store of a scale word takes effect at once when nothing is in flight. -/
def Claim.VectorRetires : Prop :=
  ∀ (s : State) (n slot : Nat) (o : VecOp) (rest : List VecOp) (k : BitVec 5) (v : Word),
    slotOf s (.core n) = some slot → (getCore s slot).held = false →
    let core := getCore s slot
    (core.vq = o :: rest → core.vscalePend = [] → (o.trap = false ∨ o.nanEl = none) →
      let c := 0x3100 + 16 * o.cls
      ∃ s', exec (.vectorRetire n) s = .next s' ∧ (getCore s' slot).vq = rest ∧
        (∀ d, vreg (getCore s' slot) d = (match o.vd with
          | some (e, x) => if d = e then x else vreg core d
          | none => vreg core d)) ∧
        (o.cls < 4 → o.scale = none → ∀ j w, (j, w) ∈
          [(c, min 0xFFFFFFFF ((csrGet core c).toNat + o.sat)), (c + 4, min 0xFFFFFFFF ((csrGet core (c + 4)).toNat + o.flush)),
           (c + 8, min 0xFFFFFFFF ((csrGet core (c + 8)).toNat + o.nan)),
           (0x3004, (csrGet core 0x3004 ||| o.flags.setWidth 32).toNat)] → (csrGet (getCore s' slot) j).toNat = w) ∧
        s' = { s with cores := s'.cores, setNow := s'.setNow } ∧ (∀ j, j ≠ slot → getCore s' j = getCore s j)) ∧
    (∀ e, core.vq = o :: rest → core.vscalePend = [] → o.trap = true → o.nanEl = some e →
      ∃ s0, exec (.vectorRetire n) s =
          .next (takeFault s0 slot o.t ⟨0x12, 0, BitVec.ofNat 32 (o.cls * 2 ^ 24 + e)⟩) ∧
        (getCore s0 slot).vregs = core.vregs ∧ (getCore s0 slot).csr = core.csr ∧ (getTh s0 slot o.t).pc = o.pc ∧
        (getCore s0 slot).vq = rest ∧ SameBytes s s0) ∧
    (core.vq = [] → exec (.vscaleWrite n .window k v) s = .next (modCore s slot fun c =>
      csrSet c (if k.toNat < 16 then 0x4C00 + 4 * k.toNat else 0x4C40)
        ((coreReg (if k.toNat < 16 then 0x4C00 + 4 * k.toNat else 0x4C40)).write 0 v)))

/-! ### The tile engine (R205 to R237) -/

/-- R212 to R214, R219 to R225, R228 to R230, R233, R235: a tile instruction whose checks pass and which nothing in flight
holds enters its pipe with its occupancy and latency (of the mode of fast arithmetic), and its thread goes on. -/
def Claim.TileIssues : Prop :=
  ∀ (s : State) (n slot : Nat) (t : Fin 4) (a : BitVec 2) (x y : BitVec 3) (int half xi tr : Bool) (dp fs : BitVec 4)
    (eb : BitVec 8) (h : BitVec 6) (off : BitVec 9) (m : Nat), Ready s (.core n) t slot →
    let core := getCore s slot
    let th := core.th[t]
    let o := off.toNat * 64 + (if xi then th.ix.toNat else 0)
    let b := imageSize core x.toNat fs tr
    let accB := 32 * pitch fs 32
    let ready (writes : Bool) (size : Nat) : Prop :=
      localHandle core 1 h.toNat writes 64 o size = .ok m ∧ (writes = false → Clean core.mem m size)
    let issues (i : Instr) (matrix : Bool) (occ lat cls : Nat) (p : TileOp → Prop) : Prop :=
      ∃ s' op, exec i s = .next s' ∧ p op ∧ op.t = t ∧ op.pc = th.pc ∧ op.isMatrix = matrix ∧ op.issued = clockOf s slot ∧
        op.occ = occ ∧ op.lat = lat ∧ op.cls = cls ∧
        OnlyCore s s' slot
          { coreModTh core t (fun th =>
              { nextPc th with
                block := if (csrGet core 0x3000).getLsbD 2 then some .nanWait else th.block
                stopReq := th.stopReq || th.stepping }) with
            tq := core.tq ++ [op] }
    th.pcc.perms &&& 0x4000 = 0x4000 → core.numPend = [] → core.tcfgPend = [] → core.tq = [] → core.rebind = none →
    coreMode core = .fast → (∀ role k, ownFault core t role k = none) →
    (mmaShape a.toNat x.toNat y.toNat core = none →
      issues (.mma n t a x y) true (tRows core x.toNat) (tRows core x.toNat + 8) 3 fun op =>
        op.writes = [8 + a.toNat] ∧ ∀ i j, i < tRows core x.toNat → j < tRows core y.toNat → j < 32 →
          op.atw.find? (fun p => p.1 == 1024 * a.toNat + 32 * i + j) = some (1024 * a.toNat + 32 * i + j,
            BitVec.ofNat 32 (mmaElem .fast (atFmt core a.toNat) (atVal core a.toNat i j)
              (ttVals core x.toNat i (tCols core x.toNat)) (ttVals core y.toNat j (tCols core x.toNat))).code)) ∧
    issues (.tzero n t a int) false 1 2 0 (fun op =>
      op.atType = some (a.toNat, int) ∧ op.atw = (upFrom (1024 * a.toNat) 1024).map fun k => (k, 0)) ∧
    (taccShape x.toNat half dp.toNat core = none →
      issues (.taccTile n t x a half dp) false 8 11 5 fun op => op.writes = [x.toNat]) ∧
    (tupdShape x.toNat a.toNat half dp.toNat core = none →
      issues (.tupd n t x a half dp eb) true 8 16 6 fun op => op.writes = [x.toNat]) ∧
    (fmtReserved fs = false → tileBad core 0 x.toNat = none →
      (ready false b → issues (.tld n t x h xi off fs tr) false (max 8 ((b + 255) / 256)) (max 8 ((b + 255) / 256) + 3) 4
        fun op => op.writes = [x.toNat] ∧ op.span = some (m, b) ∧ op.spanWrite = false ∧ op.poison = none) ∧
      (ready true b → issues (.tst n t x h xi off fs tr) false (max 8 ((b + 255) / 256)) (max 8 ((b + 255) / 256) + 3) 5
        fun op => op.reads = [x.toNat] ∧ op.span = some (m, b) ∧ op.spanWrite = true ∧ op.memw.length = b)) ∧
    (tileBad core 0 x.toNat = none →
      (ready false 128 → issues (.tlds n t x h xi off) false 1 4 4 fun op =>
        op.scw = (upFrom (128 * x.toNat) 128).zip (memBytes core.mem m 128)) ∧
      (ready true 128 → issues (.tsts n t x h xi off) false 1 4 5 fun op =>
        op.memw = (upFrom (128 * x.toNat) 128).map (tget tscaleDefault core.tscale) ∧ op.span = some (m, 128))) ∧
    (fmtReserved fs = false → ready true accB →
      issues (.taccMem n t a h xi off fs tr) false (max 8 ((accB + 255) / 256)) (max 8 ((accB + 255) / 256) + 3) 5
        fun op => op.reads = [8 + a.toNat] ∧ op.span = some (m, accB) ∧ op.spanWrite = true) ∧
    (th.kept = none → tupdShape x.toNat a.toNat half dp.toNat core = none →
      ∃ s' op, exec (.tlsum n t x a half dp eb) s = .next s' ∧ op.t = t ∧ op.cls = 7 ∧ op.occ = 8 ∧ op.lat = 16 ∧
        op.writes = [x.toNat] ∧ (getCore s' slot).tq = [op] ∧ (getTh s' slot t).pc = th.pc + 4 ∧
        (getCore s' slot).seed = (drawList (tRows core x.toNat * blockW core x.toNat) core.seed).2) ∧
    RunsTo s (.tfence n t) slot t (nextPc th)

/-- R211, R214, R216, R218: a tile instruction that has reached its result-ready cycle retires: its tile bytes, scales,
accumulator words and stored bytes become visible, and nothing else of memory changes; before that cycle nothing happens. A
store of the tile configuration takes effect with nothing in flight. -/
def Claim.TileRetires : Prop :=
  ∀ (s : State) (n slot : Nat) (o : TileOp) (reg : BitVec 4) (v : Word), slotOf s (.core n) = some slot →
    (getCore s slot).held = false →
    let core := getCore s slot
    (core.tq = [o] → core.tcfgPend = [] → (∀ u : Fin 4, core.th[u].block ≠ some .tfence) → o.poison = none →
      (o.trap = false ∨ o.nanEl = none) →
      (clockOf s slot < o.issued + o.lat → exec (.tileRetire n o.isMatrix) s = .next s) ∧
      (o.issued + o.lat ≤ clockOf s slot →
        ∃ s', exec (.tileRetire n o.isMatrix) s = .next s' ∧ (getCore s' slot).tq = [] ∧
          (∀ k, tget ttDefault (getCore s' slot).tt k =
            ((o.ttw.filter fun p => p.1 == k).getLast?.map (·.2)).getD (tget ttDefault core.tt k)) ∧
          (∀ k, tget tscaleDefault (getCore s' slot).tscale k =
            ((o.scw.filter fun p => p.1 == k).getLast?.map (·.2)).getD (tget tscaleDefault core.tscale k)) ∧
          (∀ k, tget accDefault (getCore s' slot).accTiles k =
            ((o.atw.filter fun p => p.1 == k).getLast?.map (·.2)).getD (tget accDefault core.accTiles k)) ∧
          (∀ a b, o.span = some (a, b) → o.spanWrite = true →
            memBytes (getCore s' slot).mem a o.memw.length = o.memw ∧
            ∀ y, y < a ∨ a + o.memw.length ≤ y → memByte (getCore s' slot).mem y = memByte core.mem y) ∧
          (o.spanWrite = false → (getCore s' slot).mem = core.mem) ∧ s' = { s with cores := s'.cores, setNow := s'.setNow } ∧
          (∀ j, j ≠ slot → getCore s' j = getCore s j))) ∧
    (core.tq = [] → core.tcfgPend = [] → (∀ u : Fin 4, core.th[u].block ≠ some .tfence) → reg.toNat < 10 →
      let off := if reg.toNat < 8 then 0x4000 + 4 * reg.toNat else if reg.toNat = 8 then 0x4020 else 0x4024
      ∃ s', exec (.tileCfgWrite n .window reg v) s = .next s' ∧
        getCore s' slot = csrSet core off ((coreReg off).write 0 v) ∧ s' = { s with cores := s'.cores } ∧
        (∀ j, j ≠ slot → getCore s' j = getCore s j))

/-! ### Handles, streams, couriers and far reads (R258 to R314) -/

/-- R262, R263: a store to HREBIND takes its descriptors from local memory and completes 8 + 4 COUNT cycles later; then
the handles hold them, or, where one of them is invalid, no handle changes. -/
def Claim.HandleRebind : Prop :=
  ∀ (s : State) (n slot : Nat) (t : Fin 4) (v : Word), slotOf s (.core n) = some slot → slot < 576 →
    (getCore s slot).held = false →
    let core := getCore s slot
    let th := core.th[t]
    let count := (v.extractLsb' 8 7).toNat
    let first := (v.extractLsb' 0 6).toNat
    let a := 16 * (v.extractLsb' 16 15).toNat
    let reads (ds : List (BitVec 128)) : Prop :=
      ds.length = count ∧ ∀ i (h : i < ds.length), ds[i] = BitVec.ofNat 128 (memNat core.mem (a + 16 * i) 16)
    (core.rebind = none → 0 < count → first + count ≤ 64 → a + 16 * count ≤ 0x80000 → Clean core.mem a (16 * count) →
      (∃ s' ds, exec (.hrebind n .window v) s = .next s' ∧ reads ds ∧
        getCore s' slot =
          { core with
            mem := (getCore s' slot).mem, rebind := some ⟨.window, 0, first, a, ds, clockOf s slot + 8 + 4 * count⟩ } ∧
        SameBytes s s' ∧ ∀ j, j ≠ slot → getCore s' j = getCore s j) ∧
      (Ready s (.core n) t slot → checkCsr th th.ddc 0x00105400 4 pSTORE = none →
        capCheck th.ddc a (16 * count) pLOAD = none →
        (∀ i, i < count → descBad (BitVec.ofNat 128 (memNat core.mem (a + 16 * i) 16)) = none) →
        ∃ ds, reads ds ∧ RunsToCore s (.hrebind n (.thread t) v) slot t
          { coreModTh core t (fun th => { nextPc th with block := some .rebind }) with
            rebind := some ⟨.thread t, th.pc, first, a, ds, clockOf s slot + 8 + 4 * count⟩ })) ∧
    (∀ r, core.rebind = some r → r.who = .window →
      ((∀ d ∈ r.descs, descBad d = none) → ∃ m, Becomes s (.handleRebindDone n) slot
          { core with rebind := none, handles := m, rebinds := core.rebinds + 1 } ∧
        ∀ h, tget handleDefault m h =
          if r.first ≤ h ∧ h < r.first + r.descs.length then r.descs.getD (h - r.first) 0 else handleGet core h) ∧
      ((∃ d ∈ r.descs, descBad d ≠ none) → ∃ s', exec (.handleRebindDone n) s = .next s' ∧
        getCore s' slot = { core with rebind := none } ∧ (getCl s' (clusterOf slot)).csrErr = true))

/-- R281, R287, R288, R298, R301: START, STOP, SREL and the program memory of a stream unit. That SREL acts on the half whose
turn it is and is refused while the program owns only the other one is the model's choice (log entry 146). -/
def Claim.StreamControl : Prop :=
  ∀ (s : State) (n slot : Nat) (t u : Fin 4) (entry i : BitVec 6) (count : BitVec 13) (v : Word),
    slotOf s (.core n) = some slot → (getCore s slot).held = false →
    let core := getCore s slot
    let su := core.su[u]
    let unit (x : StreamUnit) : Core := { core with su := core.su.set u x }
    let refused (i : Instr) : Prop := ∃ s', exec i s = .next s' ∧ getCore s' slot = unit { su with err := true } ∧
      s' = { s with cores := s'.cores, setNow := s'.setNow } ∧ ∀ j, j ≠ slot → getCore s' j = getCore s j
    let d := handleGet core ((sctl core u).extractLsb' 8 6).toNat
    let half := su.ringLen / 128
    let started : StreamUnit :=
      { StreamUnit.reset with
        st := .run, ringBase := hBase d, ringLen := hLen d, pc := entry.toNat, held := if isOut core u then 3 else 0,
        last := su.last, err := su.err, fault := su.fault }
    (su.st = .idle ∨ su.st = .fault → ringOk d = true →
      Becomes s (.streamStart n .window u entry) slot (unit started) ∧
      (Ready s (.core n) t slot → checkCsr core.th[t] core.th[t].ddc (0x00106404 + 0x20 * u.val) 4 pSTORE = none →
        RunsToCore s (.streamStart n (.thread t) u entry) slot t
          { coreModTh core t nextPc with su := core.su.set u started })) ∧
    (su.st ≠ .idle → su.st ≠ .fault → ∃ s', exec (.streamStart n .window u entry) s = .next s' ∧
      s' = { modCl s (clusterOf slot) (fun c => { c with csrErr := true }) with setNow := s'.setNow }) ∧
    (su.writes = [] → s.fab.behind = [] → Becomes s (.streamStop n u) slot
      (unit { su with st := .idle, asked := [], met := none, rows := [], left := [], stopping := false })) ∧
    (su.writes ≠ [] → s.fab.behind = [] → Becomes s (.streamStop n u) slot
      (unit { su with st := .waitData, asked := [], met := none, rows := [], left := [], stopping := true })) ∧
    (su.st = .idle ∨ su.st = .fault →
      Becomes s (.sprogWrite n u i v) slot (csrSet core (0x6000 + 0x100 * u.val + 4 * i.toNat) v)) ∧
    (su.st ≠ .idle → su.st ≠ .fault → refused (.sprogWrite n u i v)) ∧
    (su.held.getLsbD su.nextHalf.toNat = false → refused (.srel n .window u count)) ∧
    (su.held.getLsbD su.nextHalf.toNat = true →
      (isOut core u = false → ∃ x, Becomes s (.srel n .window u count) slot (unit x) ∧
        x.held.getLsbD su.nextHalf.toNat = false ∧ x.held.getLsbD (!su.nextHalf).toNat = su.held.getLsbD (!su.nextHalf).toNat ∧
        x.nextHalf = (!su.nextHalf) ∧ countOf x su.nextHalf = 0 ∧ countOf x (!su.nextHalf) = countOf su (!su.nextHalf) ∧
        x.err = su.err) ∧
      (isOut core u = true → half < count.toNat → refused (.srel n .window u count)) ∧
      (isOut core u = true → count.toNat ≤ half → ∃ s' x, exec (.srel n .window u count) s = .next s' ∧
        getCore s' slot = unit x ∧ s' = { s with cores := s'.cores, fab := { s.fab with opNo := s.fab.opNo + 1 } } ∧
        (∀ j, j ≠ slot → getCore s' j = getCore s j) ∧
        let given := if count = 0 then half else count.toNat
        x.held.getLsbD su.nextHalf.toNat = false ∧ x.nextHalf = (!su.nextHalf) ∧
        x.left = su.left ++ [(s.fab.opNo, given)] ∧
        countOf x su.nextHalf = given ∧ countOf x (!su.nextHalf) = countOf su (!su.nextHalf)))

/-- R282, R283: what each control instruction of a stream program does to the sequencer, and where it stands. -/
def Claim.StreamPrograms : Prop :=
  ∀ (c : Core) (w : Bool) (su : StreamUnit) (a : BitVec 26) (l : BitVec 3) (x : BitVec 22) (k : BitVec 16) (n : BitVec 8),
    let next : StreamUnit := { su with pc := su.pc + 1 }
    (∀ ins su', (ins, su') ∈
      [((2#4 ++ 0#2 ++ a : Word), { next with a := a.toNat }), (8#4 ++ 0#2 ++ a, { next with win := a.toNat }),
       (3#4 ++ l ++ 0#3 ++ x, { next with strides := tset strideDefault su.strides l.toNat x })] →
      seqStep c w ins su = .ok su') ∧
    ((∀ y ∈ su.loops, y.level ≠ l.toNat) → seqStep c w (4#4 ++ l ++ 0#9 ++ k) su =
      .ok { next with loops := ⟨l.toNat, 0, k.toNat + 1, su.pc + 1⟩ :: su.loops }) ∧
    (∀ y rest, su.loops = y :: rest → y.level = l.toNat → seqStep c w (5#4 ++ l ++ 0#25) su =
      if y.idx + 1 < y.cnt then .ok { su with loops := { y with idx := y.idx + 1 } :: rest, pc := y.top }
      else .ok { next with loops := rest }) ∧
    ((su.loops = [] ∨ ∃ y rest, su.loops = y :: rest ∧ y.level ≠ l.toNat) →
      seqStep c w (5#4 ++ l ++ 0#25) su = .error (.fault 2)) ∧
    (seqStep c w 0 su = .error .finish ∧ seqStep c w 0x90000000 su = .error .mark ∧
      seqStep c w (7#4 ++ 0#20 ++ n) su = .error .move ∧
      seqStep c w (6#4 ++ 0#20 ++ n) su = .error (if su.far = none then .fault 4 else .move) ∧
      ∀ op : BitVec 4, 10 ≤ op.toNat → seqStep c w (op ++ 0#28) su = .error (.fault 1))

/-- R283, R284, R286, R287, R289 to R293, R297, R299: a stream unit in the middle of a SKIP or XFER. With its half held by the
program it waits for the ring; with room for one unit more it asks for that unit and goes on to the next move or the end of its
program; END and MARK end its run though the ring be full; a row whose units are there arrives, and one whose units are still on
their way waits; an error of the memory faults the unit; a row is written in its stream cycle; an OUT write comes back; no
answer comes in time. That a row's units are read when the row arrives is the model's choice (log entry 125), and so is the form
of an arrival's operand, a count of rows (log entry 121). -/
def Claim.StreamMoves : Prop :=
  ∀ (s : State) (n slot : Nat) (u : Fin 4), slotOf s (.core n) = some slot → (getCore s slot).held = false →
    let core := getCore s slot
    let su := core.su[u]
    let unit (x : StreamUnit) : Core := { core with su := core.su.set u x }
    let word := sprog core u su.pc
    let atMove (op : BitVec 4) : Prop :=
      su.pc < 64 ∧ word.extractLsb' 28 4 = op ∧ word.extractLsb' 8 20 = 0 ∧ su.far ≠ none
    let atAMove (x : StreamUnit) : Prop :=
      x.pc < 64 ∧ ((sprog core u x.pc).extractLsb' 28 4 = 6 ∨ (sprog core u x.pc).extractLsb' 28 4 = 7) ∧
      (sprog core u x.pc).extractLsb' 8 20 = 0 ∧ x.far ≠ none
    let atEnd (x : StreamUnit) : Prop := x.pc < 64 ∧ sprog core u x.pc = 0
    let moves := (word.extractLsb' 0 8).toNat + 1
    let goes : StreamUnit :=
      if su.done + 1 < moves then { su with done := su.done + 1 } else { su with done := 0, pc := su.pc + 1 }
    let room := 4 - su.pos % 4
    (isOut core u = false → su.stopping = false → su.st = .run ∨ su.st = .waitRing ∨ su.st = .waitData → su.rows = [] →
      su.asked = [] → su.met = none →
      (heldHalf su (halfOf su su.pos) = true → atAMove su →
        Becomes s (.streamRunStart n u) slot (unit { su with st := .waitRing })) ∧
      (atEnd su → su.filled = 0 → Becomes s (.streamRunStart n u) slot (unit { su with st := .idle })) ∧
      (su.pc < 64 → word = 0x90000000 → su.filled = 0 →
        Becomes s (.streamRunStart n u) slot (unit { su with st := .layer, pc := su.pc + 1 })) ∧
      (heldHalf su (halfOf su su.pos) = false → ringRoom su = 1 →
        (atMove 7 → atAMove goes →
          Becomes s (.streamRunStart n u) slot (unit { goes with st := .run, asked := [⟨su.pc, 0, .blank⟩] })) ∧
        (atMove 7 → atEnd goes →
          Becomes s (.streamRunStart n u) slot
            (unit { goes with st := .run, asked := [⟨su.pc, 0, .blank⟩], met := some .finish })) ∧
        ∀ (d : BitVec 128) (k : Nat), atMove 6 → su.far = some d → moveIndex su = (k : Int) → 64 * k + 64 ≤ hLen d →
          isHere s (farOf s n d (64 * k)) = true → atAMove goes →
          Becomes s (.streamRunStart n u) slot
            (unit { goes with
              st := .waitData,
              asked := [⟨su.pc, 64 * k, .here (farOf s n d (64 * k)).space (farOf s n d (64 * k)).off⟩] }))) ∧
    (isOut core u = false → su.st = .run ∨ su.st = .waitData → su.rows = [] →
      ((su.met = none → atAMove su ∧ ringRoom su ≤ su.asked.length) → room ≤ su.asked.length →
        heldHalf su (halfOf su su.pos) = false → (∀ m ∈ su.asked.take room, m.what = .blank) →
        ∃ s', exec (.streamRowArrival n u 1) s = .next s' ∧
          getCore s' slot = unit
            { su with st := .run, rows := [List.replicate room ⟨0, 0⟩], asked := su.asked.drop room } ∧
          SameBytes s s' ∧ ∀ j, j ≠ slot → getCore s' j = getCore s j) ∧
      (∀ spc off space o rest s1, su.asked = ⟨spc, off, .here space o⟩ :: rest → su.pos % 4 = 3 →
        (∀ x, readUnit s space o = (s1, some x) → (su.met = none → atAMove su ∧ ringRoom su ≤ su.asked.length) →
          ∃ s', exec (.streamRowArrival n u 1) s = .next s' ∧
            getSu s' slot u = { su with st := .run, rows := [[x]], asked := rest } ∧ (x.poison = 0 → SameBytes s s')) ∧
        (readUnit s space o = (s1, none) → ∃ s', exec (.streamRowArrival n u 1) s = .next s' ∧
          (getSu s' slot u).st = .fault ∧
          (getSu s' slot u).fault = su.fault ++
            [(BitVec.ofNat 32 off, BitVec.ofNat 32 (u.val * 2 ^ 24 + 9 * 2 ^ 16 + spc % 64))] ∧
          (getSu s' slot u).asked = [] ∧ (getSu s' slot u).rows = [])) ∧
      (∀ spc off id rest, su.asked = ⟨spc, off, .far id none⟩ :: rest → ∀ k, exec (.streamRowArrival n u k) s = .next s)) ∧
    (∃ s', exec (.streamRowArrival n u 1) s = .next s' ∧
      ∀ k, exec (.streamRowArrival n u (k + 1)) s = exec (.streamRowArrival n u k) s') ∧
    (∀ x, clocked s slot = true → granted core = some u → isOut core u = false → su.rows = [[x]] → x.poison = 0 →
      su.met = none → su.filled + 1 < halfUnits su → su.st = .run →
      ∃ s', exec (.streamCycleGrant n) s = .next s' ∧
        (∀ i, i < 64 → memByte (getCore s' slot).mem (su.ringBase + 64 * su.pos + i) = x.data.extractLsb' (8 * i) 8) ∧
        (∀ b, b < su.ringBase + 64 * su.pos ∨ su.ringBase + 64 * su.pos + 64 ≤ b →
          memByte (getCore s' slot).mem b = memByte core.mem b) ∧
        (getSu s' slot u).rows = [] ∧ (getSu s' slot u).pos = su.pos + 1 ∧ (getSu s' slot u).filled = su.filled + 1 ∧
        countOf (getSu s' slot u) (halfOf su su.pos) = countOf su (halfOf su su.pos) + 1 ∧
        (∀ t, getTh s' slot t = getTh s slot t) ∧ ∀ j, j ≠ slot → getCore s' j = getCore s j) ∧
    (∀ w, su.writes = [w] → w.err = some false → su.st = .waitData → su.stopping = false → isOut core u = true →
      su.left = [] → heldHalf su w.half = false →
      let f := (sctl core u).extractLsb' 16 6
      (∀ t : Fin 4, core.th[t].wait ≠ some (.flag f)) → flagGet core f.toNat ≠ 255 →
      ∃ x, Becomes s (.streamWriteAck n u) slot
          { unit x with flags := tset flagDefault core.flags f.toNat (flagGet core f.toNat + 1) } ∧
        x.writes = [] ∧ heldHalf x w.half = true ∧ countOf x w.half = 0 ∧ heldHalf x (!w.half) = heldHalf su (!w.half)) ∧
    ((csrGet core 0x6484).extractLsb' 0 24 ≠ 0 → clocked s slot = true → su.st ≠ .idle → su.st ≠ .fault →
      su.stopping = false → s.fab.behind = [] →
      (unanswered su = true ∨ su.writes ≠ [] → Becomes s (.streamIdleTimeout n u) slot
        (unit { su with
          st := .fault, asked := [], met := none, rows := [], left := [],
          fault := su.fault ++ [(0, BitVec.ofNat 32 (u.val * 2 ^ 24 + 7 * 2 ^ 16 + su.pc % 64))] })) ∧
      (unanswered su = false → su.writes = [] → exec (.streamIdleTimeout n u) s = .next s))

/-- R292: a stream cycle goes to an eligible unit of the smallest deadline, and among equals to the lowest number. -/
def Claim.StreamArbitration : Prop :=
  ∀ (c : Core) (u : Fin 4), granted c = some u → eligible c u = true ∧
    ∀ v, eligible c v = true → deadline c u < deadline c v ∨ (deadline c u = deadline c v ∧ u ≤ v)

/-- R299, R300, R583: the fault of a stream unit is taken by its owner thread, here one of route 0, oldest first, with its
address and its unit, REASON and SPC in INFO. -/
def Claim.StreamFaults : Prop :=
  ∀ (s : State) (n slot : Nat) (u : Fin 4) (reason spc : Nat) (faddr : Word) (later : List (Word × Word)), slotOf s (.core n) = some slot → slot < 576 →
    (getCore s slot).held = false →
    let core := getCore s slot
    let su := core.su[u]
    let k : Fin 4 := Fin.ofNat 4 ((sctl core u).extractLsb' 26 2).toNat
    let th := core.th[k]
    let fa := th.sfc.cursor.toNat
    (su.fault = [] → exec (.streamFaultDelivery n u) s = .next s) ∧
    let info := BitVec.ofNat 32 (u.val * 2 ^ 24 + reason * 2 ^ 16 + spc)
    (su.fault = (faddr, info) :: later → deliverable s slot k = true → th.st = .running → th.closeEnd = none →
      th.stopReq = false → tileBeforeCommit s slot k = none → k ≠ superOf s slot →
      (csrGet core (0x2000 + 4 * k.val)).getLsbD 8 = false → FrameRoom th.sfc fa →
      ∃ s', exec (.streamFaultDelivery n u) s = .next s' ∧
        HoldsFrame (getCore s' slot).mem fa th th.pc (BitVec.ofNat 32 (k.val * 65536 + 0x1A)) faddr info ∧
        (∀ x, x < fa ∨ fa + 0x180 ≤ x → memByte (getCore s' slot).mem x = memByte core.mem x) ∧
        (getSu s' slot u).fault = later ∧ (getTh s' slot k).st = .stoppedFault ∧ (getTh s' slot k).cause = 0x1A ∧
        (getCore s' slot).notes = 
          (addNote (takePath core (clockOf s slot) k)
            (.stopped k 0x1A th.sfc.cursor (frameLast core (clockOf s slot) k + 1))).notes ∧
        (∀ v, v ≠ k → getTh s' slot v = getTh s slot v) ∧ ∀ j, j ≠ slot → getCore s' j = getCore s j)

/-- R303, R304, R310, R311, R314: a doorbell and a GO start an idle channel of the cluster, a GO that breaks the rules ends with
status 5, PAUSE and ABORT reach a running channel, and a drained channel is PAUSED. -/
def Claim.CourierControl : Prop :=
  ∀ (s : State) (n slot : Nat) (t : Fin 4) (cl : Fin 8) (c : Fin 16) (v : Word),
    let k := 16 * cl.val + c.val
    let b := chBase k
    let ch := getCh s k
    (∀ sd dd, Ready s (.core n) t slot → slot < 576 → logicalOf s slot = some n → clusterOf slot = cl →
      let core := getCore s slot
      let th := core.th[t]
      let a := 32 * (v.extractLsb' 16 14).toNat
      let w4 := memWord core.mem (a + 16)
      let op := (w4.extractLsb' 28 4).toNat
      let count := memNat core.mem (a + 8) 4
      let so := memNat core.mem a 4
      let dof := memNat core.mem (a + 4) 4
      checkCsr th th.ddc 0x00106480 4 pSTORE = none → capCheck th.ddc a 32 pLOAD = none → a + 32 ≤ 0x80000 →
      Clean core.mem a 32 → th.pend = [] → (v.extractLsb' 0 4).toNat = c.val → (chReg s k 0x28).getLsbD 31 = true →
      ((chReg s k 0x28).extractLsb' 0 10).toNat = n → blockOk (memBytes core.mem a 32) = true → ch.st = .idle → op ≠ 2 →
      courierHandle core (w4.extractLsb' 16 6).toNat false so count = .ok sd →
      courierHandle core (w4.extractLsb' 8 6).toNat (decide (op ≠ 3)) dof count = .ok dd →
      overlaps (farOf s n sd so) (farOf s n dd dof) count = false →
      ∃ s', exec (.cdoor n (.thread t) v) s = .next s' ∧
        getCh s' k = { Channel.reset with st := .active, block := some (n, a), total := count } ∧
        chPair s' k 0 = globalBits (farOf s n sd so) ∧ chPair s' k 8 = globalBits (farOf s n dd dof) ∧
        chReg s' k 0x10 = BitVec.ofNat 32 count ∧ (chReg s' k 0x18).extractLsb' 24 4 = BitVec.ofNat 4 op ∧
        (chReg s' k 0x18).extractLsb' 16 2 = w4.extractLsb' 24 2 ∧ getTh s' slot t = stepDone (nextPc th) ∧ SameBytes s s') ∧
    (dark s = false → ch.st = .idle →
      let after := devSet s (b + 0x18) ((devReg (b + 0x18)).write (devGet s (b + 0x18)) (v ||| 0x20000000))
      (goInvalid after k = false → exec (.cctlGo cl c v) s = .next (modCh after k fun _ =>
        { Channel.reset with
          st := if (chReg after k 0x18).getLsbD 31 then .pausing else .active, total := (chReg s k 0x10).toNat })) ∧
      (goInvalid after k = true → (chReg s k 0x1C).getLsbD 31 = false → s.fab.behind = [] →
        ∃ s', exec (.cctlGo cl c v) s = .next s' ∧ getCh s' k = Channel.reset ∧ chReg s' k 0x20 = 5 ∧ chReg s' k 0x24 = 0 ∧
          s'.cores = s.cores)) ∧
    (ch.st = .active →
      (dark s = false → (chReg s k 0x18).getLsbD 30 = false → exec (.cctlPause cl c true) s =
        .next (modCh (devSet s (b + 0x18) (chReg s k 0x18 ||| 0x80000000)) k fun ch => { ch with st := .pausing })) ∧
      ∃ s', exec (.cctlAbort cl c) s = .next s' ∧ getCh s' k = { ch with st := .pausing, aborting := true } ∧
        s'.cores = s.cores) ∧
    (dark s = false → ch.st = .paused → ∃ s', exec (.cctlPause cl c false) s = .next s' ∧ s'.cores = s.cores ∧
      ((chReg s k 0x18).extractLsb' 29 2 = 0 →
        getCh s' k =
          { ch with
            st := .active, total := ch.doneBytes + (chReg s k 0x10).toNat, issued := ch.doneBytes, burst := 0 })) ∧
    (ch.st = .pausing → ch.aborting = false → chOutstanding s k = false → s.fab.behind = [] →
      ((chReg s k 0x18).getLsbD 31 = true → exec (.courierPaused cl c) s = .next (modCh s k fun c => { c with st := .paused })) ∧
      ((chReg s k 0x18).getLsbD 31 = false → exec (.courierPaused cl c) s =
        .next (modCh s k fun c => { c with st := .active, issued := c.doneBytes, burst := 0 })))

/-- R305, R307, R308, R312: a burst of a fill writes the pattern; a channel that is done writes STATUS and OFFSET into its
block; a far read is noted, and its data and signal come. That the operand of COURIER_BURST_GRANT counts units is the model's
choice (log entry 124), and so is the moment at which the data of a far read is read (log entry 125). -/
def Claim.CourierTransfers : Prop :=
  (∀ (s : State) (cl : Fin 8) (k : Nat) (off : Nat), burstingCh s cl.val = none → grantedCh s cl.val = some k → chOp s k = 2 →
    k / 16 = cl.val →
    (getCh s k).total = (getCh s k).doneBytes + 64 → (getCh s k).issued = (getCh s k).doneBytes →
      globalOf (chPair s k 8) = ⟨2, fabDev s, off⟩ → off % 64 = 0 →
    off < 0x30000000 → s.fab.behind = [] →
    ∃ s', exec (.courierBurstGrant cl 1) s = .next s' ∧ (getCh s' k).doneBytes = (getCh s k).doneBytes + 64 ∧
      (∀ i, i < 16 → memWord s'.sram (off + 4 * i) = chReg s k 0x14) ∧
      (∀ x, x < off ∨ off + 64 ≤ x → memByte s'.sram x = memByte s.sram x) ∧ s'.cores = s.cores ∧
      chReg s' k 0x10 = chReg s k 0x10 - 64) ∧
  (∀ (s : State) (cl : Fin 8), ∃ s', exec (.courierBurstGrant cl 1) s = .next s' ∧
    ∀ k, exec (.courierBurstGrant cl (k + 1)) s = exec (.courierBurstGrant cl k) s') ∧
  (∀ (s : State) (cl : Fin 8) (c : Fin 16) (core a slot : Nat),
    let k := 16 * cl.val + c.val
    let ch := getCh s k
    ch.st ≠ .idle → chOutstanding s k = false → ch.result = none → ch.aborting = false → doorFor s k = none →
      ch.doneBytes = ch.total → ch.block = some (core, a) →
    siteOf s core = some slot → (chReg s k 0x1C).getLsbD 31 = false → s.fab.behind = [] →
    ∃ s', exec (.courierComplete cl c) s = .next s' ∧ getCh s' k = Channel.reset ∧ chReg s' k 0x20 = 0 ∧
      chReg s' k 0x24 = 0 ∧ memNat (getCore s' slot).mem (a + 24) 8 = 0 ∧
      (∀ x, x < a + 24 ∨ a + 32 ≤ x → memByte (getCore s' slot).mem x = memByte (getCore s slot).mem x) ∧
      (∀ t, getTh s' slot t = getTh s slot t) ∧ ∀ j, j ≠ slot → getCore s' j = getCore s j) ∧
  (∀ (s : State) (n slot : Nat) (t k : Fin 4) (v : Word) (sd dd : BitVec 128), Ready s (.core n) t slot → logicalOf s slot = some n →
    let core := getCore s slot
    let th := core.th[t]
    let foff := (csrGet core (0x6490 + 8 * k.val)).toNat
    let doff := (v.extractLsb' 7 13).toNat * 64
    let src := farOf s n sd foff
    checkCsr th th.ddc (0x00106494 + 8 * k.val) 4 pSTORE = none → foff % 64 = 0 → th.pend = [] →
    courierHandle core (v.extractLsb' 26 6).toNat false foff 64 = .ok sd → handleGet core (v.extractLsb' 20 6).toNat = dd →
    hValid dd = true → hWr dd = true → hSpace dd = 8 → doff + 64 ≤ hLen dd → core.far.length < 16 → isHere s src = true →
    let asking : Core := { coreModTh core t nextPc with
        far := core.far ++ [⟨s.fab.opNo, src.space, src.dev, src.off, hBase dd + doff, v.getLsbD 6, v.extractLsb' 0 6⟩] }
    ∃ s', exec (.fgo n (.thread t) k v) s = .next s' ∧
      OnlyCore { s with fab := { s.fab with opNo := s.fab.opNo + 1 } } s' slot (withThread asking t asking.th[t])) ∧
  (∀ (s s1 : State) (n slot i : Nat) (f : FarRead) (x : Unit64), slotOf s (.core n) = some slot →
    (getCore s slot).held = false → (getCore s slot).far[i]? = some f → f.dev = fabDev s →
    readUnit s f.space f.off = (s1, some x) → x.poison = 0 →
    (∀ t : Fin 4, (getTh s slot t).wait ≠ some (.flag f.flag)) → flagGet (getCore s slot) f.flag.toNat ≠ 255 →
    ∃ s', exec (.farReadData n i) s = .next s' ∧
      (∀ j, j < 64 → memByte (getCore s' slot).mem (f.dst + j) = x.data.extractLsb' (8 * j) 8) ∧
      (∀ b, b < f.dst ∨ f.dst + 64 ≤ b → memByte (getCore s' slot).mem b = memByte (getCore s slot).mem b) ∧
      (getCore s' slot).far = (getCore s slot).far.erase f ∧
      flagGet (getCore s' slot) f.flag.toNat = flagGet (getCore s slot) f.flag.toNat + (if f.sig then 1 else 0))

/-! ### External memory (R372 to R395) -/

/-- R375, R376, R380, R387, R574: a unit of HBM or LPDDR5X is written, or read and answered, and its stack or package leaves
self-refresh for it; beyond the end of the memory nothing happens and the answer is an error. While LPDDR5X calibrates, an access
is held. A stack or package leaves self-refresh. -/
def Claim.ExternalUnits : Prop :=
  ∀ (s : State) (off : Nat) (d : UnitData), dark s = false →
    (∀ (top : Nat) (unit : Nat) (m : State → Mem) (cmd : Option UnitData → Instr) (self : Nat), (top, unit, m, cmd, self) ∈
      [(0x8700000000, 32, (fun s => s.fab.hbm), fun w => Instr.hbmUnitService off w,
         0x40100 + 4 * homeStack s off),
       (0x7000000000, 8, (fun s => s.fab.lp), fun w => Instr.lpUnitService off w .ok,
         0x50100 + 4 * lpPackage off)] →
      (unit = 8 → lpCalibrating s = false ∧ lpAvail s = true) → off % 64 = 0 →
      (off < top → d.poison = 0 → ∃ s', exec (cmd (some d)) s = .next s' ∧
        (∀ i, i < 64 → memByte (m s') (off + i) = d.data.extractLsb' (8 * i) 8) ∧
        (∀ x, x < off ∨ off + 64 ≤ x → memByte (m s') x = memByte (m s) x) ∧
        s'.outbox = s.outbox ++ [.answer false 0 0] ∧ s'.cores = s.cores ∧ s'.sram = s.sram ∧ s'.dev = (leaveRefresh s self).dev) ∧
      (off < top → (∀ w ∈ wordsOf unit off 64, memCheck (m s) w = .good) → ∃ s' x, exec (cmd none) s = .next s' ∧
        (∀ i, i < 64 → x.extractLsb' (8 * i) 8 = memByte (m s) (off + i)) ∧
        s' = { leaveRefresh s self with outbox := s.outbox ++ [.answer false x 0] }) ∧
      (top ≤ off → ∀ w, exec (cmd w) s = .next { s with outbox := s.outbox ++ [.answer true 0 0] })) ∧
    (∀ w link, lpCalibrating s = true →
      exec (.lpUnitService off w link) s = .next { s with fab := { s.fab with lpHeld := s.fab.lpHeld ++ [.access off w link] } }) ∧
    (∀ (e : Nat), ((devGet s e).getLsbD 31 = false → leaveRefresh s e = s) ∧
      ((devGet s e).getLsbD 31 = true → leaveRefresh s e = devSet s e (devGet s e &&& 0x7FFFFFFF))) ∧
    (∀ (hbm : Bool) (i : Fin 16), ∃ s', exec (.selfRefreshExit hbm i) s = .next s' ∧
      let o := (if hbm then 0x40100 else 0x50100) + 4 * i.val
      devGet s' o = devGet s o &&& 0x7FFFFFFF ∧ (∀ x, x ≠ o → devGet s' x = devGet s x) ∧ s' = { s with dev := s'.dev })

/-- R384, R389 to R393: a refresh slot and a migration window change no data but that of a word with an uncorrectable error,
which becomes poison; a slot moves each scrub pointer on by one unit, and a window the count of granules moved, until the stack is
off. A window waits while a courier burst in its granule drains. -/
def Claim.RefreshAndRetirement : Prop :=
  ∀ (s : State) (k : Fin 16), dark s = false →
    let kept (u : Nat) (m m' : Mem) : Prop :=
      ∀ a, memByte m' a = memByte m a ∨ (memCheck m' (a / u) = .poison ∧ memByte m' a = 0)
    ((devGet s (0x40100 + 4 * k.val)).getLsbD 30 = true → exec (.hbmRefreshSlot k) s = .next s) ∧
    ((devGet s (0x40100 + 4 * k.val)).getLsbD 30 = false → ∃ s', exec (.hbmRefreshSlot k) s = .next s' ∧
      kept 32 s.fab.hbm s'.fab.hbm ∧ SameBytes s { s' with fab := { s'.fab with hbm := s.fab.hbm } } ∧
      (∀ w ∈ s.fab.hbmFix, homeStack s (32 * w) = k.val → memCheck s'.fab.hbm w ≠ .single) ∧
      ∀ i, tget scrubDefault s'.fab.hbmScrub i =
        if 32 * k.val ≤ i ∧ i < 32 * k.val + 32 then (tget scrubDefault s.fab.hbmScrub i + 1) % 18874368
        else tget scrubDefault s.fab.hbmScrub i) ∧
    (∃ s', exec (.lpRefreshSlot k) s = .next s' ∧
      kept 8 s.fab.lp s'.fab.lp ∧ SameBytes s { s' with fab := { s'.fab with lp := s.fab.lp } } ∧
      ∀ i, tget scrubDefault s'.fab.lpScrub i =
        if 4 * k.val ≤ i ∧ i < 4 * k.val + 4 then (tget scrubDefault s.fab.lpScrub i + 1) % 117440512
        else tget scrubDefault s.fab.lpScrub i) ∧
    (let cfg := devGet s 0x40000
     let j := ((devGet s 0x40004).extractLsb' 0 24).toNat
     (cfg.extractLsb' 30 2 ≠ 1 → exec .migrationWindow s = .next s) ∧
     let r := (cfg.extractLsb' 0 4).toNat
     let busy := (upFrom 0 128).any (burstIn s r j) || s.so.migPaused.any (fun c => (getCh s c).st == .pausing)
     (cfg.extractLsb' 30 2 = 1 → busy = true → ∃ s', exec .migrationWindow s = .next s' ∧ s'.fab = s.fab ∧
       devGet s' 0x40000 = cfg ∧ devGet s' 0x40004 = devGet s 0x40004 ∧ s'.flash = s.flash) ∧
     (cfg.extractLsb' 30 2 = 1 → busy = false →
       (∀ c ∈ s.so.migPaused, c < 128 ∧ ((getCh s c).st = .idle → (chReg s c 0x18).getLsbD 29 = false)) →
       ∃ s', exec .migrationWindow s = .next s' ∧ kept 32 s.fab.hbm s'.fab.hbm ∧
       SameBytes s { s' with mbx := s.mbx, fab := { s'.fab with hbm := s.fab.hbm } } ∧ s'.so.migPaused = [] ∧
       devGet s' 0x40004 = BitVec.ofNat 32 (j + 1) ∧
       (j + 1 < 8847360 → devGet s' 0x40000 = cfg) ∧
       (8847360 ≤ j + 1 → (devGet s' 0x40000).extractLsb' 30 2 = 2 ∧
         (devGet s' (0x40100 + 4 * r)).getLsbD 30 = true ∧
         s'.flash.retired = some r)))

/-! ### Links (R396 to R421) -/

/-- R403, R404, R412, R415, R416: training of a port: its start, a frame of the peer, the ends of its phases, and its failure. -/
def Claim.LinkTraining : Prop :=
  ∀ (s : State) (port : Fin 16) (fast : Bool) (obs : TrainObs),
    let p := port.val
    let q := getPort s p
    let cfg := devGet s (portBase p)
    (cfg.extractLsb' 30 2 = 1 ∨ cfg.extractLsb' 30 2 = 2 → inTraining s p = false →
      let live := decide (portState s p = 2 ∨ portState s p = 3)
      ∃ s', exec (.trainingStart port fast) s = .next s' ∧ portState s' p = (if fast && live then 4 else 1) ∧
        (getPort s' p).cfg = cfg ∧ (getPort s' p).phase = .detect ∧ (getPort s' p).fast = (fast && live) ∧
        (getPort s' p).again = live ∧ (getPort s' p).replay = q.replay ∧ (getPort s' p).resend = 0 ∧
        ((devGet s' (portBase p + 0x18)).extractLsb' 16 16).toNat =
          (let old := ((devGet s (portBase p + 0x18)).extractLsb' 16 16).toNat
           if live then min 65535 (old + 1) else old) ∧
        (∀ r, r ≠ p → getPort s' r = getPort s r)) ∧
    (∀ fr : List Byte, inTraining s p = true → fr.length = 32 → fr.take 4 = [0x96, 0xF0, 0x5A, 0x0F] →
      (leAt fr 30 2 = (crc16 (fr.take 30)).toNat → exec (.trainingFrame port fr) s = .next (modPort s p fun q =>
        { takeCoef q (leAt fr 4 1 % 8) (BitVec.ofNat 8 (leAt fr 10 1)) with
          peerRole := BitVec.ofNat 8 (leAt fr 5 1), peerDev := BitVec.ofNat 16 (leAt fr 6 2),
          peerSeq := BitVec.ofNat 12 (leAt fr 8 2), sawStart := q.sawStart || decide (leAt fr 5 1 / 32 % 2 = 1),
          coefAns := tset byteZero q.coefAns (leAt fr 4 1 % 8) (BitVec.ofNat 8 (leAt fr 11 1)) })) ∧
      (leAt fr 30 2 ≠ (crc16 (fr.take 30)).toNat → exec (.trainingFrame port fr) s = .next s)) ∧
    (inTraining s p = true →
      (q.phase = .detect → q.fast = false →
        (obs.lanes = 0xFF → ∃ s', exec (.trainingPhaseEnd port obs) s = .next s' ∧ (getPort s' p).phase = .equalise ∧
          s'.outbox.length = s.outbox.length + 8 ∧ portState s' p = portState s p) ∧
        (obs.lanes ≠ 0xFF → exec (.trainingPhaseEnd port obs) s = .next s)) ∧
      (q.phase = .detect → q.fast = true → obs.lanes = 0xFF → ∃ s', exec (.trainingPhaseEnd port obs) s = .next s' ∧
        (getPort s' p).phase = .identify) ∧
      (q.phase = .equalise →
        let done := q.eqDone || obs.phaseDone
        ∃ s', exec (.trainingPhaseEnd port obs) s = .next s' ∧ (getPort s' p).eqDone = done ∧
          (getPort s' p).phase = (if done && q.peerRole.getLsbD 4 then .identify else .equalise)) ∧
      (q.phase = .identify → obs.phaseDone = true →
        (peerOk q = true → ∃ s', exec (.trainingPhaseEnd port obs) s = .next s' ∧ (getPort s' p).phase = .measure ∧
          (devGet s' (portBase p + 4)).extractLsb' 0 16 = q.peerDev ∧
          (devGet s' (portBase p + 4)).getLsbD 27 =
            (obs.refLocked && s.mod.refExt && decide (q.cfg.extractLsb' 30 2 = 1)) ∧ portState s' p = portState s p) ∧
        (peerOk q = false → ∃ s', exec (.trainingPhaseEnd port obs) s = .next s' ∧ portState s' p = 5)) ∧
      (∀ a b, q.phase = .latency → q.ownLat = some a → q.proposed = some b → q.quiesceThen = 0 → q.again = false →
        q.hole = none → dataStopped s p = false → ∃ s', exec (.trainingPhaseEnd port obs) s = .next s' ∧
          portState s' p = 2 ∧ devGet s' (portBase p + 8) = BitVec.ofNat 32 (min (max a b) 1023)) ∧
      (∃ s', exec (.trainingTimeout port) s = .next s' ∧ portState s' p = 5)) ∧
    (inTraining s p = false → exec (.trainingTimeout port) s = .next s ∧ exec (.trainingPhaseEnd port obs) s = .next s)

/-- R415: a probe is echoed; an echo gives a value, and the sixteenth the proposal of this side; the peer's proposal is kept.
That the echo carries a hold of 0 is the model's choice (log entry 36). -/
def Claim.LatencyProbes : Prop :=
  ∀ (s : State) (port : Fin 16) (stamp hold : Word) (v : BitVec 16),
    let p := port.val
    let q := getPort s p
    let value := (BitVec.ofNat 32 s.meshCycle - stamp).toNat - hold.toNat - 40
    inTraining s p = true → q.phase = .latency →
    let sends (f : BitVec 640) (s' : State) : Prop :=
      s'.outbox = s.outbox ++
        if mustNull s p then slotOut s p 0 ++ [.flit p (sealFlit f)] else slotOut s p f
    (∃ s', exec (.latp port stamp) s = .next s' ∧ sends (ctrlFlit 2 (stamp.setWidth 512)) s' ∧ s'.cores = s.cores ∧
      s'.dev = s.dev ∧ (getPort s' p).probes = q.probes) ∧
    exec (.latr port v) s = .next (modPort s p fun q => { q with proposed := some v.toNat }) ∧
    (q.ownLat = none → q.probes.length < 15 →
      exec (.late port stamp hold) s = .next (modPort s p fun q => { q with probes := q.probes ++ [value] })) ∧
    (q.ownLat = none → q.probes.length = 15 → ∃ s' m, exec (.late port stamp hold) s = .next s' ∧
      (m ∈ q.probes ++ [value] ∧ ∀ x ∈ q.probes ++ [value], x ≤ m) ∧ (getPort s' p).ownLat = some ((m + 1) / 2) ∧
      sends (ctrlFlit 3 (BitVec.ofNat 512 ((m + 1) / 2))) s')

/-- R407, R409, R413: what a slot of a port that carries traffic is filled with: a LINK flit that is due, a flit again, a new
unit with the next LSEQ and a place in the replay buffer, or nothing; with R401's NULL where the round asks for it. -/
def Claim.FlitsSent : Prop :=
  ∀ (s : State) (port : Fin 16),
    let p := port.val
    let q := getPort s p
    let sends (f : BitVec 640) (s' : State) : Prop :=
      exec (.flitSlot port) s = .next s' ∧ s'.outbox = s.outbox ++ slotOut s p f ∧ s'.cores = s.cores ∧
        ∀ r, r ≠ p → getPort s' r = getPort s r
    portState s p = 2 →
    (mustNull s p = true → ∃ s', sends 0 s' ∧ (getPort s' p).replay = q.replay ∧ (getPort s' p).txq = q.txq ∧
      (getPort s' p).unit = [] ∧ (getPort s' p).roundCtr = q.roundCtr + 1) ∧
    (mustNull s p = false → (q.nakDue = true ∨ q.linkDue = true → ∃ s', sends (ctrlFlit 0 (linkData q)) s' ∧
      (getPort s' p).nakDue = false ∧ (getPort s' p).linkDue = false ∧ (getPort s' p).replay = q.replay) ∧
    (q.nakDue = false → q.linkDue = false → 0 < q.resend → ∀ seq u x,
      q.replay[q.replay.length - q.resend]? = some (seq, u, x) →
      ∃ s', sends (pktFlit u seq) s' ∧ (getPort s' p).resend = q.resend - 1 ∧ (getPort s' p).replay = q.replay) ∧
    (q.nakDue = false → q.linkDue = false → q.resend = 0 → q.replay.length < 2048 → hasCredit q 0 = false ∨ candidate q 0 = none →
      (q.changed && decide (16 ≤ q.slots)) = false → s.fab.resendDue = [] →
      (∀ u, nextData s p = some u → q.cfg.extractLsb' 30 2 ≠ 2 → ∃ s', sends (pktFlit u q.nextSeq) s' ∧
        (getPort s' p).replay = q.replay ++ [(q.nextSeq, u, s.meshCycle)] ∧ (getPort s' p).nextSeq = q.nextSeq + 1 ∧
        tget ctrDefault (getPort s' p).sent u.vc.toNat = tget ctrDefault q.sent u.vc.toNat + 1) ∧
      (nextData s p = none → ∃ s', sends 0 s' ∧ (getPort s' p).replay = q.replay ∧ (getPort s' p).txq = q.txq)))

/-- R406, R408, R410, R411, R413: what a flit that arrives does to a port: the next PKT in order is accepted, another asks for
a replay, a flit with a wrong CRC is counted, and a LINK flit acknowledges and gives credit. -/
def Claim.FlitsReceived : Prop :=
  ∀ (s : State) (port : Fin 16) (f : BitVec 640) (data : BitVec 512),
    let p := port.val
    let q := getPort s p
    let u := flitUnit f
    let kind := (f.extractLsb' 126 2).toNat
    portState s p = 2 →
    (kind = 1 → f.extractLsb' 0 16 = flitCrc f →
      (f.extractLsb' 16 12 = q.expect → opVcOk u.op u.vc = true → opPortOk (isIngest s p) u.op = true → u.dst = fabDev s →
        strayMgmt u = false →
        exec (.flitReceive port (.flit f)) s = .next (modPort s p fun q =>
          { q with
            expect := q.expect + 1, waiting := false, nakDue := false, ackv := true, changed := true, rx := q.rx ++ [u] })) ∧
      (f.extractLsb' 16 12 ≠ q.expect → q.waiting = false →
        exec (.flitReceive port (.flit f)) s = .next (modPort s p fun q => { q with waiting := true, nakDue := true })) ∧
      (f.extractLsb' 16 12 ≠ q.expect → q.waiting = true → exec (.flitReceive port (.flit f)) s = .next s)) ∧
    (f.extractLsb' 0 16 ≠ flitCrc f → kind = 1 ∨ kind = 2 → ∃ s', exec (.flitReceive port (.flit f)) s = .next s' ∧
      ((devGet s' (portBase p + 0x10)).extractLsb' 16 16).toNat =
        min 65535 (((devGet s (portBase p + 0x10)).extractLsb' 16 16).toNat + 1) ∧
      getPort s' p = if kind = 1 ∧ q.waiting = false then { q with waiting := true, nakDue := true } else q) ∧
    (q.answer = false → q.asked = false → s.fab.stopOwed = [] → ∃ s', exec (.linkCtrl port data) s = .next s' ∧
      s' = { s with fab := { s.fab with ports := s'.fab.ports, stopOwed := [] } } ∧
      (∀ v, v < 8 → tget ctrDefault (getPort s' p).cred v = data.extractLsb' (32 + 16 * v) 16) ∧
      (data.getLsbD 12 = false → (getPort s' p).replay = q.replay) ∧
      (∀ before e after, data.getLsbD 12 = true → q.replay = before ++ e :: after → e.1 = data.extractLsb' 0 12 →
        (∀ x ∈ before, x.1 ≠ e.1) → (getPort s' p).replay = after) ∧
      (data.getLsbD 13 = true → q.ignore = none → (getPort s' p).nakSeq = some (data.extractLsb' 16 12)))

/-- R402, R411, R412: a NAK and a timeout replay from a flit on; loss of signal or of block lock starts a fast retrain. -/
def Claim.ReplayAndRetrain : Prop :=
  ∀ (s : State) (port : Fin 16) (lane : Fin 8) (seq : BitVec 12) (i : Nat) (e : BitVec 12 × FUnit × Nat),
    let p := port.val
    let q := getPort s p
    portState s p = 2 ∨ portState s p = 3 →
    (q.nakSeq = some seq → q.replay[i]? = some e → e.1 = seq → (∀ j x, j < i → q.replay[j]? = some x → x.1 ≠ seq) →
      q.replays < 7 ∨ q.lastReplay ≠ some seq →
      ∃ s', exec (.replayNak port seq) s = .next s' ∧ (getPort s' p).resend = q.replay.length - i ∧
        (getPort s' p).nakSeq = none ∧ (getPort s' p).replay = q.replay ∧ portState s' p = portState s p ∧
        ((devGet s' (portBase p + 0x10)).extractLsb' 0 16).toNat =
          min 65535 (((devGet s (portBase p + 0x10)).extractLsb' 0 16).toNat + 1)) ∧
    (q.replay[0]? = some e → q.resend < q.replay.length → q.replays < 7 ∨ q.lastReplay ≠ some e.1 →
      ∃ s', exec (.replayTimeout port) s = .next s' ∧ (getPort s' p).resend = q.replay.length ∧
        (getPort s' p).replay = q.replay ∧ portState s' p = portState s p) ∧
    ((devGet s (portBase p)).extractLsb' 30 2 = 1 ∨ (devGet s (portBase p)).extractLsb' 30 2 = 2 →
      (q.replay[0]? = some e → q.resend < q.replay.length → 7 ≤ q.replays → q.lastReplay = some e.1 →
        ∃ s', exec (.replayTimeout port) s = .next s' ∧ portState s' p = 4) ∧
      (∃ s', exec (.lossOfSignal port lane) s = .next s' ∧ portState s' p = 4 ∧ (getPort s' p).replay = q.replay) ∧
      ∃ s', exec (.blockLockLoss port lane) s = .next s' ∧ portState s' p = 4 ∧
        ((devGet s' (portBase p + 0x14)).extractLsb' 16 16).toNat =
          min 65535 (((devGet s (portBase p + 0x14)).extractLsb' 16 16).toNat +
            (4 - tget runDefault q.badRuns lane.val)))

/-- R417: PORT_QUIESCE stops the data of the port and is answered once all is acknowledged; PORT_QUIESCED is noted;
PORT_RESUME lets the data go on. -/
def Claim.PortQuiesce : Prop :=
  ∀ (s : State) (port : Fin 16),
    let p := port.val
    let q := getPort s p
    isFabric s p = true → portState s p = 2 ∨ portState s p = 3 →
    (∃ s', exec (.portQuiesce port) s = .next s' ∧ (getPort s' p).stopTx = true ∧ portState s' p = 3 ∧
      (dataAcked s p = true → (getPort s' p).txq = q.txq ++ [mgmtUnit s (portPeer s p) 2 []] ∧ (getPort s' p).answer = false) ∧
      (dataAcked s p = false → (getPort s' p).txq = q.txq ∧ (getPort s' p).answer = true)) ∧
    (q.asked = true → q.quiesceThen = 0 → ∃ s', exec (.portQuiesced port) s = .next s' ∧ (getPort s' p).quiesced = true ∧
      (getPort s' p).txq = q.txq) ∧
    (∃ s', exec (.portResume port) s = .next s' ∧ (getPort s' p).stopTx = false ∧ (getPort s' p).answer = false ∧
      (q.asked = false → fabDev s ≠ 0xFFFF → portState s' p = 2))

/-! ### The fabric memory space (R422 to R450) -/

/-- R424, R432, R436: what a unit that arrives in order does on this device: a WRITE and a READ of shared SRAM and their
answers, the answers to this device's own operations, each found by its destination, posts, signals and dead letters. The place of
VC and ESEQ in the UNIT of a dead letter (log entry 34) and that an answer is known by the device that sent it (log entry 128) are
the model's choice. -/
def Claim.FabricOperations : Prop :=
  ∀ (s : State) (u : FUnit) (p : Nat), Arrives s u →
    let s1 := counted s u
    let off := 64 * u.unit.toNat
    let named := (u.unit.extractLsb' 16 3, u.unit.extractLsb' 0 16)
    (u.op = 3 → u.space = 2 → off < 0x30000000 → u.pzn = false → egress s u.src 2 = some p → mustWait s u.src = false →
      ∃ s', exec (.write u) s = .next s' ∧ Leaves s s' (ackOf u 0) p ∧
        (∀ i, i < 64 → memByte s'.sram (off + i) = u.data.extractLsb' (8 * i) 8) ∧
        (∀ x, x < off ∨ off + 64 ≤ x → memByte s'.sram x = memByte s.sram x) ∧ s'.cores = s.cores ∧
        expectedOf s' (flowKey u.src u.vc) = u.eseq + 1) ∧
    (u.op = 1 → u.space = 2 → off < 0x30000000 → Clean s.sram off 64 → egress s u.src 2 = some p → mustWait s u.src = false →
      ∃ s' d, exec (.read u) s = .next s' ∧ (∀ i, i < 64 → d.extractLsb' (8 * i) 8 = memByte s.sram (off + i)) ∧
        Leaves s s'
          { op := 2, vc := 2, src := 0, dst := u.src, eseq := 0, space := 0, unit := u.data.extractLsb' 0 38, pzn := false, data := d } p ∧
        SameBytes s s') ∧
    (∀ r k line, u.op = 2 → s.fab.remote = [r] → r.isRead = true → r.dst = u.src → r.tag = u.unit.toNat →
      r.what = .soRead k line → u.space = 0 → u.pzn = false →
      exec (.readResp u) s = .next
        { s1 with fab := { s1.fab with remote := [] }, so := { s1.so with
            ret := tset retDefault s1.so.ret k (tget retDefault s1.so.ret k ++ [(line, some ⟨u.data, 0⟩)]) } }) ∧
    (∀ r c e g, u.op = 4 → u.space = 0 → s.fab.remote = [r] → r.isRead = false → r.dst = u.src → (r.vc, r.eseq) = named →
      r.what = .post c e g →
      exec (.writeAck u) s = .next { s1 with fab := { s1.fab with remote := [] }, msgs := s1.msgs ++ [.credit c e g] }) ∧
    (∀ r, u.op = 2 ∨ u.op = 4 → u.space = 0 → s.fab.remote = [r] → r.dst ≠ u.src → s.fab.lapsed = [] →
      (u.op = 4 → isPost r = true ∨ (r.vc, r.eseq) ≠ named) →
      ∃ s', exec (if u.op = 2 then .readResp u else .writeAck u) s = .next s' ∧ s'.fab = s1.fab ∧ s'.msgs = s.msgs ∧
        s'.cores = s.cores) ∧
    (u.op = 5 → u.space = 5 → u.unit.toNat / 4 < logicalCount s →
      exec (.postArrival (.fabric u)) s = .next (deliverMsg s1
        (.post (.far u.src u.vc u.eseq) (u.unit.toNat / 4) (u.unit.extractLsb' 0 2) (u.data.extractLsb' 0 128)))) ∧
    (u.op = 6 → u.space = 4 → u.unit.toNat / 64 < logicalCount s →
      exec (.signal u) s = .next (deliverMsg s1 (.signal (.far u.src u.vc u.eseq) (u.unit.toNat / 64) (u.unit.extractLsb' 0 6) 0))) ∧
    (∀ r c e g, u.op = 9 → s.fab.remote = [r] → r.dst = u.src → (r.vc, r.eseq) = named → r.what = .post c e g →
      exec (.dead u) s = .next (deliverMsg { s1 with fab := { s1.fab with remote := [] } }
        (.dead c ⟨u.data.extractLsb' 0 128, u.space.setWidth 8, 0, BitVec.ofNat 6 e⟩)))

/-- R441 to R445: a REDUCE or BARRIER unit of a listed child is an input of the round of its parity, one of another device marks
the tree, and a BARRIER from the parent releases the network. -/
def Claim.FabricTrees : Prop :=
  ∀ (s : State) (u : FUnit), Arrives s u →
    let s1 := counted s u
    let f := (u.unit.extractLsb' 0 4).toNat
    let t := getTree s f
    let stat := 0x7202C + 0x40 * f
    let cmd : Instr := if u.op = 7 then .reduce u else .barrier u
    u.op = 7 ∨ u.op = 8 →
    (treeStray s u f = true → exec cmd s = .next (devOr s1 stat 0x40000000)) ∧
    (treeStray s u f = false → u.unit.getLsbD 8 = false →
      (u.op = 7 → t.own = [] → exec (.reduce u) s = .next (modTree s1 f fun t =>
        { t with
          parts := t.parts.filter (fun x => !(x.child == u.src && x.parity == u.unit.getLsbD 9 &&
              x.index == (u.unit.extractLsb' 6 2).toNat)) ++
            [⟨u.src, u.unit.getLsbD 9, (u.unit.extractLsb' 6 2).toNat, unitWords u.data, u.pzn⟩] })) ∧
      (u.op = 8 → t.ownBar = false → u.src ∉ t.bars →
        exec (.barrier u) s = .next (modTree s1 f fun t => { t with bars := t.bars ++ [u.src] }))) ∧
    (treeStray s u f = false → u.unit.getLsbD 8 = true → u.op = 8 → ftChildren s f = [] →
      ∃ s', exec (.barrier u) s = .next s' ∧ s'.barDue.getLsbD f = true ∧ (getTree s' f).bars = [] ∧
        (getTree s' f).ownBar = false ∧ (getTree s' f).episode = (!t.episode) ∧
        (devGet s' stat).extractLsb' 0 16 = (devGet s stat).extractLsb' 0 16 + 1)

/-- R432, R433, R438: a unit ahead of its flow is held, one behind it is counted and dropped; a flow whose gap lasts goes on
behind it; a read whose answer is late completes with an error. -/
def Claim.OrderAndTimeouts : Prop :=
  ∀ (s : State) (u : FUnit),
    let e := expectedOf s (flowKey u.src u.vc)
    let k := (u.eseq - e).toNat
    (dark s = false → opVcOk u.op u.vc = true → u.dst = fabDev s → endpointPort s u.dst = none → rxPort s u = none →
      s.fab.answers.contains u = false → u.op = 3 →
      (0 < k → k < 32768 → s.fab.store.length < 2048 → (∀ x ∈ s.fab.store, flowOf s x.1 = flowKey u.src u.vc → x.1.eseq ≠ u.eseq) →
        exec (.write u) s = .next { s with fab := { s.fab with store := s.fab.store ++ [(u, s.meshCycle)] } }) ∧
      (32768 ≤ k → ∃ s', exec (.write u) s = .next s' ∧ s' = { s with dev := s'.dev } ∧
        ((devGet s' 0x70010).extractLsb' 16 16).toNat = min 65535 (((devGet s 0x70010).extractLsb' 16 16).toNat + 1) ∧
        ∀ o, o ≠ 0x70010 → devGet s' o = devGet s o)) ∧
    (∀ c, s.fab.store = [(u, c)] → u.op = 6 → u.space = 4 → u.dst = fabDev s → endpointPort s u.dst = none → k ≠ 0 →
      (devGet s 0x70004).extractLsb' 0 20 ≠ 0 →
      ∃ s', exec (.reorderTimeout (u.src, u.dst) u.vc) s = .next s' ∧ s'.fab.store = [] ∧
        expectedOf s' (flowKey u.src u.vc) = u.eseq + 1) ∧
    (∀ i r kk line, s.fab.remote[i]? = some r → r.what = .soRead kk line → (devGet s 0x70004).extractLsb' 0 20 ≠ 0 →
      exec (.remoteTimeout i) s = .next
        { s with
          fab := { s.fab with remote := s.fab.remote.erase r, lapsed := s.fab.lapsed ++ [r] }
          so := { s.so with ret := tset retDefault s.so.ret kk (tget retDefault s.so.ret kk ++ [(line, none)]) } })

/-- R434, R449: SEQ_RESTART and its acknowledgement, the stop of injection, and the exit from reset of the fabric. That the exit
from reset zeroes every counter and that an acknowledgement of another epoch is ignored is the model's choice (log entry 37). -/
def Claim.RestartAndInjection : Prop :=
  ∀ (s : State) (src epoch : BitVec 16) (p : Nat), egress s src 0 = some p → dark s = false →
    let key (v : Nat) := 8 * src.toNat + v
    (∃ s', exec (.seqRestart src epoch) s = .next s' ∧ Leaves s s' (mgmtUnit s src 0x11 (leBytes 2 epoch.toNat)) p ∧
      (tget epochDefault s.fab.epochs src.toNat ≠ some epoch →
        (∀ v, v < 8 → tget ctrDefault s'.fab.expected (key v) = 0 ∧ tget ctrDefault s'.fab.sendCtr (key v) = 0) ∧
        (∀ d, d % 2 ^ 19 / 8 = src.toNat → tget ctrDefault s'.fab.expected d = 0 ∧ tget ctrDefault s'.fab.sendCtr d = 0) ∧
        (∀ d, d % 2 ^ 19 / 8 ≠ src.toNat → tget ctrDefault s'.fab.expected d = tget ctrDefault s.fab.expected d ∧
          tget ctrDefault s'.fab.sendCtr d = tget ctrDefault s.fab.sendCtr d) ∧
        (∀ x ∈ s'.fab.store, x.1.src ≠ src) ∧ tget epochDefault s'.fab.epochs src.toNat = some epoch) ∧
      (tget epochDefault s.fab.epochs src.toNat = some epoch →
        s'.fab.expected = s.fab.expected ∧ s'.fab.sendCtr = s.fab.sendCtr ∧ s'.fab.store = s.fab.store)) ∧
    (∃ s', exec (.seqRestartAck src epoch) s = .next s' ∧
      (s.fab.waiting = [] → tget noBool s'.fab.barred src.toNat =
        if epoch = s.fab.epoch then false else tget noBool s.fab.barred src.toNat)) ∧
    (s.fab.stopOwed = [] → ∃ s', exec (.injectStop src) s = .next s' ∧ tget noBool s'.fab.stopped src.toNat = true ∧
      (unackedTo s src = false → Leaves s s' (mgmtUnit s src 0x16 []) p ∧ s'.fab.stopOwed = []) ∧
      (unackedTo s src = true → (getPort s' p).txq = (getPort s p).txq ∧ s'.fab.stopOwed = [src])) ∧
    (∃ s', exec (.injectStopped src) s = .next s' ∧ tget noBool s'.fab.stoppedBy src.toNat = true ∧
      s'.fab.stopped = s.fab.stopped) ∧
    (s.fab.waiting = [] → ∃ s', exec (.injectResume src) s = .next s' ∧ tget noBool s'.fab.stopped src.toNat = false ∧
      src ∉ s'.fab.stopOwed) ∧
    (∃ s', exec .fabricResetExit s = .next s' ∧ s'.fab.epoch = s.fab.epoch + 1 ∧ s'.flash.epoch = some (s.fab.epoch + 1) ∧
      s'.fab.sendCtr = [] ∧ s'.fab.expected = [] ∧ s'.fab.store = [] ∧
      (fabDev s ≠ 0xFFFF → ∀ d ∈ reachable s, tget noBool s'.fab.barred d.toNat = true))

/-- R430, R441, R449, R450: a route entry switches, a tree register is written, and the device that manages this one reads
and writes its registers and gets the answers. That a refused access answers with the value 0, and that the value of a CSR_RESP
goes to the outbox, is the model's choice (log entry 38). -/
def Claim.FabricRegisters : Prop :=
  ∀ (s : State) (src tag off16 : BitVec 16) (v : Word) (f : Fin 16) (reg : BitVec 4) (off : BitVec 32) (p : Nat),
    (∀ w, s.fab.routeHold.find? (fun h => h.1 == 0x70000 + off16.toNat) = some (0x70000 + off16.toNat, w) →
      (∀ q, chosenPort (devGet s (0x70000 + off16.toNat)) = some q →
        ∀ e ∈ (getPort s q).replay, underEntry s (0x70000 + off16.toNat) e.2.1 = false) →
      s.fab.waiting = [] →
      ∃ s', exec (.routeEntrySwitch off16) s = .next s' ∧ devGet s' (0x70000 + off16.toNat) = w ∧
        (∀ o, o ≠ 0x70000 + off16.toNat → devGet s' o = devGet s o) ∧ ∀ h ∈ s'.fab.routeHold, h.1 ≠ 0x70000 + off16.toNat) ∧
    (dark s = false → 0 < reg.toNat → reg.toNat < 10 → ∃ s', exec (.ftWrite f reg v) s = .next s' ∧
      let o := 0x72000 + 0x40 * f.val + 4 * reg.toNat
      devGet s' o = (devReg o).write (devGet s o) v ∧ (∀ x, x ≠ o → devGet s' x = devGet s x) ∧
      getTree s' f.val =
        { getTree s f.val with own := [], parts := [], ownBar := false, bars := [], sentUp := false, down := [] }) ∧
    (mgmtAllowed s src = false → egress s src 0 = some p →
      (∃ s', exec (.csrRead src tag off) s = .next s' ∧
        Leaves s s' (mgmtUnit s src 0x14 (leBytes 2 tag.toNat ++ [2, 0, 0, 0] ++ leBytes 4 0)) p ∧
        s'.cores = s.cores ∧ s'.dev = s.dev) ∧
      ∃ s', exec (.csrWrite src tag off v) s = .next s' ∧
        Leaves s s' (mgmtUnit s src 0x14 (leBytes 2 tag.toNat ++ [2, 0, 0, 0] ++ leBytes 4 0)) p ∧ s'.cores = s.cores ∧
          s'.dev = s.dev) ∧
    (∀ k : Fin 128, mgmtAllowed s src = true → egress s src 0 = some p → (getCh s k.val).st = .idle →
      off.toNat = chBase k.val + 0x14 →
      (∃ s', exec (.csrWrite src tag off v) s = .next s' ∧ chReg s' k.val 0x14 = v ∧
        Leaves s s' (mgmtUnit s src 0x14 (leBytes 2 tag.toNat ++ [0, 0, 0, 0] ++ leBytes 4 0)) p) ∧
      ∃ s', exec (.csrRead src tag off) s = .next s' ∧ s'.dev = s.dev ∧
        Leaves s s' (mgmtUnit s src 0x14 (leBytes 2 tag.toNat ++ [0, 0, 0, 0] ++ leBytes 4 (chReg s k.val 0x14).toNat)) p) ∧
    (dark s = false → ∀ st, ∃ s', exec (.csrResp src tag st v) s = .next s' ∧ s'.outbox = s.outbox ++ [.word v] ∧ s'.cores = s.cores)

/-! ### Ingest, keys and sealing (R418, R419, R451 to R483) -/

/-- R419, R457 to R462: an envelope is opened by its first unit, grows by the next, and is closed by a unit out of order; its
header, its chunks and its end are checked, and an idle or failed port closes it. -/
def Claim.Envelopes : Prop :=
  (∀ (s : State) (port : Fin 16) (u : FUnit) (k : Nat),
    let bytes := leBytes 64 u.data.toNat
    let fresh : Envelope :=
      { port := port.val, stream := u.space, units := 1, bytes := bytes, last := false, checked := false, kslot := 0, key := [],
        entry := 0, written := 0, verified := 0 }
    (getPort s port.val).rx = [] → inService s port.val = true → isIngest s port.val = true → 5 ≤ u.vc.toNat →
    (streamPipe s port.val u.space = none → freePipe s = some k → u.unit = 0 → u.pzn = false →
      exec (.ingest port u) s = .next (setPipe s k (some fresh))) ∧
    (∀ e, streamPipe s port.val u.space = some k → getPipe s k = some e → e.checked = false → e.units < 260 →
      (u.unit.toNat = e.units → u.unit ≠ 0 → u.pzn = false →
        exec (.ingest port u) s = .next (setPipe s k (some { e with units := e.units + 1, bytes := e.bytes ++ bytes })) ∧
        (3 ≤ e.units → fieldsOk { e with bytes := e.bytes ++ bytes } = false ∨
            e.units = lastUnit { e with bytes := e.bytes ++ bytes } →
          exec (.ingestLast port u) s =
            .next (setPipe s k (some { e with units := e.units + 1, bytes := e.bytes ++ bytes, last := true })))) ∧
      (u.unit.toNat ≠ e.units → u.unit ≠ 0 → ∃ s', exec (.ingest port u) s = .next s' ∧ getPipe s' k = none ∧
        devGet s' 0x80114 = BitVec.ofNat 32 (min (2 ^ 32 - 1) ((devGet s 0x80114).toNat + 1)) ∧ s'.cores = s.cores))) ∧
  (∀ (s : State) (pipe : Fin 32) (e : Envelope), getPipe s pipe.val = some e →
    (4 ≤ e.units → e.checked = false →
      (∀ code, headerChecks s e = .error code → ∃ s', exec (.headerChecksDone pipe) s = .next s' ∧
        getPipe s' pipe.val = none ∧ s'.so.sealing.pt = s.so.sealing.pt) ∧
      (∀ key x, headerChecks s e = .ok (key, x) → e.bytes.length < unitNeeds e e.written →
        ∃ s', exec (.headerChecksDone pipe) s = .next s' ∧
          getPipe s' pipe.val = some { e with checked := true, kslot := envKslot e, key := key, entry := x } ∧
          ptGet s' x =
            { ptGet s x with
              st := .opened, account := BitVec.ofNat 16 (envAccount e), ptLen := BitVec.ofNat 64 (envPtLen e) } ∧
          ∀ y, y ≠ x → ptGet s' y = ptGet s y)) ∧
    (e.checked = true → isGcm e = true → chunkWritten e e.verified = true →
      (tagOk e e.verified = true →
        exec (.chunkTagVerify pipe) s = .next (setPipe s pipe.val (some { e with verified := e.verified + 1 }))) ∧
      (tagOk e e.verified = false → ∃ s', exec (.chunkTagVerify pipe) s = .next s' ∧ getPipe s' pipe.val = none ∧
        (ptGet s' e.entry).st = .rejected ∧ (ptGet s' e.entry).code = 1)) ∧
    (acceptable e = true → ∃ s' f, exec (.envelopeAccepted pipe) s = .next s' ∧ getPipe s' pipe.val = none ∧
      ptGet s' e.entry = { ptGet s e.entry with st := .accepted, code := 0, idig := inputDigest e } ∧
      s'.outbox = s.outbox ++ [.report f, .report f] ∧ f.account = BitVec.ofNat 10 (envAccount e) ∧ f.counter.val = 0 ∧
      f.inc = BitVec.ofNat 64 (envLen e)) ∧
    (devGet s 0x80000 ≠ 0 → e.checked = true → e.last = false → bufferEmpty e = true →
      ∃ s', exec (.ingestIdleTimeout pipe) s = .next s' ∧
      getPipe s' pipe.val = none ∧ (ptGet s' e.entry).st = .rejected ∧ (ptGet s' e.entry).code = 4) ∧
    (e.checked = false ∨ e.last = true → exec (.ingestIdleTimeout pipe) s = .next s)) ∧
  (∀ (s : State) (port : Fin 16), portState s port.val = 5 ∨ portState s port.val = 6 →
    ∃ s', exec (.ingestAbort port) s = .next s' ∧ ∀ k, k < 32 → getPipe s' k =
      match getPipe s k with
      | some e => if e.port = port.val ∧ e.last = false then none else some e
      | none => none)

/-- R456: the Sorting Office may only take a FREE entry and free a final one; a read copies the entry into the image. -/
def Claim.ParcelTable : Prop :=
  ∀ (s : State) (e : BitVec 13),
    let w (i : Nat) : Word := devGet s (0x80200 + 4 * i)
    let old := ptGet s e.toNat
    let st := ((w 0).extractLsb' 0 8).toNat
    ((old.st = .free ∧ st ≤ 1) ∨ ((old.st = .accepted ∨ old.st = .rejected) ∧ st = 0) →
      ∃ s', exec (.ptWrite e) s = .next s' ∧ (∀ x, x ≠ e.toNat → ptGet s' x = ptGet s x) ∧ s'.dev = s.dev ∧
        (ptGet s' e.toNat).st = (if st = 1 then .pending else .free) ∧ (ptGet s' e.toNat).buf = w 7 ++ w 6 ∧
        (ptGet s' e.toNat).bufLen = w 9 ++ w 8 ∧
        (ptGet s' e.toNat).object = ((List.range 4).flatMap fun i => leBytes 4 (w (2 + i)).toNat) ∧
        (ptGet s' e.toNat).ptLen = old.ptLen ∧ (ptGet s' e.toNat).account = old.account ∧
        (ptGet s' e.toNat).idig = old.idig ∧ (ptGet s' e.toNat).code = old.code) ∧
    (old.st = .pending ∨ old.st = .opened ∨ 2 ≤ st → exec (.ptWrite e) s = .next (devOr s 0x80284 0x80000000)) ∧
    (∃ s', exec (.ptRead e) s = .next s' ∧ s' = { s with dev := s'.dev } ∧
      (∀ o, o < 0x80200 ∨ 0x80280 ≤ o → devGet s' o = devGet s o) ∧
      devGet s' 0x80218 = old.buf.extractLsb' 0 32 ∧ devGet s' 0x8021C = old.buf.extractLsb' 32 32 ∧
      devGet s' 0x80220 = old.bufLen.extractLsb' 0 32 ∧ devGet s' 0x80224 = old.bufLen.extractLsb' 32 32 ∧
      devGet s' 0x80228 = old.ptLen.extractLsb' 0 32 ∧ devGet s' 0x8022C = old.ptLen.extractLsb' 32 32 ∧
      devGet s' 0x80200 = BitVec.ofNat 32 (stNat old.st + 256 * old.code.toNat + 65536 * old.account.toNat))

/-- R457, R465: a header check that needs a key whose storage is found uncorrectable refuses the envelope, makes the slot
unusable as if RETIRING and sets KSPOIS; an import writes the storage anew. A
slot holds its key wrapped under the storage key, and gives it from the key cache or unwrapped. -/
def Claim.KeyStorage : Prop :=
  (∀ (s : State) (pipe : Fin 32) (e : Envelope), getPipe s pipe.val = some e → 4 ≤ e.units → e.checked = false →
    fieldsOk e = true → (getKey s (envKslot e)).st = .active → (getKey s (envKslot e)).typ.toNat = envMode e →
    tget lostDefault s.so.sealing.lost (envKslot e) = true → cachedKey s (envKslot e) = none →
    ∃ s', exec (.headerChecksDone pipe) s = .next s' ∧ getPipe s' pipe.val = none ∧
      getKey s' (envKslot e) = { getKey s (envKslot e) with st := .retiring } ∧
      (∀ j, j ≠ envKslot e → getKey s' j = getKey s j) ∧ (devGet s' 0x80008).getLsbD 31 = true ∧
      s'.so.sealing.pt = s.so.sealing.pt) ∧
  (∀ (s : State) (k typ : Nat), (getKey s k).st = .active → (getKey s k).typ.toNat = typ →
    activeKey s k typ =
      match cachedKey s k with
      | some key => some key
      | none => if tget lostDefault s.so.sealing.lost k then none else some (unwrapSlot (getKey s k))) ∧
  (∀ (typ : Byte) (nonce key : List Byte), unwrapSlot (wrapKey typ nonce key) = key ∧
    (wrapKey typ nonce key).st = .active ∧ (wrapKey typ nonce key).typ = typ) ∧
  (∀ (s : State) (k : Nat) (x : KSlot), keyLost (setKey s k x) k = false ∧ getKey (setKey s k x) k = x)

/-- R467, R468: an import takes a blob for an EMPTY slot, which becomes ACTIVE once the blob unwraps; a retire makes a slot
RETIRING, and it is erased once nothing uses its key. -/
def Claim.KeyStore : Prop :=
  ∀ (s : State) (slot : BitVec 13),
    let k := slot.toNat
    let run := s.so.sealing.ksRun
    (dark s = false → run = [] →
      (∃ s' blob, exec (.ksImport slot) s = .next s' ∧ s'.so.sealing.ksRun = [.importKey k blob none] ∧
        s'.so.sealing.ks = s.so.sealing.ks) ∧
      ((getKey s k).st ≠ .empty → ∃ s', exec (.ksRetire slot) s = .next s' ∧
        getKey s' k = { getKey s k with st := .retiring } ∧ (∀ j, j ≠ k → getKey s' j = getKey s j) ∧
        s'.so.sealing.ksRun = [.retire k none])) ∧
    (run ≠ [] → exec (.ksImport slot) s = .next s ∧ exec (.ksRetire slot) s = .next s) ∧
    (∀ blob, run = [.importKey k blob none] → ∃ s', exec .ksImportDone s = .next s' ∧ s'.so.sealing.ksRun = [] ∧
      (∀ j, j ≠ k → getKey s' j = getKey s j) ∧
      ((getKey s k).st ≠ .empty → s'.so.sealing.ksRes = 1 ∧ getKey s' k = getKey s k) ∧
      ((getKey s k).st = .empty →
        match unwrapBlob k blob with
        | .error r => s'.so.sealing.ksRes = r ∧ getKey s' k = getKey s k
        | .ok (typ, key) => s'.so.sealing.ksRes = 0 ∧ ∃ nonce, getKey s' k = wrapKey typ nonce key)) ∧
    ((getKey s k).st = .retiring → keyUsed s k = false → run = [.retire k none] →
      ∃ s', exec (.keyErase slot) s = .next s' ∧ getKey s' k = KSlot.reset ∧ cachedKey s' k = none ∧ (∀ j, j ≠ k →
        getKey s' j = getKey s j) ∧
        s'.so.sealing.ksRun = [] ∧ s'.so.sealing.ksRes = 0) ∧
    ((getKey s k).st ≠ .retiring ∨ keyUsed s k = true → exec (.keyErase slot) s = .next s)

/-- R470, R477, R505, R506: the seal queue takes a job or is full, and one of a parcel that is FAILED or has a stage to come is
not submitted; RCPT_ACK counts what firmware has forwarded and nothing else. That a job's keys are read when it is accepted (log
entry 112) and that firmware writes RCPT_ACK only when it may (log entry 148) is the model's choice. -/
def Claim.SealQueue : Prop :=
  ∀ (s : State) (hi v : Word),
    let sb := s.so.sealing
    let addr := (hi ++ sb.doorLo).toNat
    (dark s = false → 256 ≤ sb.jobs.length → holdsJob s addr = false →
      exec (.sealDoor hi) s = .next (devOr s 0x8000C 0x80000000)) ∧
    (holdsJob s addr = true → exec (.sealDoor hi) s = .next s) ∧
    (dark s = false → sb.jobs.length < 256 → holdsJob s addr = false → ∃ s' j, exec (.sealDoor hi) s = .next s' ∧
      s'.so.sealing.jobs = sb.jobs ++ [j] ∧ j.addr = addr ∧ s'.so.sealing.pt = sb.pt) ∧
    (let ack := devGet s 0x80030
     let n := (v - ack).toNat
     let may := n ≤ 16 ∧ ∀ k, k < n → ack + BitVec.ofNat 32 k ∈ sb.receipts ∧
       (∀ p ∈ s.so.parcels, ∀ r ∈ p.records, r.2.1 = ack + BitVec.ofNat 32 k → r.2.2 = true) ∧
       ∀ x ∈ sb.notes, x.status = 0 → x.batch ≠ ack + BitVec.ofNat 32 k
     (may → NothingDue s → sb.closeDue = false → ∃ s', exec (.rcptAckWrite v) s = .next s' ∧ devGet s' 0x80030 = v ∧
       (∀ o, o ≠ 0x80030 → devGet s' o = devGet s o) ∧
       s'.so.sealing = { sb with receipts := sb.receipts.filter fun b => decide (2 ^ 31 ≤ (v - b - 1).toNat) }) ∧
     (¬ may → exec (.rcptAckWrite v) s = .next s))

/-- R469, R470, R472, R473: the head of the seal queue completes. A job that fails writes its status into its descriptor and
leaves no record and no leaf; one that succeeds writes its record, joins the open batch, writes STATUS, RLEN, BATCH and LEAF,
and reports its work. The record is the header, the payload encrypted under the index key with its tag, the tokens and the
postmark. That FLAGS holds the marks of the parcel beside those of CTL is the model's choice (log entry 149). -/
def Claim.SealJobs : Prop :=
  ∀ (s : State) (j : SealJob) (at' : Nat), NothingDue s → s.so.sealing.jobs = [j] → s.so.sealing.closeDue = false →
    globalOf j.addr = ⟨2, fabDev s, at'⟩ → at' + 64 ≤ 0x30000000 →
    let b := s.so.sealing.batch
    let d := j.desc
    let entry := leAt d 34 2
    let ctl := leAt d 42 1
    let paylen := leAt d 24 4
    let dest := BitVec.ofNat 16 (leAt d 40 2)
    (∀ st, j.status = some st → 0 < st → st < 256 →
      ∃ s', exec .sealJobComplete s = .next s' ∧ s'.so.sealing.jobs = [] ∧ memNat s'.sram (at' + 44) 4 = st ∧
        s'.so.sealing.batch = b ∧
        ∀ x, x < at' + 44 ∨ at' + 48 ≤ x → memByte s'.sram x = memByte s.sram x) ∧
    (∀ s1 s2 s3 pay terms dig out,
      j.status = none → d ≠ [] → paylen ≤ 16777216 → leAt d 28 2 ≤ 4096 → ctl < 8 → (∀ x ∈ slice d 43 1 ++ slice d 58 6, x = 0) →
      jobRead s (leAt d 0 8) paylen = (s1, .ok pay) →
      readTerms (leAt d 28 2) s1 (leAt d 0 8 + 64 * ((paylen + 63) / 64)) = (s2, .ok terms) →
      jobRead s2 (leAt d 16 8) 144 = (s3, .ok dig) →
      entry < 8192 → (ptGet s3 entry).st = .accepted →
      globalOf (leAt d 8 8) = ⟨2, fabDev s3, out⟩ → leAt d 8 8 % 64 = 0 → fabDev s3 = fabDev s →
      let x := ptGet s3 entry
      let tokens := tokensOf j.tKey terms
      let postmark := sha384 (slice dig 0 96 ++ x.idig ++ slice dig 96 48)
      let nonce := (sha384 (postmark ++ slice d 36 4 ++ slice d 30 2 ++ sha384 pay)).take 12
      let marks : Byte := match s3.so.parcels.find? (fun p => p.entry == entry && !isFinal p.st) with
        | some p => (if p.dbg then 1 else 0) ||| (if p.tevent then 2 else 0)
        | none => 0
      let header := [1, 1] ++ leBytes 2 tokens.length ++ slice d 24 4 ++ slice d 30 4 ++ slice d 36 4 ++ nonce ++
        leBytes 2 (fabDev s).toNat ++ [BitVec.ofNat 8 (ctl / 2) ||| marks] ++ [0]
      let ct := gcmCrypt (aesKeys j.iKey) nonce 0 pay
      let record := header ++ ct ++ gcmTag j.iKey nonce (header ++ tokens.flatten ++ postmark) ct ++ tokens.flatten ++ postmark
      out + record.length ≤ 0x30000000 → record.length < 2 ^ 32 → out + record.length ≤ at' + 44 ∨ at' + 58 ≤ out →
      NothingDue s3 → s3.so.sealing = s.so.sealing →
      b.leaves.length < ((devGet s3 0x80018).extractLsb' 16 11).toNat → dest ∈ b.dests ∨ b.dests.length < 64 →
      s.so.sealing.fw = [] →
      ∃ (s' : State) (told : List ReportFrame), exec .sealJobComplete s = .next s' ∧ s'.so.sealing.jobs = [] ∧
        memBytes s'.sram out record.length = record ∧ memNat s'.sram (at' + 44) 4 = 0 ∧
        memNat s'.sram (at' + 48) 4 = record.length ∧ memNat s'.sram (at' + 52) 4 = b.num.toNat ∧
        memNat s'.sram (at' + 56) 2 = b.leaves.length % 65536 ∧
        (∀ y, (y < out ∨ out + record.length ≤ y) → (y < at' + 44 ∨ at' + 58 ≤ y) → memByte s'.sram y = memByte s3.sram y) ∧
        s'.so.sealing.batch =
          { b with
            leaves := b.leaves ++ [sha384 (0 :: record)], dests := if dest ∈ b.dests then b.dests else b.dests ++ [dest] } ∧
        s'.outbox = s3.outbox ++ (told.flatMap fun f => [.report f, .report f]) ∧
        told.map (fun f => (f.account, f.counter, f.inc)) =
          (BitVec.ofNat 10 x.account.toNat, 2, 1) ::
            (if ctl % 2 = 1 then [(BitVec.ofNat 10 x.account.toNat, 1, x.ptLen)] else []))

/-- R474 to R477: a batch closes with its number, leaves and receipt, or its close is held; the signed receipt of batch b is
written at RCPT_BASE + 0x1_0000 × (b mod 16) as a record of TYPE 2, and firmware is signalled. -/
def Claim.Batches : Prop :=
  ∀ (s : State),
    let sb := s.so.sealing
    let b := sb.batch
    let held := decide (16 ≤ (b.num - devGet s 0x80030).toNat)
    let body := [1, 1] ++ leBytes 2 (fabDev s).toNat ++ leBytes 4 b.num.toNat ++ leBytes 2 b.leaves.length ++ [0, 0] ++
      leBytes 4 (activeImage s 1).version.toNat ++ slice (rootOf 11 b.leaves) 0 48 ++ sha384 dikPublic
    (∀ c ∈ Instr.batchCloseCmd :: (if batchIdle s = 0 then [] else [.batchIdleTimeout]),
      (b.leaves = [] → exec c s = .next s) ∧
      (b.leaves ≠ [] → held = true → exec c s = .next { s with so := { s.so with sealing := { sb with closeDue := true } } }) ∧
      (b.leaves ≠ [] → held = false → exec c s = .next
        { s with so := { s.so with sealing := { sb with
            signing := sb.signing ++ [⟨b.num, body, b.leaves⟩], batch := ⟨b.num + 1, [], []⟩, closeDue := false } } })) ∧
    (batchIdle s = 0 → exec .batchIdleTimeout s = .next s) ∧
    (∀ l1 l2 l3, rootOf 11 [l1] = l1 ∧ rootOf 11 [l1, l2] = sha384 (1 :: (l1 ++ l2)) ∧
      rootOf 11 [l1, l2, l3] = sha384 (1 :: (sha384 (1 :: (l1 ++ l2)) ++ l3))) ∧
    (∀ r rest, sb.signing = r :: rest →
      let signed := r.body ++ deviceSign r.body ++ r.leaves.flatten
      let receipt := [1, 2, 0, 0] ++ leBytes 4 signed.length ++ List.replicate 20 0 ++ leBytes 2 (fabDev s).toNat ++ [0, 0] ++
        signed
      let place := (devGet s 0x8002C ++ devGet s 0x80028).toNat + 0x10000 * (r.num.toNat % 16)
      ∃ s', exec .batchSigned s = .next s' ∧ s'.so.sealing.signing = rest ∧ s'.so.sealing.batch = b ∧
        s'.so.sealing.receipts = sb.receipts ++ [r.num] ∧
        ∀ off, globalOf place = ⟨2, fabDev s, off⟩ → off + receipt.length ≤ 0x30000000 →
          memBytes s'.sram off receipt.length = receipt ∧
          (∀ x, x < off ∨ off + receipt.length ≤ x → memByte s'.sram x = memByte s.sram x) ∧ s'.cores = s.cores)

/-- R480, R482: a report and a firmware command begin unless one runs; a report ends; VERIFY leaves its code and keeps a valid
image, ACTIVATE makes the last valid image the active one. That FW_RES is 0 after an ACTIVATE is the model's choice (log entry
50). -/
def Claim.ReportsAndImages : Prop :=
  ∀ (s : State) (kind : BitVec 8),
    let b := s.so.sealing
    (dark s = false → b.att = [] → ∃ s' nonce, exec .attGo s = .next s' ∧
      s'.so.sealing.att = [⟨nonce, some (devPair s 0x80048), none⟩]) ∧
    (b.att ≠ [] → exec .attGo s = .next s) ∧
    (∀ a rest, b.att = a :: rest → a.hole = none → ∃ s', exec .attestReportDone s = .next s' ∧ s'.so.sealing.att = rest ∧
      ∀ addr off, a.addr = some addr → globalOf addr = ⟨2, fabDev s, off⟩ →
        off + (attestReport s a.nonce).length ≤ 0x30000000 →
        memBytes s'.sram off (attestReport s a.nonce).length = attestReport s a.nonce) ∧
    (dark s = false → b.fw = [] →
      (∃ s' img, exec (.fwVerify kind) s = .next s' ∧ s'.so.sealing.fw = [.verify kind.toNat img none]) ∧
      ∃ s', exec (.fwActivate kind) s = .next s' ∧ s'.so.sealing.fw = [.activate kind.toNat none]) ∧
    (b.fw ≠ [] → exec (.fwVerify kind) s = .next s ∧ exec (.fwActivate kind) s = .next s) ∧
    (∀ img, b.fw = [.verify kind.toNat img none] → exec .fwCommandDone s = .next
      { s with so := { s.so with sealing := { b with
          fw := [], fwRes := verifyImage kind.toNat img,
          lastValid := if verifyImage kind.toNat img = 0 then tset imageDefault b.lastValid kind.toNat (some (imageOf img))
            else b.lastValid } } }) ∧
    (∀ x, b.fw = [.activate kind.toNat none] → kind ≠ 1 → tget imageDefault b.lastValid kind.toNat = some x →
      exec .fwCommandDone s = .next
        { s with so := { s.so with sealing := { b with
            fw := [], fwRes := 0, active := tset imageDefault b.active kind.toNat (some x) } } })

/-! ### The control cores and the clusters' registers (R484 to R492) -/

/-- R488, R489: maintenance of one line of the L2 by set and way writes a dirty line of shared SRAM, and drops it; a lock takes
its ways out of the cache and clears them. -/
def Claim.CacheMaintenance : Prop :=
  ∀ (s : State) (k : Fin 4) (way : BitVec 4) (set : BitVec 13) (v : Word),
    let i := 16 * set.toNat + way.toNat
    let w := min 8 (v.extractLsb' 0 4).toNat
    (lockedWays s ≤ way.toNat →
      (∀ l off, l2Get s i = some l → l.dirty = true → l.data.poison = 0 → l.line < mbxLines →
        globalOf (64 * l.line) = ⟨2, fabDev s, off⟩ → off < 0x30000000 →
        ∀ cmd after, (cmd, after) ∈
          [(Instr.cmoClean k true false way set, some { l with dirty := false }),
           (Instr.cmoCleanInvalidate k true false way set, none)] →
          ∃ s', exec cmd s = .next s' ∧ l2Get s' i = after ∧ (∀ j, j ≠ i → l2Get s' j = l2Get s j) ∧
            (∀ j, j < 64 → memByte s'.sram (off + j) = l.data.data.extractLsb' (8 * j) 8) ∧
            ∀ x, x < off ∨ off + 64 ≤ x → memByte s'.sram x = memByte s.sram x) ∧
      (∃ s', exec (.cmoInvalidate k true false way set) s = .next s' ∧ l2Get s' i = none ∧
        (∀ j, j ≠ i → l2Get s' j = l2Get s j) ∧ SameBytes s s')) ∧
    (way.toNat < lockedWays s → ∀ cmd ∈ [Instr.cmoClean k true false way set, .cmoInvalidate k true false way set,
      .cmoCleanInvalidate k true false way set], exec cmd s = .next s) ∧
    (dark s = false → ∃ s', exec (.l2LockWrite k v) s = .next s' ∧ lockedWays s' = w ∧
      ∀ a, 0x80000 * min (lockedWays s) w ≤ a → a < 0x80000 * max (lockedWays s) w → memByte s'.l2 a = 0)

/-- R485, R487, R489: maintenance of a range acts on every line that overlaps it, in the L1 of every control core and in the L2:
invalidate drops the lines unwritten; clean writes a dirty line of the L2 back, here to shared SRAM, and keeps it; both does both.
That the instruction caches take part only in an invalidation is the model's choice (log entry 109). -/
def Claim.RangeMaintenance : Prop :=
  ∀ (s : State) (k : Fin 4) (l1only : Bool) (way : BitVec 4) (set : BitVec 13),
    let lo := (soGet s k.val 0x090).toNat
    let len := (soGet s k.val 0x094).toNat
    let base (n : Nat) : Nat :=
      ((soGet s k.val (8 * n)).toNat / 2 ^ 27 * 2 ^ 27 + (soGet s k.val (8 * n + 4)).toNat * 2 ^ 32) % 2 ^ 64
    let lineAt (x : Nat) : Option Nat :=
      if x < 0x20000 then some (romLines + x / 64)
      else if 0x20000000 ≤ x ∧ x < 0x20040000 then some (mbxLines + (x - 0x20000000) / 64)
      else if 0x80000000 ≤ x ∧ x < 2 ^ 32 then some ((base ((x - 0x80000000) / 2 ^ 27) + x % 2 ^ 27) / 64)
      else none
    let inRange (id : Nat) : Prop := ∃ x, lo ≤ x ∧ x < lo + len ∧ lineAt x = some id
    let gone (old new : Nat → Option CLine) : Prop := ∀ i,
      (∀ l, old i = some l → inRange l.line → new i = none) ∧ ((∀ l, old i = some l → ¬ inRange l.line) → new i = old i)
    let l1i (s : State) (i : Nat) : Option CLine := tget lineDefault s.so.l1i i
    let due (i : Nat) (l : CLine) : Prop := l2Get s i = some l ∧ inRange l.line ∧ l.dirty = true
    let off (l : CLine) : Nat := (globalOf (64 * l.line)).off
    (s.so.l1.map (·.1)).Nodup → (s.so.l1i.map (·.1)).Nodup → (s.so.l2c.map (·.1)).Nodup →
    (∃ s', exec (.cmoInvalidate k false l1only way set) s = .next s' ∧ gone (l1Get s) (l1Get s') ∧ gone (l1i s) (l1i s') ∧
      gone (l2Get s) (l2Get s') ∧ SameBytes s s') ∧
    ((∀ i l, l1Get s i = some l → inRange l.line → l.dirty = false) →
      (∀ i l, due i l → l.line < mbxLines ∧ globalOf (64 * l.line) = ⟨2, fabDev s, off l⟩ ∧ off l < 0x30000000 ∧
        l.data.poison = 0) →
      ∀ both : Bool, ∃ s',
        exec (if both then .cmoCleanInvalidate k false l1only way set else .cmoClean k false l1only way set) s = .next s' ∧
        (both = true → gone (l1Get s) (l1Get s') ∧ gone (l1i s) (l1i s') ∧ gone (l2Get s) (l2Get s')) ∧
        (both = false → l1Get s' = l1Get s ∧ l1i s' = l1i s ∧ ∀ i,
          (∀ l, due i l → l2Get s' i = some { l with dirty := false }) ∧ ((∀ l, ¬ due i l) → l2Get s' i = l2Get s i)) ∧
        (∀ i l, due i l → (∀ i' l', due i' l' → off l' = off l → i' = i) →
          ∀ j, j < 64 → memByte s'.sram (off l + j) = l.data.data.extractLsb' (8 * j) 8) ∧
        ∀ x, (∀ i l, due i l → x < off l ∨ off l + 64 ≤ x) → memByte s'.sram x = memByte s.sram x)

/-- R33, R113, R331, R491, R492, R567: a core of the cluster is held in reset with its local memory kept, and released; the
window reads and writes the CSRs of a core of the cluster, and an access it refuses sets CSRERR. That a release in a cluster
that is OFF has no effect is the model's choice (log entry 143). -/
def Claim.ClusterControl : Prop :=
  ∀ (s : State) (c : Fin 8) (n : Nat) (site : Nat) (v : Word), n < 1024 → siteOf s n = some site → clusterOf site = c →
    let core := getCore s site
    (∃ s', exec (.coreResetHold c n) s = .next s' ∧ (getCore s' site).held = true ∧
      (getCore s' site).mem = core.mem ∧ (getCore s' site).th = (coreDefault site).th ∧
      (getCore s' site).csr = [] ∧ (getCore s' site).gates = [] ∧
      ∀ j, j ≠ site → getCore s' j = getCore s j) ∧
    (core.held = true → (getCl s c).power ≠ .off →
      exec (.coreResetRelease c n) s = .next (modCore s site fun k => { k with held := false, cycBase := clockOf s site })) ∧
    (core.held = false → (getCl s c).power ≠ .off → exec (.coreResetRelease c n) s = .next (modCore s site id)) ∧
    ((getCl s c).power = .off → exec (.coreResetRelease c n) s = .next s) ∧
    (∃ s', exec (.clusterResetHold c) s = .next s' ∧ (∀ x ∈ clusterSites s c, (getCore s' x).held = true) ∧
      ∀ x, x ∉ clusterSites s c → getCore s' x = getCore s x) ∧
    (dark s = false → core.held = false → csraCore s c = n →
      (csraOff s c = 0x1074 →
        (∃ s', exec (.clCsrdAccess c (some v)) s = .next s' ∧ csrGet (getCore s' site) 0x1074 = v ∧
          (∀ o, o ≠ 0x1074 → csrGet (getCore s' site) o = csrGet core o) ∧ s'.outbox = s.outbox) ∧
        ∃ s', exec (.clCsrdAccess c none) s = .next s' ∧ s'.outbox = s.outbox ++ [.word (csrGet core 0x1074)] ∧
          getCore s' site = core) ∧
      (0xA000 ≤ csraOff s c → ∃ s', exec (.clCsrdAccess c none) s = .next s' ∧ (getCl s' c).csrErr = true ∧
        s'.outbox = s.outbox ++ [.word 0] ∧ s'.cores = s.cores))

/-- R4, R6, R490, R494, R495: a write of a register stores its RW bits and clears W1C bits: of a core through its cluster, of
device CSR space, of a control core's page; the host's write to a pigeonhole is in the mailbox SRAM. -/
def Claim.RegisterWrites : Prop :=
  ∀ (s : State) (v : Word), dark s = false →
    (∀ n site, siteOf s n = some site → (getCore s site).held = false →
      ∃ s', exec (.registerWrite (.core n 0x1074) v) s = .next s' ∧ csrGet (getCore s' site) 0x1074 = v ∧
        ∀ j, j ≠ site → getCore s' j = getCore s j) ∧
    (∀ (p : Fin 16) (r : Nat), r < 0x1000 → r % 4 = 0 → ∃ s',
      let o := 0x60000 + 0x1000 * p.val + r
      exec (.registerWrite (.dev (BitVec.ofNat 32 o)) v) s = .next s' ∧ s' = { s with dev := s'.dev } ∧
        devGet s' o = (devReg o).write (devGet s o) v ∧ ∀ x, x ≠ o → devGet s' x = devGet s x) ∧
    (∀ (k : Fin 4) (i : Fin 32), ∃ s', exec (.registerWrite (.so k (BitVec.ofNat 12 (4 * i.val))) v) s = .next s' ∧
      s' = { s with soCsr := s'.soCsr } ∧
      soGet s' k.val (4 * i.val) = (soReg (4 * i.val)).write (soGet s k.val (4 * i.val)) v) ∧
    (∀ o : BitVec 18, o.toNat % 4 = 0 → 0x1000 ≤ o.toNat →
      ∃ s', exec (.registerWrite (.bar0 o) v) s = .next s' ∧ s' = { s with mbx := s'.mbx } ∧ memWord s'.mbx o.toNat = v ∧
        ∀ x, x < o.toNat ∨ o.toNat + 4 ≤ x → memByte s'.mbx x = memByte s.mbx x)

/-! ### The mailbox (R498 to R515) -/

/-- R498, R499: a doorbell of a hole whose command is in progress, of hole 0, or before doorbells are taken is ignored and
counted; otherwise the command is in progress, or refused at once with its status and DETAIL. The order of the checks (code,
session, reduced service, length) is the model's choice (log entry 12). -/
def Claim.Doorbells : Prop :=
  ∀ (s : State) (h : BitVec 6), dark s = false →
    let rung : State := { s with so := { s.so with busy := s.so.busy ++ [⟨h, false, false, readyTickets s⟩] } }
    let taken := mailFetch (dropLines rung (mbxLines + 64 * h.toNat) 64) (holeBase h) (64 + min 4032 (holeLen s h))
    (h = 0 ∨ holeBusy s h = true ∨ s.so.ready = false → exec (.doorbell h) s = .next
      { s with so := { s.so with dbign := if s.so.dbign = 0xFFFF then 0xFFFF else s.so.dbign + 1 } }) ∧
    (h ≠ 0 → holeBusy s h = false → s.so.ready = true →
      (refusal s h = none → exec (.doorbell h) s = .next taken) ∧
      (∀ st d, refusal s h = some (st, d) → ∃ s', exec (.doorbell h) s = .next s' ∧
        Answered s' h st (BitVec.ofNat 32 d) 0 [] ∧ s'.so.busy = s.so.busy ∧ (CleanCaches s → s'.cores = s.cores)) ∧
      (cmdLen s h (holeCmd s h) = none → refusal s h = some (0x10, 0)) ∧
      (∀ n, cmdLen s h (holeCmd s h) = some n → holeFlags s h < 2 → allZero (memBytes s.mbx (holeBase h + 28) 36) = true →
        (s.so.open_ = false → holeCmd s h ≠ 1 → holeCmd s h ≠ 2 → refusal s h = some (0x14, 0)) ∧
        (s.so.open_ = true → isReduced s = true → cmdReduced (holeCmd s h) = false → refusal s h = some (0x13, 0)) ∧
        (s.so.open_ = true → isReduced s = false → holeLen s h ≠ n → refusal s h = some (0x11, n))))

/-- R500, R503, R480: HELLO opens a new session, IDENTIFY answers with the part's identity, and ATTEST waits for its report. -/
def Claim.Sessions : Prop :=
  ∀ (s : State) (h : BitVec 6), NothingDue s →
    (mayStart s h 0x01 = true → ∃ s', exec (.hello h) s = .next s' ∧ s'.so.session = s.so.session + 1 ∧ s'.so.open_ = true ∧
      Answered s' h 0 0 0 (leBytes 4 s.so.version.toNat ++ [BitVec.ofNat 8 s.mod.service, BitVec.ofNat 8 (phaseOf s), 0, 0] ++
        leBytes 4 (s.so.session + 1).toNat) ∧ (CleanCaches s → s'.cores = s.cores ∧ s'.dev = s.dev)) ∧
    (mayStart s h 0x02 = true → ∃ s', exec (.identify h) s = .next s' ∧
      Answered s' h 0 0 0 (orderingCode ++ beBytes 16 Config.serial.toNat ++ leBytes 4 (identCores s).toNat ++
        leBytes 4 Config.chain.length ++ (Config.chain.drop (holeArg s h 0 4)).take 3992) ∧
      (CleanCaches s → s'.cores = s.cores ∧ s'.dev = s.dev)) ∧
    (mayStart s h 0x03 = true → ∃ s', exec (.attest h) s = .next s' ∧ holeBusy s' h = true ∧ s'.mbx = s.mbx ∧
      s'.so.sealing = { s.so.sealing with att := s.so.sealing.att ++ [⟨holeBytes s h 0 48, none, some h⟩] })

/-- R498, R513, R570 to R572, R577, R578: LOAD_FIRMWARE hands the image, of the host's memory or of a global address, to the
sealing block, or ends at the first byte that cannot be read; ACTIVATE_FIRMWARE writes both flash slots and begins a hand-over,
a reload of Night Mail, or an update of the Franking die, and fails where nothing is staged. -/
def Claim.FirmwareImages : Prop :=
  ∀ (s : State) (h : BitVec 6) (host : HostData) (ok : Bool), NothingDue s →
    let kind := holeArg s h 0 1
    (mayStart s h 0x10 = true →
      (kind = 0 ∨ 3 < kind → ∃ s', exec (.loadFirmware h host) s = .next s' ∧ Answered s' h 0x12 0 0 []) ∧
      (1 ≤ kind → kind ≤ 3 → holeArg s h 1 1 = 0 →
        (∀ img, hostRead host (holeArg s h 16 8) = .ok img → ∃ s', exec (.loadFirmware h host) s = .next s' ∧
          s'.so.sealing = { s.so.sealing with fw := s.so.sealing.fw ++ [.verify kind img (some h)] } ∧
          holeBusy s' h = true ∧ s'.mbx = s.mbx) ∧
        (∀ o, hostRead host (holeArg s h 16 8) = .error o → ∃ s', exec (.loadFirmware h host) s = .next s' ∧
          Answered s' h 0x15 (BitVec.ofNat 32 o) 0 [] ∧ s'.so.sealing = s.so.sealing)) ∧
      (∀ off, 1 ≤ kind → kind ≤ 3 → holeArg s h 1 1 = 1 → globalOf (holeArg s h 8 8) = ⟨2, fabDev s, off⟩ →
        let n := holeArg s h 16 8
        off + n ≤ 0x30000000 → Clean s.sram off n → ∃ s', exec (.loadFirmware h host) s = .next s' ∧
          s'.so.sealing =
            { s.so.sealing with fw := s.so.sealing.fw ++ [.verify kind (memBytes s.sram off n) (some h)] } ∧
          holeBusy s' h = true ∧ s'.mbx = s.mbx) ∧
      (1 ≤ kind → kind ≤ 3 → 2 ≤ holeArg s h 1 1 → ∃ s', exec (.loadFirmware h host) s = .next s' ∧
        Answered s' h 0x12 1 0 [] ∧ s'.so.sealing = s.so.sealing)) ∧
    (mayStart s h 0x11 = true → 1 ≤ kind → kind ≤ 3 →
      (stagedImage s kind = none → ∃ s', exec (.activateFirmware h ok) s = .next s' ∧ Answered s' h 0x41 0 0 [] ∧
        s'.flash = s.flash) ∧
      (∀ x, stagedImage s kind = some x →
        (kind = 1 →
          (∃ s', exec (.activateFirmware h true) s = .next s' ∧ slotImage s' 0 = some x ∧ slotImage s' 1 = slotImage s 0 ∧
            s'.so.hand = 1 ∧ s'.so.switched = 0 ∧ s'.so.handHole = some h ∧ holeBusy s' h = true ∧ s'.mbx = s.mbx) ∧
          ∃ s', exec (.activateFirmware h false) s = .next s' ∧ Answered s' h 0x50 0x100 0 [] ∧ s'.so.hand = s.so.hand) ∧
        (kind = 2 → ∃ s', exec (.activateFirmware h ok) s = .next s' ∧ s'.nm.mode = .reloading ∧ s'.nm.loading = some x ∧
          s'.so.nmHole = some h ∧ holeBusy s' h = true) ∧
        (kind = 3 → ∃ s', exec (.activateFirmware h ok) s = .next s' ∧ s'.so.frHole = some h ∧ holeBusy s' h = true ∧
          s'.fr = { s.fr with incoming := some s.so.stagedFr } ∧ s'.outbox = s.outbox ++ [.update s.so.stagedFr] ∧
          s'.mbx = s.mbx)))

/-- R467, R468, R515: KEY_IMPORT and KEY_RETIRE queue their command of the key store. -/
def Claim.KeyCommands : Prop :=
  ∀ (s : State) (h : BitVec 6), NothingDue s →
    let slot := holeArg s h 0 2
    let n := holeArg s h 2 2
    (mayStart s h 0x20 = true →
      (8192 ≤ slot → ∃ s', exec (.keyImport h) s = .next s' ∧ Answered s' h 0x12 0 0 []) ∧
      (slot < 8192 → n ≤ 4024 → ∃ s', exec (.keyImport h) s = .next s' ∧
        s'.so.sealing = { s.so.sealing with ksRun := s.so.sealing.ksRun ++ [.importKey slot (holeBytes s h 8 n) (some h)] } ∧
        holeBusy s' h = true ∧ s'.mbx = s.mbx)) ∧
    (mayStart s h 0x21 = true → slot < 8192 → (getKey s slot).st ≠ .empty →
      (∃ s', exec (.keyRetire h) s = .next s' ∧ s'.so.sealing.ksRun = s.so.sealing.ksRun ++ [.retire slot (some h)] ∧
        (s.so.sealing.ksRun = [] → getKey s' slot = { getKey s slot with st := .retiring }) ∧
        (∀ j, j ≠ slot → getKey s' j = getKey s j) ∧ holeBusy s' h = true ∧ s'.mbx = s.mbx))

/-- R473, R503: MODEL_LOAD gives the model a free place of its tier, writes it there and answers with its digest and address;
MODEL_EVICT frees a model that no plan names. Where in its tier a model is placed is left open, and that firmware finds a
place is the model's choice (log entry 17), and so is that MODEL_LOAD of tier 1 waits for a test of a package (log entry 116). -/
def Claim.Models : Prop :=
  ∀ (s : State) (h : BitVec 6) (host : HostData), NothingDue s →
    let id : Word := BitVec.ofNat 32 (holeArg s h 0 4)
    let tier := holeArg s h 5 1
    (mayStart s h 0x30 = true → lpHolds s = false ∨ tier ≠ 1 →
      (2 < tier → ∃ s', exec (.modelLoad h host) s = .next s' ∧ Answered s' h 0x12 5 0 []) ∧
      (tier ≤ 2 → (∃ m ∈ s.so.models, m.id = id) →
        ∃ s', exec (.modelLoad h host) s = .next s' ∧ Answered s' h 0x22 0 0 [] ∧ s'.so.models = s.so.models) ∧
      (∀ img, tier ≤ 2 → (∀ m ∈ s.so.models, m.id ≠ id) → holeArg s h 4 1 = 0 → hostRead host (holeArg s h 16 8) = .ok img →
        s.so.regions = [] → CleanCaches s → img.length ≤ 0x2FFFFFC0 → (tier = 1 → lpAvail s = true) →
        ∃ s' r, exec (.modelLoad h host) s = .next s' ∧ s'.so.regions = [r] ∧ r.space = tier ∧ r.off % 64 = 0 ∧
          img.length ≤ r.len ∧ s'.so.models = s.so.models ++ [⟨id, sha384 img, r⟩] ∧
          (tier = 0 → memBytes s'.fab.hbm r.off img.length = img ∧ s'.sram = s.sram ∧ s'.fab.lp = s.fab.lp) ∧
          (tier = 1 → memBytes s'.fab.lp r.off img.length = img ∧ s'.sram = s.sram ∧ s'.fab.hbm = s.fab.hbm) ∧
          (tier = 2 → memBytes s'.sram r.off img.length = img ∧ s'.fab.hbm = s.fab.hbm ∧ s'.fab.lp = s.fab.lp ∧
            ∀ x, x < r.off ∨ r.off + img.length ≤ x → memByte s'.sram x = memByte s.sram x) ∧
          Answered s' h 0 0 0 (sha384 img ++ leBytes 8 (regionAddr s r)))) ∧
    (tier = 1 → lpHolds s = true → exec (.modelLoad h host) s = .next s) ∧
    (mayStart s h 0x31 = true →
      ((∀ m ∈ s.so.models, m.id ≠ id) → ∃ s', exec (.modelEvict h) s = .next s' ∧ Answered s' h 0x21 0 0 []) ∧
      (∀ m, s.so.models.find? (fun m => m.id == id) = some m →
        ((∃ p ∈ s.so.plans, planUses p id = true) → ∃ s', exec (.modelEvict h) s = .next s' ∧ Answered s' h 0x23 0 0 [] ∧
          s'.so.models = s.so.models) ∧
        ((∀ p ∈ s.so.plans, planUses p id = false) → ∃ s', exec (.modelEvict h) s = .next s' ∧ Answered s' h 0 0 0 [] ∧
          s'.so.models = s.so.models.erase m ∧ s'.so.regions = s.so.regions.erase m.place)))

/-- R503, R508: PLAN_DEFINE of length 0 deletes a plan; otherwise it defines one, and answers with its digest, or names the
field of the image that breaks its tables. -/
def Claim.Plans : Prop :=
  ∀ (s : State) (h : BitVec 6) (host : HostData), NothingDue s → mayStart s h 0x40 = true →
    let id : Word := BitVec.ofNat 32 (holeArg s h 0 4)
    let n := holeArg s h 16 4
    (planOf s id = none →
      (n = 0 → ∃ s', exec (.planDefine h host) s = .next s' ∧ Answered s' h 0x21 0 0 []) ∧
      (∀ img, n ≠ 0 → holeArg s h 4 1 = 0 → hostRead host n = .ok img →
        (planFault s img = none → ∃ s', exec (.planDefine h host) s = .next s' ∧ Answered s' h 0 0 0 (sha384 img) ∧
          s'.so.plans = s.so.plans ++ [⟨id, img, sha384 img⟩]) ∧
        (∀ o, planFault s img = some o → ∃ s', exec (.planDefine h host) s = .next s' ∧
          Answered s' h 0x12 (BitVec.ofNat 32 o) 0 [] ∧ s'.so.plans = s.so.plans))) ∧
    (planOf s id ≠ none →
      (n ≠ 0 → ∃ s', exec (.planDefine h host) s = .next s' ∧ Answered s' h 0x22 0 0 []) ∧
      (n = 0 → (∀ p ∈ s.so.parcels, p.plan = id → isFinal p.st = true) →
        ∃ s', exec (.planDefine h host) s = .next s' ∧ Answered s' h 0 0 0 [] ∧ planOf s' id = none ∧
          ∀ x, x ≠ id → planOf s' x = planOf s x))

/-- R504, R507: PARCEL_BUNDLE enters a descriptor as a PENDING parcel in the lowest FREE entry with a buffer of its length, and
numbers the bundle (where the buffer is placed is left open, log entry 17); PARCEL_STATUS answers with the states of a bundle,
and cancels those that are still PENDING. -/
def Claim.Bundles : Prop :=
  ∀ (s : State) (h : BitVec 6) (host : HostData), NothingDue s →
    let n := holeArg s h 8 4
    let b : BitVec 16 := BitVec.ofNat 16 (holeArg s h 0 2)
    let new := s.so.lastBundle + 1
    (mayStart s h 0x41 = true →
      (n = 0 ∨ 4096 < n → ∃ s', exec (.parcelBundle h host) s = .next s' ∧ Answered s' h 0x12 8 0 [] ∧
        s'.so.parcels = s.so.parcels) ∧
      (∀ ds e rest, n = 1 → hostRead host 32 = .ok ds → descFault s ds 0 = none → freeEntries s = e :: rest →
        s.so.regions = [] →
        ∃ s' r p, exec (.parcelBundle h host) s = .next s' ∧ s'.so.regions = [r] ∧ (r.space = 0 ∨ r.space = 2) ∧
          r.len = leAt ds 24 8 ∧ s'.so.lastBundle = new ∧ s'.so.parcels = s.so.parcels ++ [p] ∧ p.bundle = new ∧
          p.entry = e ∧ p.st = .pending ∧ p.plan = BitVec.ofNat 32 (leAt ds 16 4) ∧ p.buf = r ∧
          ptGet s' e =
            { PEntry.reset with
              st := .pending, object := slice ds 0 16, buf := BitVec.ofNat 64 (regionAddr s r),
              bufLen := BitVec.ofNat 64 r.len } ∧
          (∀ j, j ≠ e → ptGet s' j = ptGet s j) ∧ Answered s' h 0 0 0 (leBytes 2 new.toNat ++ leBytes 2 1))) ∧
    (mayStart s h 0x42 = true → 1 ≤ holeArg s h 4 2 → holeArg s h 4 2 ≤ 2016 →
      (holeArg s h 6 1 < 2 → bundleOf s b = [] → ∃ s', exec (.parcelStatus h) s = .next s' ∧ Answered s' h 0x21 0 0 []) ∧
      (holeArg s h 6 1 = 0 → holeArg s h 2 2 = 0 → (bundleOf s b).length = holeArg s h 4 2 →
        ∃ s', exec (.parcelStatus h) s = .next s' ∧ s'.so.parcels = s.so.parcels ∧
          Answered s' h 0 0 0 ((bundleOf s b).flatMap fun p => leBytes 2 (parcelWord p))) ∧
      (∀ p, holeArg s h 6 1 = 1 → s.so.parcels = [p] → p.bundle = b → p.st = .pending → holeArg s h 2 2 = 0 →
        holeArg s h 4 2 = 1 →
        ∃ s', exec (.parcelStatus h) s = .next s' ∧ s'.so.parcels = [{ p with st := .cancelled, code := 0 }] ∧
          (ptGet s' p.entry).st = .free ∧ s'.so.regions = s.so.regions.erase p.buf ∧
          Answered s' h 0 0 0 (leBytes 2 0x6000)))

/-- R20, R21, R331, R565 to R569: CLUSTER_DRAIN waits for the stages of its clusters, then holds their cores in reset; after 10
s the stages are forced out; CLUSTER_RETURN brings drained clusters back, a failed site replaced by the lowest spare, or makes a
cluster UNAVAILABLE whose holes break the routes. That drains that end together end in the order of their commands is the
model's choice (log entry 70). -/
def Claim.DrainAndReturn : Prop :=
  ∀ (s : State) (h : BitVec 6) (c : Fin 8),
    let m : BitVec 8 := BitVec.ofNat 8 (holeArg s h 0 1)
    let sites := clusterSites s c
    let numbers := (List.range s.perCluster).map (c.val * s.perCluster + ·)
    (NothingDue s → mayStart s h 0x50 = true → (∀ d : Fin 8, m.getLsbD d.val = true → (getCl s d).service = .inService) →
      (s.so.active = [] → ∃ s', exec (.clusterDrain h) s = .next s' ∧ Answered s' h 0 0 0 [m] ∧
        (∀ d : Fin 8, (getCl s' d).service = if m.getLsbD d.val then .drained else (getCl s d).service) ∧
        (m.getLsbD c.val = true → ∀ x ∈ sites, (getCore s' x).held = true)) ∧
      ((∀ d : Fin 8, m.getLsbD d.val = true → clusterBusy s d = true) → m ≠ 0 → ∃ s', exec (.clusterDrain h) s = .next s' ∧
        holeBusy s' h = true ∧
        (∀ d : Fin 8, (getCl s' d).service = if m.getLsbD d.val then .draining else (getCl s d).service) ∧
        s'.cores = s.cores)) ∧
    (settleSo s = s → (getCl s c).service = .draining → ∃ s', exec (.clusterDrainTimeout c) s = .next s' ∧
      (getCl s' c).service = .drained ∧ (∀ x ∈ sites, (getCore s' x).held = true) ∧ clusterBusy s' c = false) ∧
    (settleSo s = s → (getCl s c).service ≠ .draining → exec (.clusterDrainTimeout c) s = .next s) ∧
    (NothingDue s → mayStart s h 0x51 = true →
      ((∀ d : Fin 8, m.getLsbD d.val = true → isDrained s d = true ∧ s.perCluster ≤ goodCount s.siteState d) →
        s.so.marks = [] → holesOk s.siteState = true → (∀ p ∈ s.coreSite, ∀ x, p.2 = some x → siteSt s.siteState x = .enabled) →
        ∃ s', exec (.clusterReturn h) s = .next s' ∧ Answered s' h 0 0 0 [m] ∧ s'.coreSite = s.coreSite ∧
          ∀ d : Fin 8, (getCl s' d).service = if m.getLsbD d.val then .inService else (getCl s d).service) ∧
      (m = 1 <<< c.val → isDrained s c = true → holesOk (markedMap s c) = false →
        ∃ s', exec (.clusterReturn h) s = .next s' ∧ Answered s' h 0x26 0 0 [0] ∧ (getCl s' c).service = .unavailable ∧
          (CleanCaches s → ∀ d, d ≠ c → getCl s' d = getCl s d)) ∧
      (∀ n x y, m = 1 <<< c.val → isDrained s c = true → holesOk (markedMap s c) = true →
        s.perCluster ≤ goodCount (markedMap s c) c → n ∈ numbers → siteOf s n = some x →
        siteSt (markedMap s c) x = .disabled → (sitesIn (markedMap s c) c .spare).head? = some y →
        (∀ k ∈ numbers, k ≠ n → ∃ z, siteOf s k = some z ∧ siteSt (markedMap s c) z = .enabled) →
        ∃ s', exec (.clusterReturn h) s = .next s' ∧ Answered s' h 0 0 0 [m] ∧ siteOf s' n = some y ∧
          (∀ k, k ≠ n → siteOf s' k = siteOf s k) ∧ siteSt s'.siteState y = .enabled ∧
          siteSt s'.siteState x = .disabled ∧ (getCl s' c).service = .inService))

/-- R26, R27, R510, R527, R528: SET_OPPOINT without COMPAT512 sets the requests of its clusters; the effective point is the
slower of request and ceiling, and a raising waits from then on; with COMPAT512 every cluster must be drained. That a raising
waits anew when the effective point changes (log entry 51) and that the answer holds the effective points (log entry 68) is the
model's choice. -/
def Claim.SetOppoint : Prop :=
  ∀ (s : State) (h : BitVec 6), NothingDue s → mayStart s h 0x52 = true →
    let m := holeArg s h 0 1
    let p := holeArg s h 1 1
    let ctl := holeArg s h 2 1
    (3 < p → ∃ s', exec (.setOppoint h) s = .next s' ∧ Answered s' h 0x12 1 0 [] ∧
      (CleanCaches s → s'.clusters = s.clusters)) ∧
    (p ≤ 3 → 3 < ctl → ∃ s', exec (.setOppoint h) s = .next s' ∧ Answered s' h 0x12 2 0 [] ∧
      (CleanCaches s → s'.clusters = s.clusters)) ∧
    (p ≤ 3 → ctl = 0 → ∃ s', exec (.setOppoint h) s = .next s' ∧
      Answered s' h 0 0 0 (allClusters.map fun c => (getCl s' c).eff.setWidth 8) ∧ 
      (CleanCaches s → s'.cores = s.cores ∧ ∀ c : Fin 8, maskBit m c.val = false → getCl s' c = getCl s c) ∧
      ∀ c : Fin 8, maskBit m c.val = true →
        (getCl s' c).req.toNat = p ∧ (getCl s' c).ceil = (getCl s c).ceil ∧ (getCl s' c).run = (getCl s c).run ∧
        (getCl s' c).eff.toNat = max p (getCl s c).ceil.toNat ∧
        ((getCl s' c).eff ≠ (getCl s c).eff →
          (getCl s' c).raise = if (getCl s' c).eff < (getCl s c).run then some s.meshCycle else none)) ∧
    (∀ c, p ≤ 3 → ctl = 1 ∨ ctl = 3 → allClusters.find? (fun c => !isDrained s c) = some c →
      ∃ s', exec (.setOppoint h) s = .next s' ∧ s'.coreSite = s.coreSite ∧
        if Config.grade512 then Answered s' h 0x12 2 0 [] else Answered s' h 0x20 (BitVec.ofNat 32 c.val) 0 [])

/-- R388, R448, R515, R575, R576: HBM_RETIRE begins the retirement of a stack, unless one is retired; PORT_TRAIN writes
PORT_CFG and starts a training; PORT_RETIRE of a port that carries nothing is done at once. That MODE off is a bad field at 4, and
the answers of PORT_RETIRE for a port that is DOWN, RETIRED or FAILED, are the model's choice (log entry 69). -/
def Claim.StacksAndPorts : Prop :=
  ∀ (s : State) (h : BitVec 6), NothingDue s →
    let k := holeArg s h 0 1
    let cfg := devGet s 0x40000
    (mayStart s h 0x58 = true →
      (15 < k → ∃ s', exec (.hbmRetire h) s = .next s' ∧ Answered s' h 0x12 0 0 []) ∧
      (k ≤ 15 → cfg.extractLsb' 30 2 ≠ 0 → ∃ s', exec (.hbmRetire h) s = .next s' ∧
        Answered s' h 0x25 ((cfg.extractLsb' 0 4).setWidth 32) 0 [] ∧ (CleanCaches s → s'.dev = s.dev)) ∧
      (k ≤ 15 → cfg.extractLsb' 30 2 = 0 → ∃ s', exec (.hbmRetire h) s = .next s' ∧ holeBusy s' h = true ∧
        s'.so.hbmHole = some h ∧ devGet s' 0x40000 = 0x40000000#32 ||| BitVec.ofNat 32 k ∧ devGet s' 0x40004 = 0 ∧
        ∀ o, o ≠ 0x40000 → o ≠ 0x40004 → devGet s' o = devGet s o)) ∧
    (mayStart s h 0x60 = true → k ≤ 15 → holeArg s h 1 1 ≤ 1 →
      let v : Word := BitVec.ofNat 32 (holeArg s h 4 4)
      let want := if v = 0xFFFFFFFF then devGet s (portBase k) else (devReg (portBase k)).write (devGet s (portBase k)) v
      let mode := (want.extractLsb' 30 2).toNat
      (mode ≠ 1 → mode ≠ 2 → ∃ s', exec (.portTrain h) s = .next s' ∧ Answered s' h 0x12 4 0 [] ∧
        (CleanCaches s → s'.dev = s.dev)) ∧
      (mode = 1 ∨ mode = 2 → portState s k ≠ 1 → portState s k ≠ 2 → portState s k ≠ 3 → portState s k ≠ 4 →
        ∃ s', exec (.portTrain h) s = .next s' ∧ portState s' k = 1 ∧ (getPort s' k).hole = some h ∧
          (getPort s' k).cfg = want ∧ (getPort s' k).phase = .detect ∧ holeBusy s' h = true ∧
          ∀ q, q ≠ k → getPort s' q = getPort s q)) ∧
    (mayStart s h 0x61 = true →
      (15 < k → ∃ s', exec (.portRetire h) s = .next s' ∧ Answered s' h 0x12 0 0 []) ∧
      (k ≤ 15 → portState s k = 6 → ∃ s', exec (.portRetire h) s = .next s' ∧ Answered s' h 0 0 0 []) ∧
      (k ≤ 15 → portState s k = 5 → ∃ s', exec (.portRetire h) s = .next s' ∧ Answered s' h 0x26 0 0 [] ∧
        (CleanCaches s → s'.dev = s.dev)) ∧
      (k ≤ 15 → portState s k = 0 → getPort s k = Port.reset → ∃ s', exec (.portRetire h) s = .next s' ∧
        Answered s' h 0 0 0 [] ∧ portState s' k = 6))

/-- R430, R514, R526, R561: ROUTE_LOAD writes its records (a device that has an identifier lets its ports carry data),
METER_READ answers with records of the mirror, NIGHTMAIL_CONFIG queues parameters for the next tick, and DEBUG_ATTACH opens or
closes sessions. That METER_READ names the first item out of range at 2 is the model's choice (log entry 71). -/
def Claim.ServiceCommands : Prop :=
  ∀ (s : State) (h : BitVec 6), NothingDue s →
    (mayStart s h 0x62 = true →
      let dev := holeArg s h 0 2
      let o := holeArg s h 8 4
      let v : Word := BitVec.ofNat 32 (holeArg s h 12 4)
      (503 < holeArg s h 2 2 → ∃ s', exec (.routeLoad h) s = .next s' ∧ Answered s' h 0x12 2 0 []) ∧
      (holeArg s h 2 2 = 1 → routeLoadable o = false → ∃ s', exec (.routeLoad h) s = .next s' ∧ Answered s' h 0x12 8 0 [] ∧
        (CleanCaches s → s'.dev = s.dev)) ∧
      (holeArg s h 2 2 = 0 → ∃ s', exec (.routeLoad h) s = .next s' ∧ Answered s' h 0 0 0 [] ∧
        devGet s' 0x70000 = (if dev = 0xFFFF then devGet s 0x70000 else BitVec.ofNat 32 dev) ∧
        (CleanCaches s → ∀ x, x ≠ 0x70000 → (∀ p, p < 16 → x ≠ portBase p + 4) → devGet s' x = devGet s x) ∧
        ∀ p, p < 16 → portState s' p =
          if portState s p = 2 ∨ portState s p = 3 then (if dataStopped s' p then 3 else 2) else portState s p) ∧
      (holeArg s h 2 2 = 1 → dev = 0xFFFF → 0x1000 ≤ o → o < 0x1A00 → o % 4 = 0 → s.fab.waiting = [] →
        (∀ p, chosenPort (devGet s (0x70000 + o)) = some p → (getPort s p).replay = []) →
        ∃ s', exec (.routeLoad h) s = .next s' ∧ Answered s' h 0 0 0 [] ∧ devGet s' (0x70000 + o) = v &&& 0xC00000FF ∧
          (CleanCaches s → ∀ x, x ≠ 0x70000 + o → (∀ p, p < 16 → x ≠ portBase p + 4) → devGet s' x = devGet s x))) ∧
    (mayStart s h 0x80 = true →
      let first := holeArg s h 2 2
      let n := holeArg s h 4 2
      (2 < holeArg s h 0 1 → ∃ s', exec (.meterRead h) s = .next s' ∧ Answered s' h 0x12 0 0 []) ∧
      (∀ base size total most, (holeArg s h 0 1, base, size, total, most) ∈
          [(0, 0x100, 32, 8, 8), (1, 0x4000, 32, 1024, 126), (2, 0xC000, 16, 1024, 252)] →
        (total ≤ first → ∃ s', exec (.meterRead h) s = .next s' ∧ Answered s' h 0x12 2 0 []) ∧
        (first < total → most < n ∨ total < first + n → ∃ s', exec (.meterRead h) s = .next s' ∧ Answered s' h 0x12 4 0 []) ∧
        (n ≤ most → first + n ≤ total → first < total → ∃ s', exec (.meterRead h) s = .next s' ∧ s'.fr = s.fr ∧
          Answered s' h 0 0 0 ((List.range (size * n / 4)).flatMap fun i => leBytes 4 (frWord s (base + size * first + 4 * i)).toNat)))) ∧
    (mayStart s h 0x90 = true →
      let n := holeArg s h 0 2
      let recs := (List.range n).map fun i => (holeArg s h (4 + 6 * i) 2, holeArg s h (6 + 6 * i) 4)
      (n = 0 ∨ 671 < n → ∃ s', exec (.nightmailConfig h) s = .next s' ∧ Answered s' h 0x12 0 0 [] ∧ s'.nm = s.nm) ∧
      (1 ≤ n → n ≤ 671 → (∀ r ∈ recs, nmRecordOk r = true) → ∃ s', exec (.nightmailConfig h) s = .next s' ∧
        Answered s' h 0 0 0 [] ∧ s'.nm = { s.nm with pend := s.nm.pend ++ recs })) ∧
    (mayStart s h 0xA0 = true →
      let on := holeArg s h 0 1
      let m : BitVec 8 := BitVec.ofNat 8 (holeArg s h 1 1)
      (1 < on → ∃ s', exec (.debugAttach h) s = .next s' ∧ Answered s' h 0x12 0 0 [] ∧ s'.dbgSession = s.dbgSession) ∧
      (on ≤ 1 → ∃ s', exec (.debugAttach h) s = .next s' ∧
        s'.dbgSession = (if on = 1 then s.dbgSession ||| m else s.dbgSession &&& ~~~m) ∧
        Answered s' h 0 0 0 [s'.dbgSession] ∧ (CleanCaches s → s'.cores = s.cores) ∧
        (∀ a ∈ s.so.active, s'.dbgSession.getLsbD (clusterOfCore s a.1).val = true →
          ∀ p ∈ s'.so.parcels, p.uid = a.2 → p.dbg = true)))

/-- R9, R23, R512, R562, R577, R606: RESET_UNIT resets a drained unit, and refuses one that is not drained or may not be reset.
What a reset leaves, and that the next ticket is 0 after a reset of Identity and Service, is the model's choice (log entry 62).
-/
def Claim.ResetUnit : Prop :=
  ∀ (s : State) (h : BitVec 6), NothingDue s → CleanCaches s → mayStart s h 0xB0 = true →
    let code := holeArg s h 0 1
    let i := holeArg s h 1 1
    (code = 0x0A → ∃ s', exec (.resetUnit h) s = .next s' ∧ Answered s' h 0x28 0 0 [] ∧ s'.dev = s.dev) ∧
    (code = 0 ∨ 0x0B < code → ∃ s', exec (.resetUnit h) s = .next s' ∧ Answered s' h 0x12 0 0 [] ∧ s'.dev = s.dev) ∧
    (code = 0x06 → i < 16 → portState s i = 2 → ∃ s', exec (.resetUnit h) s = .next s' ∧
      Answered s' h 0x20 (BitVec.ofNat 32 i) 0 [] ∧ s'.fab = s.fab) ∧
    (code = 0x02 → i < 8 → isDrained s (Fin.ofNat 8 i) = true → ∃ s', exec (.resetUnit h) s = .next s' ∧
      Answered s' h 0 0 0 [] ∧ ∀ x ∈ clusterSites s (Fin.ofNat 8 i), (getCore s' x).held = true) ∧
    (code = 0x03 → i < 8 → unitDrained s 3 i = true → ∃ s', exec (.resetUnit h) s = .next s' ∧ Answered s' h 0 0 0 [] ∧
      s'.cores = s.cores ∧ (∀ k, k / 16 = i → getCh s' k = Channel.reset) ∧ (∀ k, k / 16 ≠ i → getCh s' k = getCh s k) ∧
      ∀ o, devGet s' o = if 0x20000 + 0x2000 * i ≤ o ∧ o < 0x20000 + 0x2000 * (i + 1) then (devReg o).reset else devGet s o) ∧
    (code = 0x05 → i < 16 → unitDrained s 5 i = true → ∃ s', exec (.resetUnit h) s = .next s' ∧ Answered s' h 0 0 0 [] ∧
      s'.cores = s.cores ∧
      ∀ o, devGet s' o = if 0x50000 ≤ o ∧ o < 0x60000 then (devReg o).reset else devGet s o) ∧
    (code = 0x0B → i = 0 → ∃ s', exec (.resetUnit h) s = .next s' ∧ Answered s' h 0 0 0 [] ∧ s'.so.nextTicket = 0 ∧
      s'.dev = s.dev ∧ s'.cores = s.cores)

/-- R393, R503, R511, R563, R568: SELFTEST and CALIBRATE of a drained unit start a test, and of another unit answer with a
ticket; a test that passes answers 0 and 0, a cluster's faulty site is marked, and a ticket's test is reported by an
event. Whether a test passes and which sites are faulty is an operand, and the result word of a failure is left open but for being
other than 0: that is the model's choice (log entry 60). -/
def Claim.Tests : Prop :=
  ∀ (s : State) (h : BitVec 6), NothingDue s →
    let u := holeArg s h 0 1
    let i := holeArg s h 1 1
    let lvl := holeArg s h 2 1
    (mayStart s h 0x70 = true →
      (u = 0x0A → ∃ s', exec (.selftest h) s = .next s' ∧ Answered s' h 0x28 0 0 []) ∧
      (u = 0x0B → i = 0 → 1 < lvl → ∃ s', exec (.selftest h) s = .next s' ∧ Answered s' h 0x12 2 0 []) ∧
      (u = 0x01 ∨ u = 0x09 ∨ u = 0x0B → i = 0 → lvl ≤ 1 → ∃ s', exec (.selftest h) s = .next s' ∧ holeBusy s' h = true ∧
        s'.so.tests = s.so.tests ++ [(h, ⟨u, i, lvl, false⟩)] ∧ s'.so.tickets = s.so.tickets) ∧
      (u = 0x02 → i < 8 → lvl ≤ 1 → isDrained s (Fin.ofNat 8 i) = false → s.so.tickets.length < 64 →
        ∃ s', exec (.selftest h) s = .next s' ∧ Answered s' h 0x1 0 s.so.nextTicket [] ∧
          s'.so.tickets = s.so.tickets ++ [(s.so.nextTicket, ⟨u, i, lvl, false⟩)] ∧
          s'.so.nextTicket = s.so.nextTicket + 1)) ∧
    (mayStart s h 0x71 = true → u = 0x04 → i < 16 → stackGone s i = false → ∃ s', exec (.calibrate h) s = .next s' ∧
      s'.so.tests = s.so.tests ++ [(h, ⟨4, i, 0, true⟩)] ∧ tget scrubDefault s'.fab.slowSlots i = 256 ∧
      holeBusy s' h = true) ∧
    (∀ t out, s.so.tests = [(h, t)] → holeBusy s h = true → stillSlow s t = false → s.fab.lpHeld = [] →
      (t.unit = 4 → stackGone s t.index = true → ∃ s' r, exec (.testComplete h out) s = .next s' ∧ s'.so.tests = [] ∧
        r ≠ (0 : Word) ∧ Answered s' h 0x26 0 0 (leBytes 4 r.toNat ++ [0, 0, 0, 0])) ∧
      (t.unit ≠ 2 → (t.unit = 4 → stackGone s t.index = false) → out.pass = true →
        ∃ s', exec (.testComplete h out) s = .next s' ∧ s'.so.tests = [] ∧
        Answered s' h 0 0 0 [0, 0, 0, 0, 0, 0, 0, 0]) ∧
      (t.unit ≠ 2 → (t.unit = 4 → stackGone s t.index = false) → out.pass = false →
        ∃ s' r, exec (.testComplete h out) s = .next s' ∧ s'.so.tests = [] ∧ r ≠ (0 : Word) ∧
        Answered s' h 0x50 out.detail 0 (leBytes 4 r.toNat ++ leBytes 4 out.detail.toNat)) ∧
      (∀ x, t.unit = 2 → t.level = 0 → out.faulty = [(x, false)] → x < 576 → x / 72 = t.index → siteSt s.siteState x = .enabled →
        s.so.marks = [] → ∃ s' r, exec (.testComplete h out) s = .next s' ∧ s'.so.marks = [(x, false)] ∧
          let d : Word := BitVec.ofNat 32 (65536 + x)
          Answered s' h 0x50 d 0 (leBytes 4 r ++ leBytes 4 d.toNat))) ∧
    (∀ t, ticketTurn s t = true → s.so.tickets = [t] → ∃ s', exec (.ticketStart t.1) s = .next s' ∧ s'.so.tickets = [] ∧
      s'.so.running = if t.2.unit = 4 ∧ stackGone s t.2.index = true then s.so.running else s.so.running ++ [t]) ∧
    (∀ t out, s.so.running = [t] → t.2.unit ≠ 2 → (t.2.unit = 4 → stackGone s t.2.index = false) → out.pass = true →
      s.fab.lpHeld = [] →
      ∃ s', exec (.ticketDone t.1 out) s = .next s' ∧ s'.so.running = [] ∧ s'.evtCount = s.evtCount + 1 ∧
        (s.evtProd + 1 ≠ (memWord s.mbx 0x804).extractLsb' 0 9 → s'.evtProd = s.evtProd + 1 ∧
          tget ringDefault s'.evtRing s.evtProd.toNat =
            (0#64 ++ s.evtCount ++ (t.1.extractLsb' 0 16 : BitVec 16) ++ 0x0002#16 : BitVec 128)))

/-- R181, R371, R505, R506, R509: STAGE_DISPATCH of a parcel whose stage may run releases its cores, posts to them and makes the
parcel RUNNING: the post goes to QUEUE with the parcel entry, the stage and TAG, at once where the core has nothing in flight.
STAGE_END lets the next stage follow, or fails the parcel. That the table entry is FREE once its parcel is final (log entry 42),
that a post to the stage queue ends the oldest stage of its sender (log entry 93) and that a dispatch which waits at the window
goes on when firmware next looks (log entry 115) is the model's choice. -/
def Claim.Stages : Prop :=
  ∀ (s : State),
    (∀ (e : Nat) p plan, settleSo s = s → liveParcel s e = some p → planOf s p.plan = some plan →
      let r := stageRec plan.image p.stage
      p.sent = false → (ptGet s e).st = .accepted → p.stage < planStages plan.image → s.so.hand = 0 →
      stageReady s plan.image r = true →
      ∃ s', exec (.stageDispatch e) s = .next s' ∧ (∀ a ∈ s.so.active, a ∈ s'.so.active) ∧
        (∃ p' ∈ s'.so.parcels, p'.uid = p.uid ∧ p'.st = .running ∧ p'.sent = true ∧ p'.stage = p.stage) ∧
        ∀ n ∈ stageCores r, ∃ site, siteOf s n = some site ∧
          ((getCl s (clusterOf site)).power ≠ .off → (getCore s' site).held = false) ∧
          let core := getCore s site
          let queue : BitVec 2 := BitVec.ofNat 2 (leAt r 4 1)
          let tag : Word := BitVec.ofNat 32 (leAt r 28 4)
          let posted : Prop := (n, p.uid) ∈ s'.so.active ∧ ∃ d : BitVec 128,
            .post (.here stageCore 0 0) n queue d ∈ s'.msgs ∧ d.extractLsb' 0 32 = BitVec.ofNat 32 e ∧
            d.extractLsb' 32 32 = BitVec.ofNat 32 p.stage ∧ d.extractLsb' 64 32 = tag ∧
            d.extractLsb' 96 32 = (fabDev s ++ BitVec.ofNat 10 stageCore ++ (0 : BitVec 2) ++ (0 : BitVec 4) : BitVec 32)
          (posted ∨ ∃ j ∈ s'.so.dispatch, j.core = n ∧ j.uid = p.uid ∧ j.entry = e ∧ j.stage = p.stage ∧
            j.steps.getLast? = some (.post queue tag)) ∧
          (leAt r 24 2 = 0 → core.rebind = none → core.vq = [] → core.tq = [] →
            core.numPend = [] → core.vscalePend = [] → core.tcfgPend = [] → posted)) ∧
    (∀ (n : Nat) (w : Word) q p plan, NothingDue s → s.stageQ = [q] → q.1 = n → q.2.1 = w → s.so.active = [(n, p.uid)] →
      s.so.parcels = [p] → p.st = .running → planOf s p.plan = some plan → p.bundle ∉ s.so.finals →
      let written := stageModeWritten s (stageRec plan.image p.stage)
      (w = 0 → written = false → p.stage + 1 < planStages plan.image → ∃ s', exec (.stageEnd n w) s = .next s' ∧
        s'.stageQ = [] ∧ s'.so.active = [] ∧ s'.so.parcels = [{ p with stage := p.stage + 1, sent := false }]) ∧
      (w ≠ 0 ∨ written = true → ∃ s', exec (.stageEnd n w) s = .next s' ∧ s'.stageQ = [] ∧ s'.so.active = [] ∧
        s'.so.parcels = [{ p with st := .failed, code := if w ≠ 0 then 0x10 else 0x11 }] ∧
        (ptGet s' p.entry).st = .free))

/-- R496, R592: a reset of the function, by PERST# too, masks every vector, zeroes EVT_CONS and EVT_CFG, ends the session and
makes the commands in progress quiet. -/
def Claim.FunctionReset : Prop :=
  ∀ (s : State) (c : Instr), c = .functionReset ∨ c = .perst → ∃ s', exec c s = .next s' ∧
    s' = { s with mbx := s'.mbx, so := { s.so with open_ := false, busy := s.so.busy.map fun b => { b with quiet := true } } } ∧
    (∀ v, v < 64 → (memByte s'.mbx (16 * v + 12)).getLsbD 0 = true ∧
      ∀ i, 1 ≤ i → (memByte s'.mbx (16 * v + 12)).getLsbD i = (memByte s.mbx (16 * v + 12)).getLsbD i) ∧
    (∀ i, i < 8 → memByte s'.mbx (0x804 + i) = 0) ∧
    ∀ x, (0x400 ≤ x ∨ x % 16 ≠ 12) → x < 0x804 ∨ 0x80C ≤ x → memByte s'.mbx x = memByte s.mbx x

/-! ### Hand-over and bring-up (R482, R537 to R541, R570 to R573, R577, R607) -/

/-- R486, R571 to R573: the cores restart from the staged image in ascending order, the last one handing over to ACTIVATE; a
failed start check turns the hand-over back, in descending order, to the old image and an error. That slot A takes the old image
at the end of a reversal is the model's choice (log entry 63). -/
def Claim.Handover : Prop :=
  ∀ (s : State) (k : Fin 4),
    let bit : BitVec 4 := 1 <<< k.val
    (s.so.hand ≠ 1 ∨ s.so.switched ≠ bit - 1 → ∀ ok, exec (.soCoreRestart k ok) s = .next s) ∧
    (s.so.hand = 1 → s.so.switched = bit - 1 →
      (∃ s', exec (.soCoreRestart k true) s = .next s' ∧ Restarted s s' k ∧ s'.so.hand = 1 ∧
        s'.so.switched = s.so.switched ||| bit ∧
        s'.so.sealing.fw = s.so.sealing.fw ++ (if k = 3 then [.activate 1 s.so.handHole] else [])) ∧
      ∃ s', exec (.soCoreRestart k false) s = .next s' ∧ Restarted s s' k ∧ s'.so.hand = 2 ∧ s'.so.handFail = some k.val ∧
        s'.so.toRevert = (List.range (k.val + 1)).reverse ∧ s'.so.sealing.fw = s.so.sealing.fw) ∧
    (s.so.hand ≠ 2 → exec (.handoverRevert k) s = .next s) ∧
    (∀ rest, s.so.hand = 2 → s.so.toRevert = k.val :: rest →
      (rest ≠ [] → ∃ s', exec (.handoverRevert k) s = .next s' ∧ Restarted s s' k ∧ s'.so.toRevert = rest ∧
        s'.so.switched = s.so.switched &&& ~~~bit ∧ s'.so.hand = 2) ∧
      (∀ h n, rest = [] → NothingDue s → s.so.handHole = some h → s.so.handFail = some n → holeBusy s h = true →
        ∃ s', exec (.handoverRevert k) s = .next s' ∧ Restarted s s' k ∧ s'.so.hand = 0 ∧ s'.so.switched = 0 ∧
          slotImage s' 0 = (match tget imageDefault s.so.sealing.active 1 with
            | some x => some x
            | none => slotImage s 1) ∧ Answered s' h 0x50 (BitVec.ofNat 32 (0x200 + n)) 0 []))

/-- R518, R539, R577: the loaded Night Mail image starts and becomes the active one; one that fails its start check gives way to
the previous image. That the image is in flash for the next bring-up and that a second row of the reload restores the previous
image is the model's choice (log entry 63). -/
def Claim.NightMailReload : Prop :=
  ∀ (s : State) (ok : Bool),
    (s.nm.mode ≠ .reloading → exec (.nightMailReloadDone ok) s = .next s) ∧
    (∀ x h, s.nm.mode = .reloading → s.nm.loading = some x → NothingDue s → s.so.nmHole = some h → holeBusy s h = true →
      (∃ s', exec (.nightMailReloadDone true) s = .next s' ∧ s'.nm.mode = .firmware ∧ s'.nm.image = some x ∧
        s'.nm.loading = none ∧ s'.nm.taken = [] ∧ s'.flash.nightMail = some x ∧ activeImage s' 2 = x ∧
        holeBusy s' h = false ∧ barNat s' (holeBase h + 16) 2 = 0) ∧
      exec (.nightMailReloadDone false) s = .next { s with nm := { s.nm with loading := none } }) ∧
    (∀ old h, s.nm.mode = .reloading → s.nm.loading = none → s.nm.image = some old → NothingDue s → s.so.nmHole = some h →
      holeBusy s h = true → ∃ s', exec (.nightMailReloadDone true) s = .next s' ∧ s'.nm.mode = .firmware ∧
        s'.nm.image = some old ∧ s'.so.sealing.active = s.so.sealing.active ∧ holeBusy s' h = false ∧
        barNat s' (holeBase h + 16) 2 = 0x50)

/-- R18 to R20, R388, R482, R537, R539 to R541, R607: the five phases of bring-up, each of which needs the one before it. That a
phase which waits comes again and that a stack which fails keeps the part in reduced service (log entry 73), and which of the
good sites are enabled (log entry 111), is the model's choice. -/
def Claim.BringUp : Prop :=
  ∀ (s : State) (hbmFail lpFail : BitVec 16),
    let configured (p : Nat) : Prop :=
      (devGet s (portBase p)).extractLsb' 30 2 = 1 ∨ (devGet s (portBase p)).extractLsb' 30 2 = 2
    (inPhase s 0 = true → ∃ s', exec .bringupPhaseA s = .next s' ∧ s'.mod.phase = 1 ∧ s'.meshCycle = 0 ∧
      s'.perCluster = (if Config.grade512 then 64 else 68) ∧
      (∀ x, x < 576 → siteSt s'.siteState x ∈
        (if fuseSite x = .enabled ∨ fuseSite x = .spare then [.enabled, .spare] else [fuseSite x])) ∧
      (∀ c : Fin 8, (sitesIn s'.siteState c .enabled).length =
        if s'.perCluster ≤ goodCount fuseMap c then s'.perCluster else (sitesIn fuseMap c .enabled).length) ∧
      s'.coreSite = formNumbering s'.siteState s'.perCluster ∧ s'.cores = s.cores) ∧
    (inPhase s 1 = true → s.mod.service = 0 →
      (bootImage s = none → ∃ s', exec .bringupPhaseB s = .next s' ∧ s'.mod.phase = 1 ∧ s'.mod.service = 1 ∧
        s'.so.ready = true ∧ (∀ k : Fin 4, Started s' k) ∧ ∀ j, j < 576 → getCore s' j = getCore s j) ∧
      (∀ x, bootImage s = some x → ∃ s', exec .bringupPhaseB s = .next s' ∧
        s'.mod.phase = (if holesOk s.siteState = true then 2 else 1) ∧ s'.so.version = x.version ∧ activeImage s' 1 = x ∧
        activeImage s' 2 = bootNm s ∧ s'.nm.mode = .firmware ∧
        s'.nm.image = some (bootNm s) ∧ (∀ k : Fin 4, Started s' k) ∧
        (holesOk s.siteState = true → s'.mod.service = s.mod.service ∧ s'.so.ready = s.so.ready) ∧
        (holesOk s.siteState = false → s'.mod.service = 1 ∧ s'.so.ready = true))) ∧
    (inPhase s 2 = true → s.mod.service = 0 → ∃ s', exec .bringupPhaseC s = .next s' ∧ s'.mod.phase = 3 ∧
      s'.mod.service = 1 ∧ s'.so.ready = true ∧ ∀ c : Fin 8, getCl s' c =
        if (c = 0 ∨ c = 4) ∧ hasCores s c = true then { getCl s c with power := .run, service := .inService } else getCl s c) ∧
    (inPhase s 3 = true → s.mod.hbmBad = false → hbmFail = 0 → ∃ s', exec (.bringupPhaseD hbmFail lpFail) s = .next s' ∧
      s'.mod.phase = 4 ∧
      s'.mod.hbmBad = false ∧ devGet s' 0x50000 = (if lpFail = 0 then 0x80000000 else lpFail.setWidth 32) ∧
      (∀ c : Fin 8, getCl s' c =
        if c ∈ otherClusters ∧ hasCores s c = true then { getCl s c with power := .run } else getCl s c) ∧
      ∀ k, s.flash.retired = some k → devGet s' 0x40000 = 0x80000000 ||| BitVec.ofNat 32 k) ∧
    (inPhase s 3 = true → s.mod.hbmBad = false → hbmFail ≠ 0 → s.flash.retired = none →
      ∃ s', exec (.bringupPhaseD hbmFail lpFail) s = .next s' ∧
      s'.mod.phase = 3 ∧ s'.mod.hbmBad = true ∧ s'.evtCount ≠ s.evtCount) ∧
    (inPhase s 4 = true → s.mod.hbmBad = false → s.mod.service = 1 →
      ((∀ p, p < 16 → ¬configured p ∧ inTraining s p = false) → ∃ s', exec .bringupPhaseE s = .next s' ∧
        s'.mod.phase = 5 ∧ s'.mod.service = 2 ∧ ∀ c : Fin 8,
          if (c ∈ otherClusters ∧ hasCores s c = true) ∨ (getCl s c).service = .inService then
            (getCl s' c).service = .inService ∧ (getCl s' c).req = 0 ∧ (getCl s' c).eff = (getCl s c).ceil
          else getCl s' c = getCl s c) ∧
      (∀ p, p < 16 → configured p → inTraining s p = false → ∃ s', exec .bringupPhaseE s = .next s' ∧
        s'.mod.phase = 5 ∧ s'.mod.service = 1 ∧ portState s' p = 1)) ∧
    (s.mod.started = false → ∀ i ∈ [Instr.bringupPhaseA, .bringupPhaseB, .bringupPhaseC, .bringupPhaseD hbmFail lpFail,
      .bringupPhaseE], exec i s = .next s)

/-! ### Night Mail, points and cluster power (R516 to R535, R542) -/

/-- R518 to R521, R523, R525, R527: a tick samples and filters the inputs and gives the clusters their ceilings; a fatal
condition that has held powers the module off, and a module in SHUTDOWN that may restart does. That the first of the table is
the cause that is kept, where several come due in one tick, is the model's choice (log entry 119). -/
def Claim.NightMailTick : Prop :=
  ∀ (s : State) (raw : List (BitVec 16)) (l0 l1 : Bool),
    let n0 := s.nm.pend.foldl applyParam s.nm
    let sampled := sampleTick s.nm raw l0 l1
    let cool := (List.range 48).all (fun i => decide (rawOf sampled i < tSHUTDOWN sampled - 320)) && !l0 && !l1
    (s.mod.mrst = false → s.mod.mode ≠ .shutdown → exec (.nightMailTick raw l0 l1) s = .next s) ∧
    (s.mod.mrst = true → s.mod.mode ≠ .shutdown → fatalCause sampled = none →
      ∃ s', exec (.nightMailTick raw l0 l1) s = .next s' ∧ s'.mod.mode = s.mod.mode ∧ s'.nm.pend = [] ∧
        s'.nm.leak0 = l0 ∧ s'.nm.leak1 = l1 ∧
        (∀ i ∈ filteredInputs, ∀ v, raw[i]? = some v →
          let x : Int := if i < 50 then v.toInt else v.toNat
          rawOf s'.nm i = x ∧
          filtOf s'.nm i = if tget countDefault n0.taken i = 0 then x else filtOf n0 i + (x - filtOf n0 i) / 2 ^ nmShift n0 i) ∧
        (∀ c : Fin 8, (getCl s' c).ceil = BitVec.ofNat 2 (ceilOf s'.nm c.val) ∧ (getCl s' c).run = (getCl s c).run ∧
          (getCl s' c).eff.toNat = max (getCl s c).req.toNat (getCl s' c).ceil.toNat ∧
          ((getCl s' c).ceil ≠ (getCl s c).ceil → (getCl s' c).eff ≠ (getCl s c).eff →
            byCeil (getCl s' c) = decide ((getCl s' c).eff ≠ (getCl s' c).run))) ∧
        (∀ v, raw[0]? = some v → 1680 ≤ v.toInt → s.nm.mode = .rom → s.nm.pend = [] → s.nm.params = [] → s.nm.level = [] →
          1 ≤ tget countDefault s.nm.held 64 → (getCl s' 0).ceil = 3)) ∧
    (∀ i v leak, s.mod.mrst = true → s.mod.mode ≠ .shutdown → fatalCause sampled = some (i, v, leak) →
      ∃ s', exec (.nightMailTick raw l0 l1) s = .next s' ∧ s'.mod.mode = .shutdown ∧ s'.mod.started = false ∧
        s'.mod.waitInput = false ∧
        s'.nm.cause = some (some (i, v)) ∧ s'.nm.pump = (if leak then 0 else s.nm.pump) ∧ s'.cores = [] ∧
        s'.sram = Mem.empty ∧ s'.fr = s.fr ∧ s'.flash = s.flash) ∧
    (∀ v, raw[0]? = some v → 1760 ≤ v.toInt → s.nm.mode = .rom → s.nm.pend = [] → 1 ≤ tget countDefault s.nm.held 128 →
      fatalCause sampled = some (0, v.toInt, false)) ∧
    (s.mod.mode = .shutdown → s.mod.held = true → cool = true →
      ∃ s', exec (.nightMailTick raw l0 l1) s = .next s' ∧ s'.mod.mode = .active ∧ s'.mod.started = true ∧
        s'.nm = { NightMail.reset with cause := s.nm.cause }) ∧
    (s.mod.mode = .shutdown → s.mod.held = false ∨ cool = false →
      ∃ s', exec (.nightMailTick raw l0 l1) s = .next s' ∧ s'.mod.mode = .shutdown ∧ s'.nm = sampled)

/-- R528 to R534: a point changes at its step, and the change is reported where the ceiling made it; a cluster with nothing to
do becomes IDLE; orders to NAP and OFF are carried out unless a wake cause has come; a woken cluster runs, and what waited for
it is applied. -/
def Claim.ClusterPower : Prop :=
  ∀ (s : State) (c : Fin 8),
    let k := getCl s c
    (k.eff = k.run → k.effAt ≠ some s.meshCycle → exec (.oppointStep c) s = .next s) ∧
    (s.meshCycle % 36 ≠ 0 → exec (.oppointStep c) s = .next s) ∧
    (∀ b, k.eff < k.run → k.effAt ≠ some s.meshCycle → k.raise = some b → s.meshCycle < b + 54000 →
      exec (.oppointStep c) s = .next s) ∧
    (s.meshCycle % 36 = 0 → k.effAt ≠ some s.meshCycle →
      k.run < k.eff ∨ (k.eff < k.run ∧ k.raise.any (fun b => decide (b + 54000 ≤ s.meshCycle)) = true) →
      ∃ s', exec (.oppointStep c) s = .next s' ∧
      getCl s' c = { k with run := k.eff, raise := none, ceilOld := false, stopUntil := s.meshCycle + 36 } ∧
      s'.cores = s.cores ∧ (∀ d, d ≠ c → getCl s' d = getCl s d) ∧
      ((devGet s' (clBase c + 0x48)).toNat / 65536 = min 65535 ((devGet s (clBase c + 0x48)).toNat / 65536 + 1)) ∧
      (byCeil k = false → s'.evtCount = s.evtCount ∧ s'.mod = s.mod) ∧
      (byCeil k = true → s'.evtCount = s.evtCount + 1 ∧ s'.mod.tevents.toNat = min 255 (s.mod.tevents.toNat + 1))) ∧
    (k.power = .run → k.waking = false → (∀ x ∈ clusterSites s c, coreBusy (getCore s x) = false) →
      exec (.clusterIdleEntry c) s = .next (modCl s c fun k => { k with power := .idle, quietTicks := 0 })) ∧
    (k.power ≠ .run ∨ k.waking = true ∨ (∃ x ∈ clusterSites s c, coreBusy (getCore s x) = true) →
      exec (.clusterIdleEntry c) s = .next s) ∧
    (k.napOrder = false → exec (.napOrder c) s = .next s) ∧
    (k.napOrder = true → exec (.napOrder c) s = .next (modCl s c fun k =>
      { k with
        napOrder := false
        power := if k.wakeSeen = false ∧ k.power = .idle ∧ (devGet s (clBase c + 0x40)).getLsbD 1 = true then .nap else k.power })) ∧
    (k.offOrder = false → exec (.offOrder c) s = .next s) ∧
    (k.offOrder = true →
      (k.wakeSeen = false → k.service = .drained → (devGet s (clBase c + 0x40)).getLsbD 0 = true → k.power ≠ .off →
        ∃ s', exec (.offOrder c) s = .next s' ∧ (getCl s' c).power = .off ∧ (getCl s' c).offOrder = false ∧
          (∀ x ∈ clusterSites s c, getCore s' x = { resetCore x (getCore s x) with mem := Mem.empty }) ∧
          ∀ x, x ∉ clusterSites s c → getCore s' x = getCore s x) ∧
      (k.wakeSeen = true ∨ k.service ≠ .drained ∨ (devGet s (clBase c + 0x40)).getLsbD 0 = false ∨ k.power = .off →
        exec (.offOrder c) s = .next (modCl s c fun k => { k with offOrder := false }))) ∧
    (dark s = false → exec (.clWake c) s = .next (modCl s c fun k =>
      { k with wakeSeen := true, waking := decide (k.waking = true ∨ k.power = .idle ∨ k.power = .nap) })) ∧
    (k.waking = false → exec (.clusterWakeDone c) s = .next s) ∧
    (k.waking = true →
      let up := modCl (if k.power = .nap then devCount s (clBase c + 0x48) 0 16 1 else s) c fun k =>
        { k with power := .run, waking := false, heldUnits := [], quietTicks := 0 }
      (k.heldUnits = [] → exec (.clusterWakeDone c) s = .next up) ∧
      (∀ m, k.heldUnits = [.msg m] → exec (.clusterWakeDone c) s = .next (applyMsg up m)))

/-! ### The management target and the pins (R523, R535, R592 to R603) -/

/-- R535, R596: STATUS tells mode, pump, leaks, phase and the input power; DORMANT is accepted only when everything is quiet and
keeps the external memories and Night Mail; WAKE leaves it for bring-up at phase B, with a restart of the report hub told twice
(R552). That the target is silent with MRST# low (log entry 75), what DORMANT needs (log entry 72) and that WAKE puts Night Mail
into ROM mode (log entry 142) is the model's choice. -/
def Claim.ManagementTarget : Prop :=
  ∀ (s : State),
    let say (bs : List Byte) : State := { s with outbox := s.outbox ++ [.i3c bs] }
    let quiet (out : List Output) (s' : State) : Prop := s'.outbox = s.outbox ++ out ∧ s'.cores = [] ∧ s'.sram = Mem.empty ∧
      s'.fr = s.fr ∧ s'.flash = s.flash ∧ s'.fab.hbm = s.fab.hbm ∧ s'.fab.lp = s.fab.lp
    (s.mod.mrst = false → ∀ i ∈ [Instr.i3cStatus, .dormant, .wake], exec i s = .next s) ∧
    (s.mod.mrst = true →
      exec .i3cStatus s = .next (say (
        [if s.mod.mode = .active then 0 else if s.mod.mode = .dormant then 1 else 2, s.nm.pump.setWidth 8,
         BitVec.ofNat 8 (s.mod.leak0.toNat + 2 * s.mod.leak1.toNat),
         if s.mod.started then BitVec.ofNat 8 (min 5 (s.mod.phase + 1)) else 0] ++
        leBytes 2 (BitVec.ofInt 16 (filtOf s.nm 54)).toNat)) ∧
      (s.mod.mode ≠ .active → exec .dormant s = .next (say [2])) ∧
      (s.mod.mode = .active → (∃ c, isDrained s c = false) ∨ s.so.sealing.jobs ≠ [] ∨ (∃ p, p < 32 ∧ getPipe s p ≠ none) →
        exec .dormant s = .next (say [1])) ∧
      (s.mod.mode = .active → (∀ c, isDrained s c = true) → s.so.sealing.jobs = [] → (∀ p, p < 32 → getPipe s p = none) →
        ∃ s', exec .dormant s = .next s' ∧ quiet [.ibi, .i3c [0]] s' ∧ s'.mod.mode = .dormant ∧ s'.mod.started = false ∧
          s'.nm = s.nm) ∧
      (s.mod.mode ≠ .dormant → exec .wake s = .next (say [2])) ∧
      (s.mod.mode = .dormant → ∃ s', exec .wake s = .next s' ∧ quiet [.hubStart, .hubStart, .ibi, .i3c [0]] s' ∧
        s'.mod.mode = .active ∧ s'.mod.started = true ∧
        s'.mod.phase = 1 ∧ s'.coreSite = formNumbering s'.siteState s'.perCluster))

/-- R523, R591 to R593, R595, R599, R603: MRST# low loses everything outside the Franking die; its rise samples the straps and
starts bring-up once the input is in range; a loss of input or of the reference is a SHUTDOWN; the leak traces are reported, and
a module that is held in SHUTDOWN by them alone restarts; SHDN# and LEAK# show the state. That a brownout, an overvoltage and
the loss of the reference do nothing with MRST# low is the model's choice (log entry 145). -/
def Claim.Pins : Prop :=
  ∀ (s : State) (slot : BitVec 4) (ext settled a : Bool),
    let cool := (List.range 48).all (fun i => decide (rawOf s.nm i < tSHUTDOWN s.nm - 320))
    let off (s' : State) : Prop := s'.mod.mode = .shutdown ∧ shdnPin s' = false ∧ s'.mod.waitInput = false ∧
      s'.mod.started = false ∧ s'.nm.cause = some none ∧
      s'.cores = [] ∧ s'.flash = s.flash ∧ s'.outbox = s.outbox ++ [.ibi]
    let sampled : Module := { s.mod with mrst := true, slot := slot, refExt := ext, waitInput := !settled }
    (s.mod.mrst = false →
      exec .mrstLow s = .next s ∧ exec .brownout s = .next s ∧ exec .refclk25Loss s = .next s ∧
      exec .inputInOperatingRange s = .next s ∧
      (s.mod.mode ≠ .shutdown → exec (.mrstRise slot ext settled) s = .next
        { s with mod := if settled then { sampled with started := true, waitInput := false, held := false } else sampled }) ∧
      exec (.leakTraceChange 0 a) s = .next { s with mod := { s.mod with leak0 := a } } ∧
      exec (.leakTraceChange 1 a) s = .next { s with mod := { s.mod with leak1 := a } }) ∧
    (s.mod.mrst = true →
      exec (.mrstRise slot ext settled) s = .next s ∧
      (s.mod.mode ≠ .shutdown → ∃ s', exec .mrstLow s = .next s' ∧ s'.mod.mrst = false ∧ s'.mod.started = false ∧
        s'.cores = [] ∧ s'.sram = Mem.empty ∧ s'.fab = Fabric.reset ∧ s'.nm = NightMail.reset ∧ s'.fr = s.fr ∧
        s'.flash = s.flash) ∧
      (s.mod.mode = .shutdown → exec .mrstLow s = .next
        { s with mod := { s.mod with mrst := false, waitInput := false, held := false } }) ∧
      (s.mod.waitInput = false → exec .inputInOperatingRange s = .next s) ∧
      (s.mod.waitInput = true → s.mod.mode ≠ .shutdown → exec .inputInOperatingRange s = .next
        { s with mod := { s.mod with started := true, waitInput := false, held := false } }) ∧
      (s.mod.mode ≠ .shutdown →
        (∃ s', exec .brownout s = .next s' ∧ off s' ∧ s'.fr = s.fr) ∧
        (∃ s', exec .overvoltage s = .next s' ∧ off s' ∧ (s.fr.powered = true → s'.fr = { s.fr with nv := s.fr.live })) ∧
        (s.mod.refExt = true → ∃ s', exec .refclk25Loss s = .next s' ∧ off s')) ∧
      (s.mod.refExt = false → exec .refclk25Loss s = .next s) ∧
      ((s.mod.mode = .shutdown → s.mod.held = false) →
        exec (.leakTraceChange 0 a) s = .next { s with
          mod := { s.mod with leak0 := a }, outbox := if s.mod.leak0 = a then s.outbox else s.outbox ++ [.ibi] } ∧
        exec (.leakTraceChange 1 a) s = .next { s with
          mod := { s.mod with leak1 := a }, outbox := if s.mod.leak1 = a then s.outbox else s.outbox ++ [.ibi] })) ∧
    (∀ i : Fin 2, s.mod.mrst = true → s.mod.mode = .shutdown → s.mod.held = true →
      let other := if i = 0 then s.mod.leak1 else s.mod.leak0
      ∃ s', exec (.leakTraceChange i a) s = .next s' ∧ leakPin s' = !(a || other) ∧
        s'.mod.mode = (if cool = true ∧ a = false ∧ other = false then .active else .shutdown) ∧
        shdnPin s' = decide (cool = true ∧ a = false ∧ other = false)) ∧
    prsntPin s = false

/-! ### The Franking die (R546 to R560) -/

/-- R547 to R549, R553, R558, R561: a sample adds to the sums of the rails in order; a window ends after 4,000 samples,
registers the energies of each rail over its own samples, commits, and starts a verified image; a converter that fails is left
out until its check passes. That the energy of a window is over the samples in which its rail had no fault is the model's choice
(log entry 140). -/
def Claim.Energy : Prop :=
  ∀ (s : State) (volts amps : List (BitVec 24)) (rail : Fin 8),
    let f := s.fr
    (f.powered = false → ∀ i ∈ [Instr.frankingSample volts amps, .windowEnd, .converterFault rail, .converterCheckPass rail],
      exec i s = .next s) ∧
    (f.powered = true →
      (f.samples = 4000 → ∃ s1 s2, exec .windowEnd s = .next s1 ∧ exec (.frankingSample volts amps) s = .next s2 ∧
        exec (.frankingSample volts amps) s1 = .next s2) ∧
      (f.samples ≠ 4000 → exec .windowEnd s = .next s) ∧
      (f.samples ≠ 4000 → ∃ s', exec (.frankingSample volts amps) s = .next s' ∧ s' = { s with fr := s'.fr } ∧
        s'.fr.samples = f.samples + 1 ∧
        ∀ r, r < 8 →
          let v := (volts.getD r 0).toInt
          let i := (amps.getD r 0).toInt
          let old := tget sumDefault f.sums r
          (getRail s'.fr r).energy = (getRail f r).energy ∧
          (f.fault.getLsbD r = true → tget sumDefault s'.fr.sums r = old ∧ getRail s'.fr r = getRail f r) ∧
          (f.fault.getLsbD r = false → tget sumDefault s'.fr.sums r = 
                (old.1 + v * i, old.2.1 + v, old.2.2.1 + i, old.2.2.2 + 1) ∧
            (getRail s'.fr r).ovr.toNat =
              if i = -8388608 ∨ i = 8388607 then min (2 ^ 32 - 1) ((getRail f r).ovr.toNat + 1) else (getRail f r).ovr.toNat)) ∧
      (f.samples = 4000 → f.update = none → ∃ s', exec .windowEnd s = .next s' ∧ s'.fr.samples = 0 ∧ s'.fr.sums = [] ∧
        s'.fr.nv = s'.fr.live ∧
        s'.fr.live.accounts = f.live.accounts ∧
        ∀ r, r < 8 →
          let sum := (tget sumDefault f.sums r).1
          let n := (tget sumDefault f.sums r).2.2.2
          let lsb := if r = 1 ∨ r = 2 then 200 else if r = 3 ∨ r = 4 then 50 else if r = 5 then 100 else 10
          let mag := sum.natAbs * lsb * 2500
          let x := getRail f r
          let y := getRail s'.fr r
          let low := sum.natAbs * lsb < 2 * n * (if r = 0 then 10 ^ 11 else 10 ^ 10)
          (f.fault.getLsbD r = true ∨ n = 0 ∨ low → y = x) ∧
          (f.fault.getLsbD r = false → 0 < n → ¬low → 0 < sum →
            y = { x with
              energy := x.energy + BitVec.ofNat 64 ((x.fracUp + mag) / 10 ^ 15), fracUp := (x.fracUp + mag) % 10 ^ 15 }) ∧
          (f.fault.getLsbD r = false → 0 < n → ¬low → sum < 0 →
            y = { x with
              reverse := x.reverse + BitVec.ofNat 64 ((x.fracDown + mag) / 10 ^ 15),
              fracDown := (x.fracDown + mag) % 10 ^ 15 })) ∧
      (∀ i h, f.samples = 4000 → f.update = some i → s.so.frHole = some h → holeBusy s h = true → ∃ s', exec .windowEnd s = .next s' ∧
        s'.fr.image = some i ∧ s'.fr.update = none ∧ s'.fr.sealCnt = f.sealCnt + 1 ∧ s'.fr.updSerial = f.updSerial + 1 ∧
        s'.fr.updResult = 0 ∧ FrankingLogs f s'.fr 0x05 (f.sealCnt + 1).toNat ∧
        Answered s' h 0 0 0 (leBytes 4 i.version.toNat)) ∧
      (f.fault.getLsbD rail.val = true → exec (.converterFault rail) s = .next s) ∧
      (f.fault.getLsbD rail.val = false → ∃ s', exec (.converterFault rail) s = .next s' ∧ s' = { s with fr := s'.fr } ∧
        s'.fr.fault = f.fault ||| (1 <<< rail.val) ∧ tget sumDefault s'.fr.sums rail.val = (0, 0, 0, 0) ∧ s'.fr.live = f.live ∧
        FrankingLogs f s'.fr 0x0A rail.val) ∧
      exec (.converterCheckPass rail) s = .next { s with fr := { f with fault := f.fault &&& ~~~(1 <<< rail.val : BitVec 8) } })

/-- R551 to R553: a report frame in order adds to its account, a repeated one to nothing, and a gap is logged; a restart of the
hub is logged once for its two copies; the die commits as power is lost, and resumes from what it committed. That the frame
after a START is its second copy if it is a START too (log entry 138) and that LINKOK stays set (log entry 56) is the model's
choice. -/
def Claim.Accounts : Prop :=
  ∀ (s : State) (r : ReportFrame),
    let f := s.fr
    let key := 4 * r.account.toNat + r.counter.val
    let old := tget accountDefault f.live.accounts key
    (f.powered = false ∨ r.intact = false → exec (.reportFrame r) s = .next s) ∧
    (f.powered = true → r.intact = true →
      ∃ s', exec (.reportFrame r) s = .next s' ∧ s' = { s with fr := s'.fr } ∧ s'.fr.linkOk = true ∧
        (f.lastSeq = some r.seq → s'.fr = { f with linkOk := true, startCopy := false }) ∧
        (f.lastSeq = some (r.seq - 1) ∨ (f.lastSeq = none ∧ r.seq = 0) → s'.fr.lastSeq = some r.seq ∧
          (tget accountDefault s'.fr.live.accounts key).toNat = min (2 ^ 64 - 1) (old.toNat + r.inc.toNat) ∧
          (∀ k, k ≠ key → tget accountDefault s'.fr.live.accounts k = tget accountDefault f.live.accounts k) ∧
          s'.fr.live.rails = f.live.rails ∧ (old.toNat + r.inc.toNat < 2 ^ 64 → s'.fr.log = f.log) ∧
          (2 ^ 64 ≤ old.toNat + r.inc.toNat → FrankingLogs f s'.fr 0x0B r.account.toNat)) ∧
        (f.lastSeq = some (r.seq - 3) → old.toNat + r.inc.toNat < 2 ^ 64 → s'.fr.lastSeq = some r.seq ∧
          FrankingLogs f s'.fr 0x04 2)) ∧
    (f.powered = true → f.startCopy = true →
      exec .hubRestart s = .next { s with fr := { f with startCopy := false } }) ∧
    (f.powered = true → f.startCopy = false → ∃ s', exec .hubRestart s = .next s' ∧ s'.fr.startCopy = true ∧
      s'.fr.lastSeq = none ∧ s'.fr.linkOk = true ∧
      s'.fr.live = f.live ∧ ∀ l, f.lastSeq = some l → FrankingLogs f s'.fr 0x03 l.toNat) ∧
    (f.powered = false → exec .hubRestart s = .next s ∧ exec .powerLoss s = .next s) ∧
    (f.powered = true → exec .powerUp s = .next s ∧
      ∃ s', exec .powerLoss s = .next s' ∧ s'.fr.powered = false ∧ s'.fr.nv = s'.fr.live ∧ s'.fr.samples = 0 ∧
        s'.fr.live.accounts = f.live.accounts ∧ s'.fr.logNext = f.logNext + 1 ∧
        ((tget logDefault s'.fr.log (f.logNext.toNat % 1024)).extractLsb' 32 8 : Byte) = 0x02 ∧ s'.cores = s.cores) ∧
    (f.powered = false → ∃ s', exec .powerUp s = .next s' ∧ s' = { s with fr := s'.fr } ∧ s'.fr.powered = true ∧
      s'.fr.live = f.nv ∧ s'.fr.nv = f.nv ∧ s'.fr.samples = 0 ∧ s'.fr.sums = [] ∧ s'.fr.lastSeq = none ∧ s'.fr.fault = 0 ∧
      s'.fr.sealCnt = f.sealCnt ∧ s'.fr.akey = f.akey ∧ FrankingLogs { f with live := f.nv } s'.fr 0x01 0)

/-- R557, R559, R560: the image that firmware sent waits for the window boundary if it passes its checks, and is logged if it
fails, with its reason; a selection of the MTR port sends a record with its CRC; a key that is accepted replaces the old one.
That a selection which names nothing has no effect is the model's choice (log entry 57). -/
def Claim.FrankingAccess : Prop :=
  ∀ (s : State) (image key sig : List (BitVec 8)) (kind : BitVec 8) (index : BitVec 16),
    let f := s.fr
    let sends (bs : List Byte) (s' : State) : Prop :=
      s'.outbox = s.outbox ++ [.mtr bs] ∧ s' = { s with fr := s'.fr, outbox := s'.outbox }
    (f.powered = false → ∀ i ∈ [Instr.frankingUpdateCheck image, .mtrSelect kind index, .keyset key sig],
      exec i s = .next s) ∧
    (f.powered = true →
      (f.incoming ≠ some image → exec (.frankingUpdateCheck image) s = .next s) ∧
      (f.incoming = some image → s.so.frHole = none → ∃ s', exec (.frankingUpdateCheck image) s = .next s' ∧
        if frCheck s image = 0 then
          ∃ x, s' = { s with fr := { f with incoming := none, update := some x } } ∧ x.version = BitVec.ofNat 32 (leAt image 8 4) ∧
            x.svn = BitVec.ofNat 32 (leAt image 12 4)
        else
          s' = { s with fr := s'.fr } ∧ s'.fr.updSerial = f.updSerial + 1 ∧ s'.fr.updResult = frCheck s image ∧
            s'.fr.update = f.update ∧ s'.fr.incoming = none ∧ FrankingLogs f s'.fr 0x06 (frCheck s image).toNat) ∧
      (mtrRecord s kind.toNat index.toNat = none → exec (.mtrSelect kind index) s = .next s) ∧
      (∀ r, mtrRecord s kind.toNat index.toNat = some r → ∃ s', exec (.mtrSelect kind index) s = .next s' ∧
        sends (r ++ leBytes 2 (crc16 r).toNat) s' ∧ s'.fr = { f with sel := some (kind.toNat, index.toNat) }) ∧
      (keyReason f key sig = 0 → ∃ s', exec (.keyset key sig) s = .next s' ∧ sends [0] s' ∧ s'.fr.akey = some key ∧
        s'.fr.sealCnt = f.sealCnt + 1 ∧ FrankingLogs f s'.fr 0x07 (f.sealCnt + 1).toNat) ∧
      (keyReason f key sig ≠ 0 → ∃ s', exec (.keyset key sig) s = .next s' ∧ sends [keyReason f key sig] s' ∧
        s'.fr.akey = f.akey ∧ s'.fr.sealCnt = f.sealCnt ∧ FrankingLogs f s'.fr 0x08 (keyReason f key sig).toNat))

/-! ### Reset, time, memories and words -/

/-- With nothing commanded a mesh cycle passes where the mesh clock runs, and nothing where it does not; a cluster counts the
cycles that its operating point gives it, and every other register is as before (R30, R127, R536, R580). That an empty
queue stands for a cycle is the model's choice (log entry 2). -/
def Claim.MeshCycle : Prop :=
  ∀ (s : State), s.pending = [] →
    (meshRuns s = false → step s = .next { s with setNow := [] }) ∧
    (meshRuns s = true → NothingDue s → ∃ s', step s = .next s' ∧
      s' = { s with setNow := [], meshCycle := s.meshCycle + 1, clusters := s'.clusters } ∧
      ∀ c : Fin 8,
        let k := getCl s c
        let edge : Prop :=
          k.run = 0 ∨ (k.run = 1 ∧ s.meshCycle % 4 ≠ 3) ∨ (k.run = 2 ∧ s.meshCycle % 2 = 0) ∨
            (k.run = 3 ∧ s.meshCycle % 4 = 0)
        let counts : Prop := k.power = .run ∧ k.waking = false ∧ k.stopUntil ≤ s.meshCycle ∧ edge
        (counts → getCl s' c = { k with cyc := k.cyc + 1 }) ∧ (¬counts → getCl s' c = k))

/-- What the spec gives for reset (that State.reset is the module at the release of MRST#, before phase A, log entry 19, and
that a local memory is empty then, log entry 3, is the model's choice): nothing is brought up (R539, R540); every core is held
with its threads NOT_RUNNING and its local memory empty (R113, R491, R534); the root capabilities (R84); queues, flags and
channels are empty (R318, R333); every key slot is EMPTY and every parcel entry FREE (R456, R465); the vectors are masked and no
doorbell is taken (R496, R498); Night Mail runs its ROM (R525). -/
def Claim.ResetState : Prop :=
  let s := State.reset
  s.pending = [] ∧ s.mod.service = 0 ∧ s.mod.phase = 0 ∧ s.so.ready = false ∧ s.so.open_ = false ∧ s.so.busy = [] ∧
    s.nm.mode = .rom ∧ s.dbgSession = 0 ∧
    (∀ c : Fin 8, (getCl s c).power = .off ∧ (getCl s c).service = .unavailable) ∧
    (∀ slot, slot < 576 → (getCore s slot).held = true ∧ (getCore s slot).mem = Mem.empty ∧ ∀ t : Fin 4,
      (getTh s slot t).st = .notRunning ∧ (getTh s slot t).pcc.length = 0x80000 ∧ (getTh s slot t).pcc.tag = true ∧
      (getTh s slot t).sfc.tag = false) ∧
    (∀ slot f, slot < 576 → flagGet (getCore s slot) f = 0) ∧ (∀ k, getCh s k = Channel.reset) ∧
    (∀ k, (getKey s k).st = .empty) ∧ (∀ e, (ptGet s e).st = .free) ∧ (∀ p, p < 16 → portState s p = 0) ∧
    (∀ v, v < 64 → memByte s.mbx (16 * v + 12) = 1) ∧ ∀ o, devGet s o = (devReg o).reset

/-- Every memory of the reset state is in its canonical form. -/
def Claim.MemoryInvAtReset : Prop := MemoryInv State.reset

/-- Every step keeps every memory in its canonical form. -/
def Claim.MemoryInvKept : Prop := ∀ s s' : State, MemoryInv s → step s = .next s' → MemoryInv s'

/-- R10, R46 to R62, R88 to R92, R122, R188 to R197, R219, R315: the words of the core's instructions and what is read in
them correspond one to one: encoding an instruction and decoding it gives it back with its core and thread, and a word
that decodes is the encoding of what it decodes to. -/
def Claim.WordsAndInstructions : Prop :=
  ∀ (i : Instr) (cpu : Cpu) (t : Fin 4) (w : Word),
    encodeCoreWord i = some (cpu, t, w) ↔ decodeCoreWord cpu t w = some i

/-- R10, R46 to R62, R88 to R92, R122, R188 to R197, R219, R315: every instruction of a core has a word, with any operands that
its form admits. -/
def Claim.CoreInstructionsHaveWords : Prop :=
  let word (i : Instr) : Prop := (encodeCoreWord i).isSome = true;
    (∀ a b c d, word (.ld a b c d)) ∧ (∀ a b c d, word (.ldu a b c d)) ∧ (∀ a b c d, word (.ldx a b c d)) ∧
    (∀ a b c d, word (.ldy a b c d)) ∧ (∀ a b c d, word (.leax a b c d)) ∧ (∀ a b c d, word (.leay a b c d)) ∧
    (∀ a b c d, word (.st a b c d)) ∧ (∀ a b c d, word (.stx a b c d)) ∧ (∀ a b c d, word (.sty a b c d)) ∧
    (∀ a b c d, word (.stz a b c d)) ∧ (∀ a b c d, word (.xch a b c d)) ∧ (∀ a b c d, word (.mul a b c d)) ∧
    (∀ a b c d, word (.mulh a b c d)) ∧ (∀ a b c d, word (.mulhu a b c d)) ∧ (∀ a b c d, word (.div a b c d)) ∧
    (∀ a b c d, word (.divu a b c d)) ∧ (∀ a b c d, word (.rem a b c d)) ∧ (∀ a b c d, word (.remu a b c d)) ∧
    (∀ a b c, word (.add a b c)) ∧ (∀ a b c, word (.adc a b c)) ∧ (∀ a b c, word (.sub a b c)) ∧
    (∀ a b c, word (.sbc a b c)) ∧ (∀ a b c, word (.and a b c)) ∧ (∀ a b c, word (.or a b c)) ∧
    (∀ a b c, word (.xor a b c)) ∧ (∀ a b c, word (.cmp a b c)) ∧ (∀ a b c, word (.ldi a b c)) ∧
    (∀ a b c, word (.ldih a b c)) ∧ (∀ a b c, word (.lix a b c)) ∧ (∀ a b c, word (.liy a b c)) ∧
    (∀ a b c, word (.addx a b c)) ∧ (∀ a b c, word (.addy a b c)) ∧ (∀ a b c, word (.cmpx a b c)) ∧
    (∀ a b c, word (.cmpy a b c)) ∧ (∀ a b c, word (.shl a b c)) ∧ (∀ a b c, word (.shr a b c)) ∧
    (∀ a b c, word (.sar a b c)) ∧ (∀ a b c, word (.rol a b c)) ∧ (∀ a b c, word (.macsh a b c)) ∧
    (∀ a b, word (.nop a b)) ∧ (∀ a b, word (.neg a b)) ∧ (∀ a b, word (.not a b)) ∧ (∀ a b, word (.abs a b)) ∧
    (∀ a b, word (.sexb a b)) ∧ (∀ a b, word (.sexh a b)) ∧ (∀ a b, word (.zexb a b)) ∧ (∀ a b, word (.zexh a b)) ∧
    (∀ a b, word (.clz a b)) ∧ (∀ a b, word (.popc a b)) ∧ (∀ a b, word (.tax a b)) ∧ (∀ a b, word (.tay a b)) ∧
    (∀ a b, word (.txa a b)) ∧ (∀ a b, word (.tya a b)) ∧ (∀ a b, word (.swxy a b)) ∧ (∀ a b, word (.gfl a b)) ∧
    (∀ a b, word (.sfl a b)) ∧ (∀ a b, word (.macclr a b)) ∧ (∀ a b, word (.rdg a b)) ∧
    (∀ a b c d e f g h i, word (.macd a b c d e f g h i)) ∧ (∀ a b c d e f g h i, word (.msbd a b c d e f g h i)) ∧
    (∀ a b c d e f g h i, word (.muld a b c d e f g h i)) ∧ (∀ a b c d, word (.branch a b c d)) ∧
    (∀ a b c, word (.jmp a b c)) ∧ (∀ a b c, word (.call a b c)) ∧ (∀ a b, word (.jx a b)) ∧
    (∀ a b, word (.callx a b)) ∧ (∀ a b, word (.ret a b)) ∧ (∀ a b, word (.rspop a b)) ∧ (∀ a b, word (.rspush a b)) ∧
    (∀ a b c d, word (.kcopy a b c d)) ∧ (∀ a b c d, word (.kaim a b c d)) ∧ (∀ a b c d, word (.knarrow a b c d)) ∧
    (∀ a b c d, word (.kmask a b c d)) ∧ (∀ a b c d, word (.kread a b c d)) ∧ (∀ a b c, word (.kvoid a b c)) ∧
    (∀ a b c, word (.khere a b c)) ∧ (∀ a b c d e, word (.kwrap a b c d e)) ∧
    (∀ a b c d e, word (.kunwrap a b c d e)) ∧ (∀ a b c d e, word (.setg a b c d e)) ∧
    (∀ a b c d e, word (.ldk a b c d e)) ∧ (∀ a b c d e, word (.stk a b c d e)) ∧
    (∀ a b c d e, word (.xld a b c d e)) ∧ (∀ a b c d e, word (.xldu a b c d e)) ∧
    (∀ a b c d e, word (.xst a b c d e)) ∧ (∀ a b c, word (.gate a b c)) ∧ (∀ a b, word (.rgate a b)) ∧
    (∀ a b, word (.eret a b)) ∧ (∀ a b, word (.escret a b)) ∧ (∀ a b c, word (.closureClose a b c)) ∧
    (∀ a b, word (.closureOpen a b)) ∧ (∀ a b c, word (.fence a b c)) ∧ (∀ a b, word (.wfe a b)) ∧
    (∀ a b c, word (.sev a b c)) ∧ (∀ a b, word (.clrev a b)) ∧ (∀ a b, word (.pstw a b)) ∧
    (∀ a b, word (.pclr a b)) ∧ (∀ a b c, word (.pget a b c)) ∧ (∀ a b, word (.pret a b)) ∧
    (∀ a b c, word (.post a b c)) ∧ (∀ a b c, word (.postq a b c)) ∧ (∀ a b c, word (.rsend a b c)) ∧
    (∀ a b c d e f, word (.fsig a b c d e f)) ∧ (∀ a b c d, word (.fwait a b c d)) ∧
    (∀ a b c d, word (.ftry a b c d)) ∧ (∀ a b c, word (.fget a b c)) ∧ (∀ a b c, word (.bar a b c)) ∧
    (∀ a b c, word (.barv a b c)) ∧ (∀ a b c, word (.bwait a b c)) ∧
    (∀ a b c d e f g h, word (.vadd a b c d e f g h)) ∧ (∀ a b c d e f g h, word (.vsub a b c d e f g h)) ∧
    (∀ a b c d e f g h, word (.vmul a b c d e f g h)) ∧ (∀ a b c d e f g h, word (.vmac a b c d e f g h)) ∧
    (∀ a b c d e f g h, word (.vmin a b c d e f g h)) ∧ (∀ a b c d e f g h, word (.vmax a b c d e f g h)) ∧
    (∀ a b c d e f g h, word (.vdiv a b c d e f g h)) ∧ (∀ a b c d e f, word (.vlsum a b c d e f)) ∧
    (∀ a b c d e f g h, word (.vcmp a b c d e f g h)) ∧ (∀ a b c d e, word (.vand a b c d e)) ∧
    (∀ a b c d e, word (.vor a b c d e)) ∧ (∀ a b c d e, word (.vxor a b c d e)) ∧
    (∀ a b c d e f, word (.vsel a b c d e f)) ∧ (∀ a b c d e, word (.vpopc a b c d e)) ∧
    (∀ a b c d e f, word (.vrsum a b c d e f)) ∧ (∀ a b c d e f, word (.vrmax a b c d e f)) ∧
    (∀ a b c d e f, word (.vrmin a b c d e f)) ∧ (∀ a b c d e f g h, word (.vrdot a b c d e f g h)) ∧
    (∀ a b c d e f, word (.vperm a b c d e f)) ∧ (∀ a b c d, word (.vsplat a b c d)) ∧
    (∀ a b c d, word (.vget a b c d)) ∧ (∀ a b c d e f g, word (.vcvt a b c d e f g)) ∧
    (∀ a b c d e f, word (.vld a b c d e f)) ∧ (∀ a b c d e f, word (.vst a b c d e f)) ∧
    (∀ a b c d e, word (.mma a b c d e)) ∧ (∀ a b c d, word (.tzero a b c d)) ∧
    (∀ a b c d e f, word (.taccTile a b c d e f)) ∧ (∀ a b c d e f g, word (.tupd a b c d e f g)) ∧
    (∀ a b c d e f g, word (.tlsum a b c d e f g)) ∧ (∀ a b c d e f g h, word (.tld a b c d e f g h)) ∧
    (∀ a b c d e f g h, word (.tst a b c d e f g h)) ∧ (∀ a b c d e f, word (.tlds a b c d e f)) ∧
    (∀ a b c d e f, word (.tsts a b c d e f)) ∧ (∀ a b c d e f g h, word (.taccMem a b c d e f g h)) ∧
    (∀ a b, word (.tfence a b))

/-! ### The obligations -/

/-- A step takes the command at the front of the queue and runs it with the rest of the queue. -/
def Obligations.StepRunsFront : Prop :=
  Claim.StepRunsFront

/-- With nothing commanded a mesh cycle passes (that an empty queue stands for a cycle is the model's choice, log entry 2). -/
def Obligations.MeshCycle : Prop :=
  Claim.MeshCycle

/-- What the spec gives for the state at reset. -/
def Obligations.ResetState : Prop :=
  Claim.ResetState

/-- Every memory of the reset state is in canonical form. -/
def Obligations.MemoryInvAtReset : Prop :=
  Claim.MemoryInvAtReset

/-- Every step keeps every memory in canonical form. -/
def Obligations.MemoryInvKept : Prop :=
  Claim.MemoryInvKept

/-- Every core instruction has a word, and words and instructions correspond one to one: encoding and decoding invert each other. -/
def Obligations.WordsAndInstructions : Prop :=
  Claim.WordsAndInstructions ∧ Claim.CoreInstructionsHaveWords

/-- ADD, ADC, SUB, SBC, CMP, logic, moves and counts on registers and immediates: result, flags and frame. -/
def Obligations.RegisterArithmetic : Prop :=
  Claim.AddSubImmediate ∧ Claim.CompareImmediate ∧ Claim.LogicAndMoves ∧ Claim.CountLeadingZeros

/-- Shifts, NEG, ABS and MACSH: result, flags and frame. -/
def Obligations.ShiftsAndSigns : Prop :=
  Claim.Shifts ∧ Claim.NegateAndAbsolute ∧ Claim.MacshRounds

/-- Index register instructions, FLAGS and accumulator moves, addressing modes and load address. -/
def Obligations.PointersAndFlags : Prop :=
  Claim.IndexRegisters ∧ Claim.FlagsAndAccumulator ∧ Claim.AddressingModes ∧ Claim.LoadAddress

/-- Loads and arithmetic with an operand in local memory, division corners included, and stores to local memory, which change their bytes and tags and nothing else. -/
def Obligations.LocalOperands : Prop :=
  Claim.LoadsFromLocalMemory ∧ Claim.ArithmeticFromLocalMemory ∧ Claim.StoresToLocalMemory

/-- MACD, MSBD and MULD: the 40-bit sum, its flags and the pointers. -/
def Obligations.MultiplyAccumulate : Prop :=
  Claim.MultiplyAccumulate

/-- Branches on their sixteen conditions. -/
def Obligations.Branches : Prop :=
  Claim.BranchConditions

/-- Jumps, calls and the return stack. -/
def Obligations.ControlTransfer : Prop :=
  Claim.JumpsCallsReturns

/-- Loads and stores of shared SRAM and the scrub of a slice. -/
def Obligations.SharedSram : Prop :=
  Claim.LoadFromSharedSram ∧ Claim.StoreToSharedSram ∧ Claim.SliceScrub

/-- The order of capability checks, the derivation of capabilities, and that no derivation gains authority. -/
def Obligations.CapabilityRules : Prop :=
  Claim.CapabilityCheckOrder ∧ Claim.CapabilityDerivation ∧ Claim.CapabilityRead ∧ Claim.CapabilityMonotone

/-- Loads and stores through a capability, and a capability stored and loaded again. -/
def Obligations.CapabilityAccess : Prop :=
  Claim.AccessThroughCapability ∧ Claim.CapabilityRoundTrip ∧ Claim.TagCopies

/-- SETG, GATE and RGATE. -/
def Obligations.Gates : Prop :=
  Claim.Gates

/-- CLOSE, OPEN and FENCE, and the end of a closure. -/
def Obligations.Closures : Prop :=
  Claim.ClosuresAndFences ∧ Claim.ClosureEnds

/-- A fault saves its frame and stops the thread, and the faults an instruction raises. -/
def Obligations.FaultEntry : Prop :=
  Claim.FaultEntry ∧ Claim.InstructionFaults

/-- ERET restores the frame, and the supervisor resumes a stopped thread. -/
def Obligations.FaultReturn : Prop :=
  Claim.ExceptionReturn ∧ Claim.FaultThenResume

/-- Entry to the escalation handler and ESCRET. -/
def Obligations.Escalation : Prop :=
  Claim.EscalationEntry ∧ Claim.EscalationReturn

/-- Events and waiting, thread start, the slot table, and the orphan wait. -/
def Obligations.Threads : Prop :=
  Claim.EventsAndWaiting ∧ Claim.ThreadStart ∧ Claim.SlotTableTakesEffect ∧ Claim.OrphanWait

/-- A notification of the supervisor is delivered. -/
def Obligations.Notifications : Prop :=
  Claim.NotificationDelivery

/-- Debug stop, step and resume, debug access to data, flags and barriers, and the membership register. -/
def Obligations.Debug : Prop :=
  Claim.DebugControl ∧ Claim.DebugData ∧ Claim.DebugFlagsAndMembership

/-- Staging words and sending posts. -/
def Obligations.PostsSent : Prop :=
  Claim.StagingAndReading ∧ Claim.PostsLeave

/-- Flag waits and flag signals. -/
def Obligations.FlagSignals : Prop :=
  Claim.FlagWaits ∧ Claim.FlagSignalsLeave

/-- Posts, credits, signals and dead letters that arrive at a core. -/
def Obligations.Arrivals : Prop :=
  Claim.TransitArrivals

/-- Dispatch of a post, return from it, and the registers of the post block. -/
def Obligations.Dispatch : Prop :=
  Claim.DispatchAndReturn ∧ Claim.PostRegisters

/-- The barrier instructions and the release of a network. -/
def Obligations.Barriers : Prop :=
  Claim.BarrierInstructions ∧ Claim.BarrierRelease

/-- Mesh routes and the reduction tree. -/
def Obligations.Reductions : Prop :=
  Claim.MeshRoutes ∧ Claim.ReductionTree

/-- The NUMERIC registers and when they take effect. -/
def Obligations.NumericSettings : Prop :=
  Claim.NumericSettings

/-- Vector arithmetic lane by lane. -/
def Obligations.VectorArithmetic : Prop :=
  Claim.VectorArithmetic

/-- Vector bit operations, reductions and long sums. -/
def Obligations.VectorOther : Prop :=
  Claim.VectorBits ∧ Claim.VectorReductions ∧ Claim.LongSums

/-- Vector loads and stores. -/
def Obligations.VectorMemory : Prop :=
  Claim.VectorMemory

/-- Vector and tile operations retire. -/
def Obligations.Retirement : Prop :=
  Claim.VectorRetires ∧ Claim.TileRetires

/-- Tile instructions issue. -/
def Obligations.TileIssues : Prop :=
  Claim.TileIssues

/-- Handles are rebound from descriptors in local memory. -/
def Obligations.HandleRebind : Prop :=
  Claim.HandleRebind

/-- Control of a stream unit and its program. -/
def Obligations.StreamPrograms : Prop :=
  Claim.StreamControl ∧ Claim.StreamPrograms

/-- A stream unit moves rows, arbitration, and its faults. -/
def Obligations.StreamRuns : Prop :=
  Claim.StreamMoves ∧ Claim.StreamArbitration ∧ Claim.StreamFaults

/-- Doorbell, GO, PAUSE and ABORT of a courier channel. -/
def Obligations.CourierControl : Prop :=
  Claim.CourierControl

/-- Bursts and completion of a courier channel, and far reads. -/
def Obligations.CourierTransfers : Prop :=
  Claim.CourierTransfers

/-- Units of the external memories, refresh and the retirement of a stack. -/
def Obligations.ExternalMemory : Prop :=
  Claim.ExternalUnits ∧ Claim.RefreshAndRetirement

/-- Training frames and latency probes of a link. -/
def Obligations.LinkTraining : Prop :=
  Claim.LinkTraining ∧ Claim.LatencyProbes

/-- Flits leave a port and arrive at one. -/
def Obligations.Flits : Prop :=
  Claim.FlitsSent ∧ Claim.FlitsReceived

/-- Replay, retraining and quiescing of a port. -/
def Obligations.LinkRecovery : Prop :=
  Claim.ReplayAndRetrain ∧ Claim.PortQuiesce

/-- Operations of the fabric at their destination, and the fabric trees. -/
def Obligations.FabricOperations : Prop :=
  Claim.FabricOperations ∧ Claim.FabricTrees

/-- Order of units, time-outs, restart of sequences, injection and the fabric registers. -/
def Obligations.FabricOrder : Prop :=
  Claim.OrderAndTimeouts ∧ Claim.RestartAndInjection ∧ Claim.FabricRegisters

/-- Envelopes are received, checked, verified and accepted. -/
def Obligations.Envelopes : Prop :=
  Claim.Envelopes

/-- The parcel table and the key store, and the mailbox commands on keys. -/
def Obligations.ParcelsAndKeys : Prop :=
  Claim.ParcelTable ∧ Claim.KeyStore ∧ Claim.KeyStorage ∧ Claim.KeyCommands

/-- The seal queue, batches and receipts, attestation reports and firmware commands. -/
def Obligations.Sealing : Prop :=
  Claim.SealQueue ∧ Claim.SealJobs ∧ Claim.Batches ∧ Claim.ReportsAndImages

/-- Cache maintenance of the control cores, cluster control and writes of registers. -/
def Obligations.ControlCores : Prop :=
  Claim.CacheMaintenance ∧ Claim.RangeMaintenance ∧ Claim.ClusterControl ∧ Claim.RegisterWrites

/-- Doorbells, sessions and firmware images. -/
def Obligations.MailboxSessions : Prop :=
  Claim.Doorbells ∧ Claim.Sessions ∧ Claim.FirmwareImages

/-- Models, plans and bundles of parcels. -/
def Obligations.MailboxModels : Prop :=
  Claim.Models ∧ Claim.Plans ∧ Claim.Bundles

/-- Drain and return of clusters, operating points, stacks and ports. -/
def Obligations.MailboxUnits : Prop :=
  Claim.DrainAndReturn ∧ Claim.SetOppoint ∧ Claim.StacksAndPorts

/-- Routes, meter, Night Mail parameters and debug sessions, RESET_UNIT, self-tests and tickets. -/
def Obligations.MailboxService : Prop :=
  Claim.ServiceCommands ∧ Claim.ResetUnit ∧ Claim.Tests

/-- Stages of a parcel, and resets of the PCI Express function. -/
def Obligations.Stages : Prop :=
  Claim.Stages ∧ Claim.FunctionReset

/-- The hand-over of the control cores, the reload of Night Mail, and bring-up. -/
def Obligations.HandoverAndBringUp : Prop :=
  Claim.Handover ∧ Claim.NightMailReload ∧ Claim.BringUp

/-- A tick of Night Mail, and points and power states of the clusters. -/
def Obligations.NightMail : Prop :=
  Claim.NightMailTick ∧ Claim.ClusterPower

/-- The management target and the pins of the module. -/
def Obligations.ModuleAndPins : Prop :=
  Claim.ManagementTarget ∧ Claim.Pins

/-- The Franking die: energies, accounts, updates, readings and keys. -/
def Obligations.Franking : Prop :=
  Claim.Energy ∧ Claim.Accounts ∧ Claim.FrankingAccess
end

