-- ==== Sys2Proof/Laws/Tab.lean ====
section
/-! SUPPORT. The laws of sparse tables: what a read gives after a write, and that a write keeps the canonical form. -/
namespace Sys2Proof.Machine
variable {α : Type}

@[simp] theorem tget_nil (d : Nat → α) (k : Nat) : tget d [] k = d k := rfl

theorem tget_tdrop_same (d : Nat → α) (m : Tab α) (k : Nat) : tget d (tdrop m k) k = d k := by
  induction m with
  | nil => rfl
  | cons p m ih =>
    obtain ⟨k', v⟩ := p
    by_cases h : k = k'
    · simp [tdrop, h]; rw [← h]; exact ih
    · simp [tdrop, tget, h, ih]

theorem tget_tdrop_other (d : Nat → α) (m : Tab α) (k j : Nat) (h : j ≠ k) :
    tget d (tdrop m k) j = tget d m j := by
  induction m with
  | nil => rfl
  | cons p m ih =>
    obtain ⟨k', v⟩ := p
    by_cases hk : k = k'
    · subst hk; simp [tdrop, tget, h, ih]
    · by_cases hj : j = k'
      · simp [tdrop, tget, hk, hj]
      · simp [tdrop, tget, hk, hj, ih]

theorem tget_tplace_same (d : Nat → α) (m : Tab α) (k : Nat) (v : α) :
    tget d (tplace (tdrop m k) k v) k = v := by
  induction m with
  | nil => simp [tdrop, tplace, tget]
  | cons p m ih =>
    obtain ⟨k', v'⟩ := p
    by_cases h : k = k'
    · subst h; simpa [tdrop] using ih
    · by_cases hl : k < k' <;> simp [tdrop, tplace, tget, h, hl, ih]

theorem tget_tplace_other (d : Nat → α) (m : Tab α) (k j : Nat) (v : α) (h : j ≠ k) :
    tget d (tplace m k v) j = tget d m j := by
  induction m with
  | nil => simp [tplace, tget, h]
  | cons p m ih =>
    obtain ⟨k', v'⟩ := p
    by_cases hl : k < k' <;> simp [tplace, tget, h, hl, ih]

/-- A read after a write to the same key gives the written value. -/
@[simp] theorem tget_tset_same [DecidableEq α] (d : Nat → α) (m : Tab α) (k : Nat) (v : α) :
    tget d (tset d m k v) k = v := by
  unfold tset
  split
  · next h => rw [tget_tdrop_same, h]
  · exact tget_tplace_same d m k v

/-- A write leaves every other key alone. -/
theorem tget_tset_other [DecidableEq α] (d : Nat → α) (m : Tab α) (k j : Nat) (v : α) (h : j ≠ k) :
    tget d (tset d m k v) j = tget d m j := by
  unfold tset
  split
  · exact tget_tdrop_other d m k j h
  · rw [tget_tplace_other d _ k j v h, tget_tdrop_other d m k j h]

theorem tget_tset [DecidableEq α] (d : Nat → α) (m : Tab α) (k j : Nat) (v : α) :
    tget d (tset d m k v) j = if j = k then v else tget d m j := by
  by_cases h : j = k
  · subst h; simp
  · simp [h, tget_tset_other d m k j v h]

theorem tsorted_weaken (m : Tab α) (b c : Nat) (h : tsorted m (some b) = true) (hc : c ≤ b) :
    tsorted m (some c) = true := by
  cases m with
  | nil => rfl
  | cons p m => obtain ⟨k, v⟩ := p; simp [tsorted] at *; exact ⟨by omega, h.2⟩

theorem tsorted_none (m : Tab α) (b : Nat) (h : tsorted m (some b) = true) : tsorted m none = true := by
  cases m with
  | nil => rfl
  | cons p m => obtain ⟨k, v⟩ := p; simp [tsorted] at *; exact h.2

theorem tdrop_sorted (m : Tab α) (k : Nat) (b : Option Nat) (h : tsorted m b = true) :
    tsorted (tdrop m k) b = true := by
  induction m generalizing b with
  | nil => rfl
  | cons p m ih =>
    obtain ⟨k', v⟩ := p
    cases b with
    | none =>
      simp [tsorted] at h
      by_cases hk : k = k'
      · simp [tdrop, hk]; subst hk; exact tsorted_none _ _ (ih _ h)
      · simp [tdrop, hk, tsorted]; exact ih _ h
    | some b =>
      simp [tsorted] at h
      by_cases hk : k = k'
      · simp [tdrop, hk]; subst hk; exact tsorted_weaken _ _ _ (ih _ h.2) (by omega)
      · simp [tdrop, hk, tsorted]; exact ⟨h.1, ih _ h.2⟩

/-- No entry of the table has key `k`. -/
theorem tplace_sorted (m : Tab α) (k : Nat) (v : α) (b : Option Nat) (h : tsorted m b = true)
    (hb : ∀ c, b = some c → c < k) (hk : ∀ p ∈ m, p.1 ≠ k) : tsorted (tplace m k v) b = true := by
  induction m generalizing b with
  | nil => cases b <;> simp_all [tplace, tsorted]
  | cons p m ih =>
    obtain ⟨k', v'⟩ := p
    have hne : k' ≠ k := hk (k', v') (by simp)
    have hm : ∀ p ∈ m, p.1 ≠ k := fun p hp => hk p (by simp [hp])
    by_cases hl : k < k'
    · cases b <;> simp_all [tplace, tsorted]
    · have hkk : k' < k := by omega
      cases b with
      | none =>
        simp [tsorted] at h
        simp [tplace, hl, tsorted]
        exact ih _ h (by intro c hc; cases hc; exact hkk) hm
      | some b =>
        simp [tsorted] at h
        simp [tplace, hl, tsorted]
        exact ⟨h.1, ih _ h.2 (by intro c hc; cases hc; exact hkk) hm⟩

theorem mem_tdrop (m : Tab α) (k : Nat) : ∀ p ∈ tdrop m k, p.1 ≠ k := by
  induction m with
  | nil => simp [tdrop]
  | cons q m ih =>
    obtain ⟨k', v⟩ := q
    by_cases h : k = k'
    · rw [tdrop, if_pos h]; exact ih
    · intro p hp
      simp [tdrop, h] at hp
      rcases hp with rfl | hp
      · exact fun e => h e.symm
      · exact ih p hp

theorem tdrop_lean [DecidableEq α] (d : Nat → α) (m : Tab α) (k : Nat) (h : tlean d m = true) :
    tlean d (tdrop m k) = true := by
  induction m with
  | nil => rfl
  | cons p m ih =>
    obtain ⟨k', v⟩ := p
    simp [tlean] at h
    by_cases hk : k = k'
    · simp [tdrop, hk]; subst hk; exact ih h.2
    · simp [tdrop, hk, tlean]; exact ⟨h.1, ih h.2⟩

theorem tplace_lean [DecidableEq α] (d : Nat → α) (m : Tab α) (k : Nat) (v : α) (h : tlean d m = true)
    (hv : v ≠ d k) : tlean d (tplace m k v) = true := by
  induction m with
  | nil => simp [tplace, tlean, hv]
  | cons p m ih =>
    obtain ⟨k', v'⟩ := p
    simp [tlean] at h
    by_cases hl : k < k'
    · simp [tplace, tlean, hl, hv, h]
    · simp [tplace, tlean, hl, h, ih]

/-- A write keeps the canonical form. -/
theorem tset_wf [DecidableEq α] (d : Nat → α) (m : Tab α) (k : Nat) (v : α) (h : twf d m = true) :
    twf d (tset d m k v) = true := by
  simp [twf] at h ⊢
  unfold tset
  split
  · exact ⟨tdrop_sorted _ _ _ h.1, tdrop_lean _ _ _ h.2⟩
  · next hv =>
    exact ⟨tplace_sorted _ _ _ _ (tdrop_sorted _ _ _ h.1) (by simp) (mem_tdrop m k),
      tplace_lean _ _ _ _ (tdrop_lean _ _ _ h.2) hv⟩

@[simp] theorem twf_nil [DecidableEq α] (d : Nat → α) : twf d ([] : Tab α) = true := rfl

end Sys2Proof.Machine
end

