-- ==== Sys2Proof/Laws/Memory.lean ====
section
/-! SUPPORT. The laws of the protected memories: every operation keeps the canonical form, a read of a byte after a write
gives the byte written, and a write leaves every other byte alone. -/
namespace Sys2Proof.Machine

theorem memory_wf_iff (m : Mem) :
    Memory.wf m = true ↔
      twf byteDefault m.bytes = true ∧ twf checkDefault m.check = true ∧
        twf tagDefault m.tags = true ∧ twf tagDefault m.split = true := by
  simp [Memory.wf, and_assoc]

@[simp] theorem memory_wf_empty : Memory.wf Mem.empty = true := rfl

theorem memSetByte_wf (m : Mem) (a : Nat) (v : Byte) (h : Memory.wf m = true) : Memory.wf (memSetByte m a v) = true := by
  rw [memory_wf_iff] at h ⊢; exact ⟨tset_wf _ _ _ _ h.1, h.2⟩

theorem memSetCheck_wf (m : Mem) (w : Nat) (c : Check) (h : Memory.wf m = true) :
    Memory.wf (memSetCheck m w c) = true := by
  rw [memory_wf_iff] at h ⊢; exact ⟨h.1, tset_wf _ _ _ _ h.2.1, h.2.2⟩

theorem memSetTag_wf (m : Mem) (g : Nat) (b : Bool) (h : Memory.wf m = true) : Memory.wf (memSetTag m g b) = true := by
  rw [memory_wf_iff] at h ⊢; exact ⟨h.1, h.2.1, tset_wf _ _ _ _ h.2.2.1, tset_wf tagDefault m.split g false h.2.2.2⟩

theorem mendTags_wf (m : Mem) (gs : List Nat) (h : Memory.wf m = true) : Memory.wf (mendTags m gs).1 = true := by
  induction gs generalizing m with
  | nil => exact h
  | cons g gs ih =>
    unfold mendTags
    split
    · refine ih { m with split := tset tagDefault m.split g false } ?_
      rw [memory_wf_iff] at h ⊢
      exact ⟨h.1, h.2.1, h.2.2.1, tset_wf tagDefault m.split g false h.2.2.2⟩
    · exact ih _ h

/-- Reading tags whose copies agree changes nothing. -/
theorem mendTags_agree (m : Mem) (gs : List Nat) (h : ∀ g ∈ gs, memSplit m g = false) : mendTags m gs = (m, 0) := by
  induction gs with
  | nil => rfl
  | cons g gs ih => simp [mendTags, h g (by simp), ih fun x hx => h x (by simp [hx])]

/-- Reading tags changes no tag, byte or check. -/
theorem mendTags_same (m : Mem) (gs : List Nat) :
    (mendTags m gs).1.tags = m.tags ∧ (mendTags m gs).1.bytes = m.bytes ∧ (mendTags m gs).1.check = m.check := by
  induction gs generalizing m with
  | nil => exact ⟨rfl, rfl, rfl⟩
  | cons g gs ih =>
    unfold mendTags
    split
    · exact ih _
    · exact ih _

theorem memPutBytes_wf (m : Mem) (a : Nat) (bs : List Byte) (h : Memory.wf m = true) :
    Memory.wf (memPutBytes m a bs) = true := by
  induction bs generalizing m a with
  | nil => exact h
  | cons b bs ih => exact ih _ _ (memSetByte_wf m a b h)

theorem memPoisonWord_wf (u : Nat) (m : Mem) (w : Nat) (h : Memory.wf m = true) :
    Memory.wf (memPoisonWord u m w) = true :=
  memSetCheck_wf _ _ _ (memPutBytes_wf _ _ _ h)

theorem settleWords_wf (u : Nat) (m : Mem) (ws : List Nat) (h : Memory.wf m = true) :
    Memory.wf (settleWords u m ws).mem = true := by
  induction ws generalizing m with
  | nil => exact h
  | cons w ws ih =>
    unfold settleWords
    split
    · exact ih _ (memSetCheck_wf _ _ _ h)
    · exact ih _ (memPoisonWord_wf _ _ _ h)
    · exact ih _ h

theorem storeChecks_wf (u a n : Nat) (m : Mem) (ws : List Nat) (h : Memory.wf m = true) :
    Memory.wf (storeChecks u a n m ws) = true := by
  induction ws generalizing m with
  | nil => exact h
  | cons w ws ih => exact ih _ (memSetCheck_wf _ _ _ h)

theorem clearTags_wf (m : Mem) (gs : List Nat) (h : Memory.wf m = true) : Memory.wf (clearTags m gs) = true := by
  induction gs generalizing m with
  | nil => exact h
  | cons g gs ih => exact ih _ (memSetTag_wf _ _ _ h)

theorem memStore_wf (u : Nat) (m : Mem) (a : Nat) (bs : List Byte) (h : Memory.wf m = true) :
    Memory.wf (memStore u m a bs) = true :=
  clearTags_wf _ _ (storeChecks_wf _ _ _ _ _ (memPutBytes_wf _ _ _ h))

theorem memStoreCap_wf (m : Mem) (a : Nat) (bs : List Byte) (tag : Bool) (h : Memory.wf m = true) :
    Memory.wf (memStoreCap m a bs tag) = true :=
  memSetTag_wf _ _ _ (memStore_wf _ _ _ _ h)

theorem memCopyWords_wf (u p n a : Nat) (m : Mem) (bs : List Byte) (h : Memory.wf m = true) :
    Memory.wf (memCopyWords u p n a m bs) = true := by
  induction n generalizing p a m bs with
  | zero => exact h
  | succ n ih =>
    unfold memCopyWords
    apply ih
    split
    · exact memPoisonWord_wf _ _ _ (memStore_wf _ _ _ _ h)
    · exact memStore_wf _ _ _ _ h

@[simp] theorem memByte_setByte_same (m : Mem) (a : Nat) (v : Byte) : memByte (memSetByte m a v) a = v := by
  simp [memByte, memSetByte]

theorem memByte_setByte_other (m : Mem) (a b : Nat) (v : Byte) (h : b ≠ a) :
    memByte (memSetByte m a v) b = memByte m b :=
  tget_tset_other _ _ _ _ _ h

@[simp] theorem memByte_setCheck (m : Mem) (w : Nat) (c : Check) (a : Nat) :
    memByte (memSetCheck m w c) a = memByte m a := rfl

@[simp] theorem memByte_setTag (m : Mem) (g : Nat) (b : Bool) (a : Nat) :
    memByte (memSetTag m g b) a = memByte m a := rfl

/-- Bytes put from `a` on: those outside the run read as before. -/
theorem memByte_putBytes_outside (m : Mem) (a : Nat) (bs : List Byte) (x : Nat) (h : x < a ∨ a + bs.length ≤ x) :
    memByte (memPutBytes m a bs) x = memByte m x := by
  induction bs generalizing m a with
  | nil => rfl
  | cons b bs ih =>
    simp only [List.length_cons] at h
    rw [memPutBytes, ih _ _ (by omega), memByte_setByte_other _ _ _ _ (by omega)]

/-- Bytes put from `a` on: each reads back. -/
theorem memByte_putBytes_inside (m : Mem) (a : Nat) (bs : List Byte) (i : Nat) (h : i < bs.length) :
    memByte (memPutBytes m a bs) (a + i) = bs[i] := by
  induction bs generalizing m a i with
  | nil => simp at h
  | cons b bs ih =>
    cases i with
    | zero =>
      rw [memPutBytes, memByte_putBytes_outside _ _ _ _ (by omega)]
      simp
    | succ i =>
      have := ih (memSetByte m a b) (a + 1) i (by simpa using h)
      simpa [memPutBytes, Nat.add_assoc, Nat.add_comm 1 i] using this

@[simp] theorem memByte_storeChecks (u a n : Nat) (m : Mem) (ws : List Nat) (x : Nat) :
    memByte (storeChecks u a n m ws) x = memByte m x := by
  induction ws generalizing m with
  | nil => rfl
  | cons w ws ih => rw [storeChecks, ih]; simp

@[simp] theorem memByte_clearTags (m : Mem) (gs : List Nat) (x : Nat) : memByte (clearTags m gs) x = memByte m x := by
  induction gs generalizing m with
  | nil => rfl
  | cons g gs ih => rw [clearTags, ih]; simp

/-- A store leaves every byte outside it alone. -/
theorem memByte_store_outside (u : Nat) (m : Mem) (a : Nat) (bs : List Byte) (x : Nat)
    (h : x < a ∨ a + bs.length ≤ x) : memByte (memStore u m a bs) x = memByte m x := by
  simp [memStore, memByte_putBytes_outside _ _ _ _ h]

/-- A store's bytes read back. -/
theorem memByte_store_inside (u : Nat) (m : Mem) (a : Nat) (bs : List Byte) (i : Nat) (h : i < bs.length) :
    memByte (memStore u m a bs) (a + i) = bs[i] := by
  simp [memStore, memByte_putBytes_inside _ _ _ _ h]

/-- A read that finds none of its words uncorrectable changes no byte. -/
theorem memByte_settleWords (u : Nat) (m : Mem) (ws : List Nat) (h : ∀ w ∈ ws, memCheck m w ≠ .double) (x : Nat) :
    memByte (settleWords u m ws).mem x = memByte m x := by
  induction ws generalizing m with
  | nil => rfl
  | cons w ws ih =>
    have hw : memCheck m w ≠ .double := h w (by simp)
    have ht : ∀ v ∈ ws, memCheck m v ≠ .double := fun v hv => h v (by simp [hv])
    unfold settleWords
    split
    · dsimp only
      rw [ih]
      · rfl
      · intro v hv
        by_cases e : v = w
        · subst e; simp [memCheck, memSetCheck]
        · have := ht v hv
          simpa [memCheck, memSetCheck, tget_tset_other _ _ _ _ _ e] using this
    · next hc => exact absurd hc hw
    · exact ih _ ht

theorem mbxReset_wf : Memory.wf State.reset.mbx = true := by decide

end Sys2Proof.Machine
end

