-- ==== Sys2Proof/Laws/Ops.lean ====
section
/-! SUPPORT. What the shared operations of an instruction do: a read of a core after a change, what the fetch leaves, and
the state after an instruction that only changes its thread. -/
namespace Sys2Proof.Machine

@[simp] theorem getCore_setCore_same (s : State) (i : Nat) (c : Core) : getCore (setCore s i c) i = c := by
  simp [getCore, setCore]

theorem getCore_setCore_other (s : State) (i j : Nat) (c : Core) (h : j ≠ i) :
    getCore (setCore s i c) j = getCore s j :=
  tget_tset_other _ _ _ _ _ h

@[simp] theorem getCore_modCore_same (s : State) (i : Nat) (f : Core → Core) :
    getCore (modCore s i f) i = f (getCore s i) := by
  simp [modCore]

theorem getCore_modCore_other (s : State) (i j : Nat) (f : Core → Core) (h : j ≠ i) :
    getCore (modCore s i f) j = getCore s j :=
  getCore_setCore_other _ _ _ _ h

@[simp] theorem getTh_modTh_same (s : State) (i : Nat) (t : Fin 4) (f : Thread → Thread) :
    getTh (modTh s i t f) i t = f (getTh s i t) := by
  simp [getTh, modTh, coreModTh]

theorem getTh_modTh_other (s : State) (i : Nat) (t u : Fin 4) (f : Thread → Thread) (h : u ≠ t) :
    getTh (modTh s i t f) i u = getTh s i u := by
  have : t.val ≠ u.val := fun e => h (Fin.ext e.symm)
  simp [getTh, modTh, coreModTh, this]

/-- A thread that is ready issues its instruction: the body decides what follows. -/
theorem issue_ready {s : State} {cpu : Cpu} {t : Fin 4} {slot : Nat} (h : Ready s cpu t slot)
    (body : Nat → State → Res State) :
    issue s cpu t body =
      match body slot (fetched s slot t) with
      | .ok s' => .next (afterIssue s' slot t)
      | .fault f => .next (afterIssue (takeFault (fetched s slot t) slot t f) slot t)
      | .after s' f => .next (afterIssue (takeFault s' slot t f) slot t)
      | .stall => .next s := by
  have hw := h.word
  simp only [fetched] at hw ⊢
  simp only [issue, h.here, h.free, hw]
  rfl

/-- As `issue_ready`, for a body that succeeds. -/
theorem issue_ok {s s' : State} {cpu : Cpu} {t : Fin 4} {slot : Nat} (h : Ready s cpu t slot)
    {body : Nat → State → Res State} (hb : body slot (fetched s slot t) = .ok s') :
    issue s cpu t body = .next (afterIssue s' slot t) := by
  rw [issue_ready h, hb]

/-! ### What reads leave -/

@[simp] theorem memPutBytes_check (m : Mem) (a : Nat) (bs : List Byte) : (memPutBytes m a bs).check = m.check := by
  induction bs generalizing m a with
  | nil => rfl
  | cons b bs ih => rw [memPutBytes, ih]; rfl

@[simp] theorem memPutBytes_tags (m : Mem) (a : Nat) (bs : List Byte) : (memPutBytes m a bs).tags = m.tags := by
  induction bs generalizing m a with
  | nil => rfl
  | cons b bs ih => rw [memPutBytes, ih]; rfl

@[simp] theorem settleWords_tags (u : Nat) (m : Mem) (ws : List Nat) : (settleWords u m ws).mem.tags = m.tags := by
  induction ws generalizing m with
  | nil => rfl
  | cons w ws ih =>
    unfold settleWords
    split
    · exact ih _
    · exact (ih _).trans (memPutBytes_tags _ _ _)
    · exact ih _

theorem memCheck_poisonWord (u : Nat) (m : Mem) (w v : Nat) :
    memCheck (memPoisonWord u m w) v = if v = w then .poison else memCheck m v := by
  simp [memCheck, memPoisonWord, memSetCheck, tget_tset]

theorem memCheck_setCheck (m : Mem) (w v : Nat) (c : Check) :
    memCheck (memSetCheck m w c) v = if v = w then c else memCheck m v := by
  simp [memCheck, memSetCheck, tget_tset]

/-- A read never repairs poison. -/
theorem settleWords_poison (u : Nat) (m : Mem) (ws : List Nat) (v : Nat) (h : memCheck m v = .poison) :
    memCheck (settleWords u m ws).mem v = .poison := by
  induction ws generalizing m with
  | nil => exact h
  | cons w ws ih =>
    unfold settleWords
    split
    · next hc =>
      apply ih
      rw [memCheck_setCheck, if_neg]
      · exact h
      · rintro rfl; simp [h] at hc
    · apply ih
      rw [memCheck_poisonWord]
      split <;> simp [h]
    · exact ih _ h

/-- If a read leaves none of its words poisoned, it found none of them uncorrectable. -/
theorem settleWords_sound (u : Nat) (m : Mem) (ws : List Nat)
    (h : ∀ w ∈ ws, memCheck (settleWords u m ws).mem w ≠ .poison) :
    (∀ w ∈ ws, memCheck m w ≠ .double) ∧ (settleWords u m ws).ues = [] := by
  induction ws generalizing m with
  | nil => simp [settleWords]
  | cons w ws ih =>
    have hw := h w (by simp)
    have ht := fun v (hv : v ∈ ws) => h v (by simp [hv])
    cases hc : memCheck m w <;> simp only [settleWords, hc] at hw ht ⊢
    case double => exact absurd (settleWords_poison _ _ _ _ (by rw [memCheck_poisonWord]; simp)) hw
    case single =>
      have := ih _ ht
      refine ⟨?_, this.2⟩
      intro v hv
      simp only [List.mem_cons] at hv
      rcases hv with rfl | hv
      · simp [hc]
      · have := this.1 v hv
        rw [memCheck_setCheck] at this
        split at this
        · next e => subst e; simp [hc]
        · exact this
    all_goals
      have := ih _ ht
      refine ⟨?_, this.2⟩
      intro v hv
      simp only [List.mem_cons] at hv
      rcases hv with rfl | hv
      · simp [hc]
      · exact this.1 v hv

theorem OnlyFetch.refl (s : State) (slot : Nat) : OnlyFetch s s slot := ⟨rfl, fun _ => ⟨rfl, rfl⟩⟩

theorem OnlyFetch.trans {s s' s'' : State} {slot : Nat} (h : OnlyFetch s s' slot) (g : OnlyFetch s' s'' slot) :
    OnlyFetch s s'' slot where
  so := by rw [g.so, h.so]
  cluster hs := ⟨(g.cluster hs).1.trans (h.cluster hs).1, (g.cluster hs).2.trans (h.cluster hs).2⟩

theorem OnlyReads.refl (s : State) (slot : Nat) : OnlyReads s s slot :=
  ⟨rfl, fun _ _ => rfl, ⟨fun _ _ => rfl, fun _ => rfl, fun _ => rfl, fun _ => rfl, fun _ => rfl, fun _ => rfl⟩,
    ⟨rfl, rfl⟩, fun _ _ => rfl, OnlyFetch.refl s slot, rfl⟩

theorem OnlyReads.trans {s s' s'' : State} {slot : Nat} (h : OnlyReads s s' slot) (g : OnlyReads s' s'' slot) :
    OnlyReads s s'' slot where
  core := by rw [g.core, h.core]
  cores j hj := (g.cores j hj).trans (h.cores j hj)
  bytes :=
    ⟨fun i a => (g.bytes.loc i a).trans (h.bytes.loc i a), fun a => (g.bytes.sram a).trans (h.bytes.sram a),
      fun a => (g.bytes.l2 a).trans (h.bytes.l2 a), fun a => (g.bytes.mbx a).trans (h.bytes.mbx a),
      fun a => (g.bytes.hbm a).trans (h.bytes.hbm a), fun a => (g.bytes.lp a).trans (h.bytes.lp a)⟩
  tags := ⟨g.tags.1.trans h.tags.1, g.tags.2.trans h.tags.2⟩
  dev o ho := (g.dev o ho).trans (h.dev o ho)
  fetch := h.fetch.trans g.fetch
  rest := by rw [g.rest, h.rest]

/-- With nothing uncorrectable, the error log changes only the count of corrections. -/
theorem logSram_ce (s : State) (c : Fin 8) (b : Bool) (p n : Nat) :
    ∃ dev, logSram s c b p n [] = { s with dev := dev } ∧
      ∀ o, notSramLog c o → tget devDefault dev o = devGet s o := by
  unfold logSram
  split
  · exact ⟨s.dev, rfl, fun _ _ => rfl⟩
  · exact ⟨_, rfl, fun o ho => tget_tset_other _ _ _ _ _ ho.1⟩

@[simp] theorem raiseMsi_cores (s : State) (v : Nat) : (raiseMsi s v).cores = s.cores := by
  unfold raiseMsi; split <;> rfl

@[simp] theorem pushEvent_cores (s : State) (typ src : BitVec 16) (d : BitVec 64) :
    (pushEvent s typ src d).cores = s.cores := by
  unfold pushEvent
  dsimp only
  split
  · rfl
  · split
    · exact raiseMsi_cores _ _
    · rfl

@[simp] theorem raiseMsi_soCsr (s : State) (v : Nat) : (raiseMsi s v).soCsr = s.soCsr := by
  unfold raiseMsi; split <;> rfl

@[simp] theorem pushEvent_soCsr (s : State) (typ src : BitVec 16) (d : BitVec 64) :
    (pushEvent s typ src d).soCsr = s.soCsr := by
  unfold pushEvent
  dsimp only
  split
  · rfl
  · split
    · exact raiseMsi_soCsr _ _
    · rfl

@[simp] theorem logSram_soCsr (s : State) (c : Fin 8) (b : Bool) (p n : Nat) (ues : List Nat) :
    (logSram s c b p n ues).soCsr = s.soCsr := by
  unfold logSram
  split
  · rfl
  · cases ues with
    | nil => rfl
    | cons a l =>
      dsimp only
      split
      · rfl
      · rw [pushEvent_soCsr]; rfl

@[simp] theorem logSram_cores (s : State) (c : Fin 8) (b : Bool) (p n : Nat) (ues : List Nat) :
    (logSram s c b p n ues).cores = s.cores := by
  unfold logSram
  split
  · rfl
  · cases ues with
    | nil => rfl
    | cons a l =>
      dsimp only
      split
      · rfl
      · rw [pushEvent_cores]; rfl

/-- A read of local memory that finds no poison. -/
theorem settleLocal_reads (s : State) (slot a n : Nat)
    (h : memPoisoned 4 (getCore (settleLocal s slot a n) slot).mem a n = false) :
    OnlyReads s (settleLocal s slot a n) slot := by
  have hm : (getCore (settleLocal s slot a n) slot).mem = (settleWords 4 (getCore s slot).mem (wordsOf 4 a n)).mem := by
    simp only [settleLocal]
    generalize hr : settleWords 4 (getCore s slot).mem (wordsOf 4 a n) = r
    have this (x : State) : getCore (logSram x (clusterOf slot) true slot r.ce r.ues) slot = getCore x slot := by
      simp [getCore]
    rw [this]
    simp
  rw [hm] at h
  have hp : ∀ w ∈ wordsOf 4 a n, memCheck (settleWords 4 (getCore s slot).mem (wordsOf 4 a n)).mem w ≠ .poison := by
    simpa [memPoisoned] using h
  have hs := settleWords_sound _ _ _ hp
  have hb := memByte_settleWords 4 _ _ hs.1
  obtain ⟨dev, hd, hdev⟩ := logSram_ce (modCore s slot (fun c =>
    { c with mem := (settleWords 4 (getCore s slot).mem (wordsOf 4 a n)).mem })) (clusterOf slot) true slot
    (settleWords 4 (getCore s slot).mem (wordsOf 4 a n)).ce
  have he : settleLocal s slot a n = { modCore s slot (fun c =>
      { c with mem := (settleWords 4 (getCore s slot).mem (wordsOf 4 a n)).mem }) with dev := dev } := by
    simp only [settleLocal, hs.2, hd]
  have hg : ∀ j, getCore (settleLocal s slot a n) j = getCore (modCore s slot (fun c =>
      { c with mem := (settleWords 4 (getCore s slot).mem (wordsOf 4 a n)).mem })) j := by
    intro j; rw [he]; rfl
  refine ⟨?_, ?_, ?_, ?_, ?_, ⟨by rw [he]; rfl, fun _ => ⟨by rw [he]; rfl, by rw [he]; rfl⟩⟩, ?_⟩
  · rw [hg]; simp
  · intro j hj; rw [hg, getCore_modCore_other _ _ _ _ hj]
  · refine ⟨?_, ?_, ?_, ?_, ?_, ?_⟩
    · intro i x
      rw [hg]
      by_cases e : i = slot
      · subst e; simp [hb]
      · rw [getCore_modCore_other _ _ _ _ e]
    all_goals intro x; rw [he]; rfl
  · exact ⟨by rw [hg]; simp, by rw [he]; rfl⟩
  · intro o ho
    rw [he]
    exact hdev o ho
  · rw [he]; rfl

/-- A read of the L2 of the control cores that finds no poison. -/
theorem settleL2_reads (s : State) (slot a n : Nat)
    (h : memPoisoned 4 (settleWords 4 s.l2 (wordsOf 4 a n)).mem a n = false) :
    OnlyReads s { s with l2 := (settleWords 4 s.l2 (wordsOf 4 a n)).mem } slot := by
  have hp : ∀ w ∈ wordsOf 4 a n, memCheck (settleWords 4 s.l2 (wordsOf 4 a n)).mem w ≠ .poison := by
    simpa [memPoisoned] using h
  have hb := memByte_settleWords 4 _ _ (settleWords_sound _ _ _ hp).1
  exact ⟨rfl, fun _ _ => rfl, ⟨fun _ _ => rfl, fun _ => rfl, hb, fun _ => rfl, fun _ => rfl, fun _ => rfl⟩,
    ⟨rfl, settleWords_tags _ _ _⟩, fun _ _ => rfl, ⟨rfl, fun _ => ⟨rfl, rfl⟩⟩, rfl⟩

/-- A line fetched from the boot ROM: the instruction cache of a control core, and the counter of open choices, are all that
changes. -/
theorem fetchRom_rest (s : State) (k a : Nat) :
    ∃ l n, fetchRom s k a = { s with so := { s.so with l1i := l }, fresh := n } := by
  unfold fetchRom chooseWay freshNat
  dsimp only
  split
  · exact ⟨s.so.l1i, s.fresh, rfl⟩
  · split <;> exact ⟨_, _, rfl⟩

/-- The boot ROM is a place of a control core. -/
theorem placeOf_rom {s : State} {slot a n b : Nat} (h : placeOf s slot a n = .rom b) : isSo slot = true := by
  cases hc : isSo slot with
  | true => rfl
  | false =>
    unfold placeOf at h
    simp only [hc] at h
    repeat' split at h
    all_goals contradiction

/-- A fetch from the boot ROM only reads. -/
theorem fetchRom_reads {s : State} {slot : Nat} (k a : Nat) (h : isSo slot = true) : OnlyReads s (fetchRom s k a) slot := by
  obtain ⟨l, n, e⟩ := fetchRom_rest s k a
  rw [e]
  refine ⟨rfl, fun _ _ => rfl, ⟨fun _ _ => rfl, fun _ => rfl, fun _ => rfl, fun _ => rfl, fun _ => rfl, fun _ => rfl⟩,
    ⟨rfl, rfl⟩, fun _ _ => rfl, ⟨rfl, fun hs => ?_⟩, rfl⟩
  unfold isSo at h
  simp at h
  omega

/-- The fetch of an instruction that can run only reads. -/
theorem ready_reads {s : State} {cpu : Cpu} {t : Fin 4} {slot : Nat} (h : Ready s cpu t slot) :
    OnlyReads s (fetched s slot t) slot := by
  have hw := h.word
  have hpc : (getTh (fetched s slot t) slot t).pc = (getTh s slot t).pc ∧
      (∀ a, placeOf (fetched s slot t) slot a 4 = placeOf s slot a 4) := by
    unfold fetched settleFetch
    split
    · constructor
      · simp [getTh, settleLocal, getCore, modCore, setCore]
      · intro a; simp [placeOf, settleLocal, lockedWays, soGet, logSram_soCsr, modCore, setCore]
    · exact ⟨rfl, fun _ => rfl⟩
    · obtain ⟨l, n, e⟩ := fetchRom_rest s (slot - 576) (by assumption)
      rw [e]
      exact ⟨rfl, fun _ => rfl⟩
    · exact ⟨rfl, fun _ => rfl⟩
  have hq : fetchPoisoned (fetched s slot t) slot (getTh s slot t).pc.toNat = false := by
    unfold fetchFault at hw
    dsimp only at hw
    rw [hpc.1] at hw
    split at hw
    · cases hw
    · split at hw
      · cases hw
      · next h => simpa using h
  unfold fetchPoisoned at hq
  rw [hpc.2] at hq
  unfold fetched settleFetch at hq ⊢
  split
  · next a e => rw [e] at hq; exact settleLocal_reads _ _ _ _ hq
  · next o e => rw [e] at hq; exact settleL2_reads _ _ _ _ hq
  · next o e => exact fetchRom_reads _ _ (placeOf_rom e)
  · exact OnlyReads.refl _ _

theorem afterIssue_rest (s : State) (slot : Nat) (t : Fin 4) :
    ∃ cs, afterIssue s slot t = { s with cores := cs } := by
  unfold afterIssue
  dsimp only
  split <;> exact ⟨_, rfl⟩

theorem getCore_afterIssue_other (s : State) (slot : Nat) (t : Fin 4) (j : Nat) (h : j ≠ slot) :
    getCore (afterIssue s slot t) j = getCore s j := by
  unfold afterIssue modTh
  dsimp only
  split <;> simp only [getCore_modCore_other _ _ _ _ h]

/-- The thread of a finished issue, if no tile instruction of it is before its commit point. -/
theorem getCore_afterIssue (s : State) (slot : Nat) (t : Fin 4) (h : tileBeforeCommit s slot t = none) :
    getCore (afterIssue s slot t) slot =
      { getCore s slot with
        orphanRaised := false, th := (getCore s slot).th.set t (stepDone (getTh s slot t)) } := by
  unfold afterIssue stepDone
  dsimp only
  have e : getTh (modCore s slot fun c => { c with orphanRaised := false }) slot t = getTh s slot t := by
    simp [getTh]
  have q : tileBeforeCommit (modCore s slot fun c => { c with orphanRaised := false }) slot t = none := by
    rw [← h]
    simp only [tileBeforeCommit, getCore_modCore_same]
    rfl
  rw [e, q]
  split
  · split <;> simp_all [modTh, coreModTh, getTh]
  · simp [getTh]

/-- What an issue leaves, when its reads have only read and its body has changed its core by `f`, with no tile instruction of
the thread in flight. -/
theorem onlyCore_of_reads {s s0 : State} {slot : Nat} {t : Fin 4} (h : OnlyReads s s0 slot) (f : Core → Core)
    (hf : ∀ c m, f { c with mem := m } = { f c with mem := m }) (hq : tileBeforeCommit (modCore s0 slot f) slot t = none) :
    OnlyCore s (afterIssue (modCore s0 slot f) slot t) slot
      { f (getCore s slot) with th := (f (getCore s slot)).th.set t (stepDone (f (getCore s slot)).th[t]) } := by
  obtain ⟨cs, hcs⟩ := afterIssue_rest (modCore s0 slot f) slot t
  have hc : getCore (afterIssue (modCore s0 slot f) slot t) slot =
      { f (getCore s slot) with
        mem := (getCore s0 slot).mem, orphanRaised := false,
        th := (f (getCore s slot)).th.set t (stepDone (f (getCore s slot)).th[t]) } := by
    rw [getCore_afterIssue _ _ _ hq, getTh, getCore_modCore_same, h.core, hf]
  have hj (j : Nat) (e : j ≠ slot) : getCore (afterIssue (modCore s0 slot f) slot t) j = getCore s j := by
    rw [getCore_afterIssue_other _ _ _ _ e, getCore_modCore_other _ _ _ _ e, h.cores j e]
  refine ⟨by rw [hc], hj, ⟨?_, ?_, ?_, ?_, ?_, ?_⟩, ⟨by rw [hc]; exact h.tags.1, by rw [hcs]; exact h.tags.2⟩, ?_,
    ⟨by rw [hcs]; exact h.fetch.so, fun hs => ⟨by rw [hcs]; exact (h.fetch.cluster hs).1, by
      rw [hcs]; exact (h.fetch.cluster hs).2⟩⟩, ?_⟩
  · intro i a
    by_cases e : i = slot
    · subst e; rw [hc]; exact h.bytes.loc _ a
    · rw [hj i e]
  · intro a; rw [hcs]; exact h.bytes.sram a
  · intro a; rw [hcs]; exact h.bytes.l2 a
  · intro a; rw [hcs]; exact h.bytes.mbx a
  · intro a; rw [hcs]; exact h.bytes.hbm a
  · intro a; rw [hcs]; exact h.bytes.lp a
  · intro o ho; rw [hcs]; exact h.dev o ho
  · have hs : ({ s0 with cores := cs } : State) =
        { s with cores := cs, l2 := s0.l2, dev := s0.dev, so := s0.so, fresh := s0.fresh, setNow := s0.setNow } :=
      congrArg (fun x : State => { x with cores := cs }) h.rest
    rw [hcs]
    exact hs

/-- A thread that can issue has no tile instruction before its commit point. -/
theorem canIssue_tile {s : State} {slot : Nat} {t : Fin 4} (h : canIssue s slot t = true) :
    tileBeforeCommit s slot t = none := by
  unfold canIssue at h
  simp only [Bool.and_eq_true] at h
  simpa using h.2

/-- Reads move no clock, and the queue of tile instructions stays as it is under a change of a core that leaves it. -/
theorem tileBeforeCommit_of_reads {s s0 : State} {slot : Nat} {t : Fin 4} (h : OnlyReads s s0 slot) (f : Core → Core)
    (hf : ∀ c, (f c).tq = c.tq) : tileBeforeCommit (modCore s0 slot f) slot t = tileBeforeCommit s slot t := by
  have hc : clockOf (modCore s0 slot f) slot = clockOf s slot := by
    rw [h.rest]; rfl
  simp only [tileBeforeCommit, getCore_modCore_same, hf, hc]
  rw [h.core]

/-- What an instruction that only changes its thread leaves. -/
theorem onlyThread_advance {s s0 : State} {slot : Nat} {t : Fin 4} (h : OnlyReads s s0 slot)
    (hi : canIssue s slot t = true) (f : Thread → Thread) :
    OnlyThread s (afterIssue (advance s0 slot t f) slot t) slot t
      { f (getTh s slot t) with pc := (getTh s slot t).pc + 4 } := by
  have hq : tileBeforeCommit
      (modCore s0 slot (fun c => coreModTh c t (fun th => { f th with pc := th.pc + 4 }))) slot t = none := by
    exact (tileBeforeCommit_of_reads h (fun c => coreModTh c t (fun th => { f th with pc := th.pc + 4 }))
      (fun _ => rfl)).trans (canIssue_tile hi)
  have := onlyCore_of_reads (t := t) h (fun c => coreModTh c t (fun th => { f th with pc := th.pc + 4 })) (fun _ _ => rfl) hq
  simpa [OnlyThread, withThread, coreModTh, advance, modTh, getTh] using this

/-- An instruction that only changes its thread, and can run, completes. -/
theorem regOp_completes {s : State} {cpu : Cpu} {t : Fin 4} {slot : Nat} (h : Ready s cpu t slot)
    (f : Thread → Thread) :
    ∃ s', regOp s cpu t f = .next s' ∧
      OnlyThread s s' slot t { f (getTh s slot t) with pc := (getTh s slot t).pc + 4 } :=
  ⟨_, issue_ok h rfl, onlyThread_advance (ready_reads h) h.free f⟩

/-! ### A store to a courier's door, a unit that leaves self-refresh, a count of receipts -/

@[simp] theorem mem_upFrom (a n k : Nat) : k ∈ upFrom a n ↔ a ≤ k ∧ k < a + n := by
  induction n generalizing a with
  | zero => simp [upFrom]
  | succ n ih => simp [upFrom, ih]; omega

/-- A store that completes at the door increments as one that completes at once (R37), and an exchange gives its value (R51). -/
theorem doorEnd_storeEnd (m : EaMode) (n : Nat) (v : Option Word) (th : Thread) :
    doorEnd (storeEnd m n v) th = match v with | none => postInc m n th | some w => accZN (postInc m n th) w := by
  cases m <;> cases v <;> simp [doorEnd, storeEnd, postInc]

/-- A stack or package that is in self-refresh loses that bit, and another register and everything else stay (R380). -/
theorem leaveRefresh_dev (s : State) (o : Nat) :
    (leaveRefresh s o = s ∨ leaveRefresh s o = devSet s o (devGet s o &&& 0x7FFFFFFF)) ∧
      ((devGet s o).getLsbD 31 = true → leaveRefresh s o = devSet s o (devGet s o &&& 0x7FFFFFFF)) ∧
      ((devGet s o).getLsbD 31 = false → leaveRefresh s o = s) := by
  unfold leaveRefresh
  by_cases h : bitOf (devGet s o) 31 = true
  · rw [if_pos h]; exact ⟨.inr rfl, fun _ => rfl, fun g => absurd (g.symm.trans h) (by decide)⟩
  · rw [if_neg h]; exact ⟨.inl rfl, fun g => absurd g h, fun _ => rfl⟩

/-- Firmware may acknowledge up to 16 receipts, each signed, forwarded for every record of its batch (R477). -/
theorem mayForward_iff (s : State) (v : Word) :
    mayForward s v = true ↔ (v - rcptAck s).toNat ≤ 16 ∧ ∀ k, k < (v - rcptAck s).toNat →
      rcptAck s + BitVec.ofNat 32 k ∈ s.so.sealing.receipts ∧ undelivered s (rcptAck s + BitVec.ofNat 32 k) = false := by
  simp [mayForward, mem_upFrom]

end Sys2Proof.Machine
end

