-- ==== Sys2Proof/Laws/State.lean ====
section
/-! SUPPORT. What each named update of the state leaves: one law for each field and each update, so that no later proof
unfolds a record update. -/
namespace Sys2Proof.Machine
variable (s : State)

/-! ### setCore -/

@[simp] theorem setCore_pending (i : Nat) (c : Core) : (setCore s i c).pending = s.pending := rfl
@[simp] theorem setCore_meshCycle (i : Nat) (c : Core) : (setCore s i c).meshCycle = s.meshCycle := rfl
@[simp] theorem setCore_fresh (i : Nat) (c : Core) : (setCore s i c).fresh = s.fresh := rfl
@[simp] theorem setCore_coreSite (i : Nat) (c : Core) : (setCore s i c).coreSite = s.coreSite := rfl
@[simp] theorem setCore_siteState (i : Nat) (c : Core) : (setCore s i c).siteState = s.siteState := rfl
@[simp] theorem setCore_compat512 (i : Nat) (c : Core) : (setCore s i c).compat512 = s.compat512 := rfl
@[simp] theorem setCore_perCluster (i : Nat) (c : Core) : (setCore s i c).perCluster = s.perCluster := rfl
@[simp] theorem setCore_clusters (i : Nat) (c : Core) : (setCore s i c).clusters = s.clusters := rfl
@[simp] theorem setCore_sram (i : Nat) (c : Core) : (setCore s i c).sram = s.sram := rfl
@[simp] theorem setCore_sramScrub (i : Nat) (c : Core) : (setCore s i c).sramScrub = s.sramScrub := rfl
@[simp] theorem setCore_dev (i : Nat) (c : Core) : (setCore s i c).dev = s.dev := rfl
@[simp] theorem setCore_setNow (i : Nat) (c : Core) : (setCore s i c).setNow = s.setNow := rfl
@[simp] theorem setCore_msgs (i : Nat) (c : Core) : (setCore s i c).msgs = s.msgs := rfl
@[simp] theorem setCore_rounds (i : Nat) (c : Core) : (setCore s i c).rounds = s.rounds := rfl
@[simp] theorem setCore_barDue (i : Nat) (c : Core) : (setCore s i c).barDue = s.barDue := rfl
@[simp] theorem setCore_channels (i : Nat) (c : Core) : (setCore s i c).channels = s.channels := rfl
@[simp] theorem setCore_lastGrant (i : Nat) (c : Core) : (setCore s i c).lastGrant = s.lastGrant := rfl
@[simp] theorem setCore_l2 (i : Nat) (c : Core) : (setCore s i c).l2 = s.l2 := rfl
@[simp] theorem setCore_soCsr (i : Nat) (c : Core) : (setCore s i c).soCsr = s.soCsr := rfl
@[simp] theorem setCore_shadows (i : Nat) (c : Core) : (setCore s i c).shadows = s.shadows := rfl
@[simp] theorem setCore_mbx (i : Nat) (c : Core) : (setCore s i c).mbx = s.mbx := rfl
@[simp] theorem setCore_soNotes (i : Nat) (c : Core) : (setCore s i c).soNotes = s.soNotes := rfl
@[simp] theorem setCore_stageQ (i : Nat) (c : Core) : (setCore s i c).stageQ = s.stageQ := rfl
@[simp] theorem setCore_dbgSession (i : Nat) (c : Core) : (setCore s i c).dbgSession = s.dbgSession := rfl
@[simp] theorem setCore_pba (i : Nat) (c : Core) : (setCore s i c).pba = s.pba := rfl
@[simp] theorem setCore_evtRing (i : Nat) (c : Core) : (setCore s i c).evtRing = s.evtRing := rfl
@[simp] theorem setCore_evtProd (i : Nat) (c : Core) : (setCore s i c).evtProd = s.evtProd := rfl
@[simp] theorem setCore_evtLost (i : Nat) (c : Core) : (setCore s i c).evtLost = s.evtLost := rfl
@[simp] theorem setCore_evtCount (i : Nat) (c : Core) : (setCore s i c).evtCount = s.evtCount := rfl
@[simp] theorem setCore_fab (i : Nat) (c : Core) : (setCore s i c).fab = s.fab := rfl
@[simp] theorem setCore_so (i : Nat) (c : Core) : (setCore s i c).so = s.so := rfl
@[simp] theorem setCore_flash (i : Nat) (c : Core) : (setCore s i c).flash = s.flash := rfl
@[simp] theorem setCore_nm (i : Nat) (c : Core) : (setCore s i c).nm = s.nm := rfl
@[simp] theorem setCore_fr (i : Nat) (c : Core) : (setCore s i c).fr = s.fr := rfl
@[simp] theorem setCore_mod (i : Nat) (c : Core) : (setCore s i c).mod = s.mod := rfl
@[simp] theorem setCore_rerouted (i : Nat) (c : Core) : (setCore s i c).rerouted = s.rerouted := rfl
@[simp] theorem setCore_outbox (i : Nat) (c : Core) : (setCore s i c).outbox = s.outbox := rfl
@[simp] theorem devGet_setCore (i : Nat) (c : Core) (j : Nat) : devGet (setCore s i c) j = devGet s j := rfl
@[simp] theorem soGet_setCore (i : Nat) (c : Core) (j x : Nat) : soGet (setCore s i c) j x = soGet s j x := rfl
@[simp] theorem getCl_setCore (i : Nat) (c : Core) (j : Fin 8) : getCl (setCore s i c) j = getCl s j := rfl
@[simp] theorem getCh_setCore (i : Nat) (c : Core) (j : Nat) : getCh (setCore s i c) j = getCh s j := rfl
@[simp] theorem getPort_setCore (i : Nat) (c : Core) (j : Nat) : getPort (setCore s i c) j = getPort s j := rfl

/-! ### modCore -/

@[simp] theorem modCore_pending (i : Nat) (f : Core → Core) : (modCore s i f).pending = s.pending := rfl
@[simp] theorem modCore_meshCycle (i : Nat) (f : Core → Core) : (modCore s i f).meshCycle = s.meshCycle := rfl
@[simp] theorem modCore_fresh (i : Nat) (f : Core → Core) : (modCore s i f).fresh = s.fresh := rfl
@[simp] theorem modCore_coreSite (i : Nat) (f : Core → Core) : (modCore s i f).coreSite = s.coreSite := rfl
@[simp] theorem modCore_siteState (i : Nat) (f : Core → Core) : (modCore s i f).siteState = s.siteState := rfl
@[simp] theorem modCore_compat512 (i : Nat) (f : Core → Core) : (modCore s i f).compat512 = s.compat512 := rfl
@[simp] theorem modCore_perCluster (i : Nat) (f : Core → Core) : (modCore s i f).perCluster = s.perCluster := rfl
@[simp] theorem modCore_clusters (i : Nat) (f : Core → Core) : (modCore s i f).clusters = s.clusters := rfl
@[simp] theorem modCore_sram (i : Nat) (f : Core → Core) : (modCore s i f).sram = s.sram := rfl
@[simp] theorem modCore_sramScrub (i : Nat) (f : Core → Core) : (modCore s i f).sramScrub = s.sramScrub := rfl
@[simp] theorem modCore_dev (i : Nat) (f : Core → Core) : (modCore s i f).dev = s.dev := rfl
@[simp] theorem modCore_setNow (i : Nat) (f : Core → Core) : (modCore s i f).setNow = s.setNow := rfl
@[simp] theorem modCore_msgs (i : Nat) (f : Core → Core) : (modCore s i f).msgs = s.msgs := rfl
@[simp] theorem modCore_rounds (i : Nat) (f : Core → Core) : (modCore s i f).rounds = s.rounds := rfl
@[simp] theorem modCore_barDue (i : Nat) (f : Core → Core) : (modCore s i f).barDue = s.barDue := rfl
@[simp] theorem modCore_channels (i : Nat) (f : Core → Core) : (modCore s i f).channels = s.channels := rfl
@[simp] theorem modCore_lastGrant (i : Nat) (f : Core → Core) : (modCore s i f).lastGrant = s.lastGrant := rfl
@[simp] theorem modCore_l2 (i : Nat) (f : Core → Core) : (modCore s i f).l2 = s.l2 := rfl
@[simp] theorem modCore_soCsr (i : Nat) (f : Core → Core) : (modCore s i f).soCsr = s.soCsr := rfl
@[simp] theorem modCore_shadows (i : Nat) (f : Core → Core) : (modCore s i f).shadows = s.shadows := rfl
@[simp] theorem modCore_mbx (i : Nat) (f : Core → Core) : (modCore s i f).mbx = s.mbx := rfl
@[simp] theorem modCore_soNotes (i : Nat) (f : Core → Core) : (modCore s i f).soNotes = s.soNotes := rfl
@[simp] theorem modCore_stageQ (i : Nat) (f : Core → Core) : (modCore s i f).stageQ = s.stageQ := rfl
@[simp] theorem modCore_dbgSession (i : Nat) (f : Core → Core) : (modCore s i f).dbgSession = s.dbgSession := rfl
@[simp] theorem modCore_pba (i : Nat) (f : Core → Core) : (modCore s i f).pba = s.pba := rfl
@[simp] theorem modCore_evtRing (i : Nat) (f : Core → Core) : (modCore s i f).evtRing = s.evtRing := rfl
@[simp] theorem modCore_evtProd (i : Nat) (f : Core → Core) : (modCore s i f).evtProd = s.evtProd := rfl
@[simp] theorem modCore_evtLost (i : Nat) (f : Core → Core) : (modCore s i f).evtLost = s.evtLost := rfl
@[simp] theorem modCore_evtCount (i : Nat) (f : Core → Core) : (modCore s i f).evtCount = s.evtCount := rfl
@[simp] theorem modCore_fab (i : Nat) (f : Core → Core) : (modCore s i f).fab = s.fab := rfl
@[simp] theorem modCore_so (i : Nat) (f : Core → Core) : (modCore s i f).so = s.so := rfl
@[simp] theorem modCore_flash (i : Nat) (f : Core → Core) : (modCore s i f).flash = s.flash := rfl
@[simp] theorem modCore_nm (i : Nat) (f : Core → Core) : (modCore s i f).nm = s.nm := rfl
@[simp] theorem modCore_fr (i : Nat) (f : Core → Core) : (modCore s i f).fr = s.fr := rfl
@[simp] theorem modCore_mod (i : Nat) (f : Core → Core) : (modCore s i f).mod = s.mod := rfl
@[simp] theorem modCore_rerouted (i : Nat) (f : Core → Core) : (modCore s i f).rerouted = s.rerouted := rfl
@[simp] theorem modCore_outbox (i : Nat) (f : Core → Core) : (modCore s i f).outbox = s.outbox := rfl
@[simp] theorem devGet_modCore (i : Nat) (f : Core → Core) (j : Nat) : devGet (modCore s i f) j = devGet s j := rfl
@[simp] theorem soGet_modCore (i : Nat) (f : Core → Core) (j x : Nat) : soGet (modCore s i f) j x = soGet s j x := rfl
@[simp] theorem getCl_modCore (i : Nat) (f : Core → Core) (j : Fin 8) : getCl (modCore s i f) j = getCl s j := rfl
@[simp] theorem getCh_modCore (i : Nat) (f : Core → Core) (j : Nat) : getCh (modCore s i f) j = getCh s j := rfl
@[simp] theorem getPort_modCore (i : Nat) (f : Core → Core) (j : Nat) : getPort (modCore s i f) j = getPort s j := rfl

/-! ### modTh -/

@[simp] theorem modTh_pending (i : Nat) (t : Fin 4) (f : Thread → Thread) : (modTh s i t f).pending = s.pending := rfl
@[simp] theorem modTh_meshCycle (i : Nat) (t : Fin 4) (f : Thread → Thread) : (modTh s i t f).meshCycle = s.meshCycle := rfl
@[simp] theorem modTh_fresh (i : Nat) (t : Fin 4) (f : Thread → Thread) : (modTh s i t f).fresh = s.fresh := rfl
@[simp] theorem modTh_coreSite (i : Nat) (t : Fin 4) (f : Thread → Thread) : (modTh s i t f).coreSite = s.coreSite := rfl
@[simp] theorem modTh_siteState (i : Nat) (t : Fin 4) (f : Thread → Thread) : (modTh s i t f).siteState = s.siteState := rfl
@[simp] theorem modTh_compat512 (i : Nat) (t : Fin 4) (f : Thread → Thread) : (modTh s i t f).compat512 = s.compat512 := rfl
@[simp] theorem modTh_perCluster (i : Nat) (t : Fin 4) (f : Thread → Thread) : (modTh s i t f).perCluster = s.perCluster := rfl
@[simp] theorem modTh_clusters (i : Nat) (t : Fin 4) (f : Thread → Thread) : (modTh s i t f).clusters = s.clusters := rfl
@[simp] theorem modTh_sram (i : Nat) (t : Fin 4) (f : Thread → Thread) : (modTh s i t f).sram = s.sram := rfl
@[simp] theorem modTh_sramScrub (i : Nat) (t : Fin 4) (f : Thread → Thread) : (modTh s i t f).sramScrub = s.sramScrub := rfl
@[simp] theorem modTh_dev (i : Nat) (t : Fin 4) (f : Thread → Thread) : (modTh s i t f).dev = s.dev := rfl
@[simp] theorem modTh_setNow (i : Nat) (t : Fin 4) (f : Thread → Thread) : (modTh s i t f).setNow = s.setNow := rfl
@[simp] theorem modTh_msgs (i : Nat) (t : Fin 4) (f : Thread → Thread) : (modTh s i t f).msgs = s.msgs := rfl
@[simp] theorem modTh_rounds (i : Nat) (t : Fin 4) (f : Thread → Thread) : (modTh s i t f).rounds = s.rounds := rfl
@[simp] theorem modTh_barDue (i : Nat) (t : Fin 4) (f : Thread → Thread) : (modTh s i t f).barDue = s.barDue := rfl
@[simp] theorem modTh_channels (i : Nat) (t : Fin 4) (f : Thread → Thread) : (modTh s i t f).channels = s.channels := rfl
@[simp] theorem modTh_lastGrant (i : Nat) (t : Fin 4) (f : Thread → Thread) : (modTh s i t f).lastGrant = s.lastGrant := rfl
@[simp] theorem modTh_l2 (i : Nat) (t : Fin 4) (f : Thread → Thread) : (modTh s i t f).l2 = s.l2 := rfl
@[simp] theorem modTh_soCsr (i : Nat) (t : Fin 4) (f : Thread → Thread) : (modTh s i t f).soCsr = s.soCsr := rfl
@[simp] theorem modTh_shadows (i : Nat) (t : Fin 4) (f : Thread → Thread) : (modTh s i t f).shadows = s.shadows := rfl
@[simp] theorem modTh_mbx (i : Nat) (t : Fin 4) (f : Thread → Thread) : (modTh s i t f).mbx = s.mbx := rfl
@[simp] theorem modTh_soNotes (i : Nat) (t : Fin 4) (f : Thread → Thread) : (modTh s i t f).soNotes = s.soNotes := rfl
@[simp] theorem modTh_stageQ (i : Nat) (t : Fin 4) (f : Thread → Thread) : (modTh s i t f).stageQ = s.stageQ := rfl
@[simp] theorem modTh_dbgSession (i : Nat) (t : Fin 4) (f : Thread → Thread) : (modTh s i t f).dbgSession = s.dbgSession := rfl
@[simp] theorem modTh_pba (i : Nat) (t : Fin 4) (f : Thread → Thread) : (modTh s i t f).pba = s.pba := rfl
@[simp] theorem modTh_evtRing (i : Nat) (t : Fin 4) (f : Thread → Thread) : (modTh s i t f).evtRing = s.evtRing := rfl
@[simp] theorem modTh_evtProd (i : Nat) (t : Fin 4) (f : Thread → Thread) : (modTh s i t f).evtProd = s.evtProd := rfl
@[simp] theorem modTh_evtLost (i : Nat) (t : Fin 4) (f : Thread → Thread) : (modTh s i t f).evtLost = s.evtLost := rfl
@[simp] theorem modTh_evtCount (i : Nat) (t : Fin 4) (f : Thread → Thread) : (modTh s i t f).evtCount = s.evtCount := rfl
@[simp] theorem modTh_fab (i : Nat) (t : Fin 4) (f : Thread → Thread) : (modTh s i t f).fab = s.fab := rfl
@[simp] theorem modTh_so (i : Nat) (t : Fin 4) (f : Thread → Thread) : (modTh s i t f).so = s.so := rfl
@[simp] theorem modTh_flash (i : Nat) (t : Fin 4) (f : Thread → Thread) : (modTh s i t f).flash = s.flash := rfl
@[simp] theorem modTh_nm (i : Nat) (t : Fin 4) (f : Thread → Thread) : (modTh s i t f).nm = s.nm := rfl
@[simp] theorem modTh_fr (i : Nat) (t : Fin 4) (f : Thread → Thread) : (modTh s i t f).fr = s.fr := rfl
@[simp] theorem modTh_mod (i : Nat) (t : Fin 4) (f : Thread → Thread) : (modTh s i t f).mod = s.mod := rfl
@[simp] theorem modTh_rerouted (i : Nat) (t : Fin 4) (f : Thread → Thread) : (modTh s i t f).rerouted = s.rerouted := rfl
@[simp] theorem modTh_outbox (i : Nat) (t : Fin 4) (f : Thread → Thread) : (modTh s i t f).outbox = s.outbox := rfl
@[simp] theorem devGet_modTh (i : Nat) (t : Fin 4) (f : Thread → Thread) (j : Nat) : devGet (modTh s i t f) j = devGet s j := rfl
@[simp] theorem soGet_modTh (i : Nat) (t : Fin 4) (f : Thread → Thread) (j x : Nat) : soGet (modTh s i t f) j x = soGet s j x := rfl
@[simp] theorem getCl_modTh (i : Nat) (t : Fin 4) (f : Thread → Thread) (j : Fin 8) : getCl (modTh s i t f) j = getCl s j := rfl
@[simp] theorem getCh_modTh (i : Nat) (t : Fin 4) (f : Thread → Thread) (j : Nat) : getCh (modTh s i t f) j = getCh s j := rfl
@[simp] theorem getPort_modTh (i : Nat) (t : Fin 4) (f : Thread → Thread) (j : Nat) : getPort (modTh s i t f) j = getPort s j := rfl

/-! ### storeLocal -/

@[simp] theorem storeLocal_pending (i a : Nat) (bs : List Byte) : (storeLocal s i a bs).pending = s.pending := rfl
@[simp] theorem storeLocal_meshCycle (i a : Nat) (bs : List Byte) : (storeLocal s i a bs).meshCycle = s.meshCycle := rfl
@[simp] theorem storeLocal_fresh (i a : Nat) (bs : List Byte) : (storeLocal s i a bs).fresh = s.fresh := rfl
@[simp] theorem storeLocal_coreSite (i a : Nat) (bs : List Byte) : (storeLocal s i a bs).coreSite = s.coreSite := rfl
@[simp] theorem storeLocal_siteState (i a : Nat) (bs : List Byte) : (storeLocal s i a bs).siteState = s.siteState := rfl
@[simp] theorem storeLocal_compat512 (i a : Nat) (bs : List Byte) : (storeLocal s i a bs).compat512 = s.compat512 := rfl
@[simp] theorem storeLocal_perCluster (i a : Nat) (bs : List Byte) : (storeLocal s i a bs).perCluster = s.perCluster := rfl
@[simp] theorem storeLocal_clusters (i a : Nat) (bs : List Byte) : (storeLocal s i a bs).clusters = s.clusters := rfl
@[simp] theorem storeLocal_sram (i a : Nat) (bs : List Byte) : (storeLocal s i a bs).sram = s.sram := rfl
@[simp] theorem storeLocal_sramScrub (i a : Nat) (bs : List Byte) : (storeLocal s i a bs).sramScrub = s.sramScrub := rfl
@[simp] theorem storeLocal_dev (i a : Nat) (bs : List Byte) : (storeLocal s i a bs).dev = s.dev := rfl
@[simp] theorem storeLocal_setNow (i a : Nat) (bs : List Byte) : (storeLocal s i a bs).setNow = s.setNow := rfl
@[simp] theorem storeLocal_msgs (i a : Nat) (bs : List Byte) : (storeLocal s i a bs).msgs = s.msgs := rfl
@[simp] theorem storeLocal_rounds (i a : Nat) (bs : List Byte) : (storeLocal s i a bs).rounds = s.rounds := rfl
@[simp] theorem storeLocal_barDue (i a : Nat) (bs : List Byte) : (storeLocal s i a bs).barDue = s.barDue := rfl
@[simp] theorem storeLocal_channels (i a : Nat) (bs : List Byte) : (storeLocal s i a bs).channels = s.channels := rfl
@[simp] theorem storeLocal_lastGrant (i a : Nat) (bs : List Byte) : (storeLocal s i a bs).lastGrant = s.lastGrant := rfl
@[simp] theorem storeLocal_l2 (i a : Nat) (bs : List Byte) : (storeLocal s i a bs).l2 = s.l2 := rfl
@[simp] theorem storeLocal_soCsr (i a : Nat) (bs : List Byte) : (storeLocal s i a bs).soCsr = s.soCsr := rfl
@[simp] theorem storeLocal_shadows (i a : Nat) (bs : List Byte) : (storeLocal s i a bs).shadows = s.shadows := rfl
@[simp] theorem storeLocal_mbx (i a : Nat) (bs : List Byte) : (storeLocal s i a bs).mbx = s.mbx := rfl
@[simp] theorem storeLocal_soNotes (i a : Nat) (bs : List Byte) : (storeLocal s i a bs).soNotes = s.soNotes := rfl
@[simp] theorem storeLocal_stageQ (i a : Nat) (bs : List Byte) : (storeLocal s i a bs).stageQ = s.stageQ := rfl
@[simp] theorem storeLocal_dbgSession (i a : Nat) (bs : List Byte) : (storeLocal s i a bs).dbgSession = s.dbgSession := rfl
@[simp] theorem storeLocal_pba (i a : Nat) (bs : List Byte) : (storeLocal s i a bs).pba = s.pba := rfl
@[simp] theorem storeLocal_evtRing (i a : Nat) (bs : List Byte) : (storeLocal s i a bs).evtRing = s.evtRing := rfl
@[simp] theorem storeLocal_evtProd (i a : Nat) (bs : List Byte) : (storeLocal s i a bs).evtProd = s.evtProd := rfl
@[simp] theorem storeLocal_evtLost (i a : Nat) (bs : List Byte) : (storeLocal s i a bs).evtLost = s.evtLost := rfl
@[simp] theorem storeLocal_evtCount (i a : Nat) (bs : List Byte) : (storeLocal s i a bs).evtCount = s.evtCount := rfl
@[simp] theorem storeLocal_fab (i a : Nat) (bs : List Byte) : (storeLocal s i a bs).fab = s.fab := rfl
@[simp] theorem storeLocal_so (i a : Nat) (bs : List Byte) : (storeLocal s i a bs).so = s.so := rfl
@[simp] theorem storeLocal_flash (i a : Nat) (bs : List Byte) : (storeLocal s i a bs).flash = s.flash := rfl
@[simp] theorem storeLocal_nm (i a : Nat) (bs : List Byte) : (storeLocal s i a bs).nm = s.nm := rfl
@[simp] theorem storeLocal_fr (i a : Nat) (bs : List Byte) : (storeLocal s i a bs).fr = s.fr := rfl
@[simp] theorem storeLocal_mod (i a : Nat) (bs : List Byte) : (storeLocal s i a bs).mod = s.mod := rfl
@[simp] theorem storeLocal_rerouted (i a : Nat) (bs : List Byte) : (storeLocal s i a bs).rerouted = s.rerouted := rfl
@[simp] theorem storeLocal_outbox (i a : Nat) (bs : List Byte) : (storeLocal s i a bs).outbox = s.outbox := rfl
@[simp] theorem devGet_storeLocal (i a : Nat) (bs : List Byte) (j : Nat) : devGet (storeLocal s i a bs) j = devGet s j := rfl
@[simp] theorem soGet_storeLocal (i a : Nat) (bs : List Byte) (j x : Nat) : soGet (storeLocal s i a bs) j x = soGet s j x := rfl
@[simp] theorem getCl_storeLocal (i a : Nat) (bs : List Byte) (j : Fin 8) : getCl (storeLocal s i a bs) j = getCl s j := rfl
@[simp] theorem getCh_storeLocal (i a : Nat) (bs : List Byte) (j : Nat) : getCh (storeLocal s i a bs) j = getCh s j := rfl
@[simp] theorem getPort_storeLocal (i a : Nat) (bs : List Byte) (j : Nat) : getPort (storeLocal s i a bs) j = getPort s j := rfl

/-! ### storeSram -/

@[simp] theorem storeSram_pending (a : Nat) (bs : List Byte) : (storeSram s a bs).pending = s.pending := rfl
@[simp] theorem storeSram_meshCycle (a : Nat) (bs : List Byte) : (storeSram s a bs).meshCycle = s.meshCycle := rfl
@[simp] theorem storeSram_fresh (a : Nat) (bs : List Byte) : (storeSram s a bs).fresh = s.fresh := rfl
@[simp] theorem storeSram_cores (a : Nat) (bs : List Byte) : (storeSram s a bs).cores = s.cores := rfl
@[simp] theorem storeSram_coreSite (a : Nat) (bs : List Byte) : (storeSram s a bs).coreSite = s.coreSite := rfl
@[simp] theorem storeSram_siteState (a : Nat) (bs : List Byte) : (storeSram s a bs).siteState = s.siteState := rfl
@[simp] theorem storeSram_compat512 (a : Nat) (bs : List Byte) : (storeSram s a bs).compat512 = s.compat512 := rfl
@[simp] theorem storeSram_perCluster (a : Nat) (bs : List Byte) : (storeSram s a bs).perCluster = s.perCluster := rfl
@[simp] theorem storeSram_clusters (a : Nat) (bs : List Byte) : (storeSram s a bs).clusters = s.clusters := rfl
@[simp] theorem storeSram_sramScrub (a : Nat) (bs : List Byte) : (storeSram s a bs).sramScrub = s.sramScrub := rfl
@[simp] theorem storeSram_dev (a : Nat) (bs : List Byte) : (storeSram s a bs).dev = s.dev := rfl
@[simp] theorem storeSram_setNow (a : Nat) (bs : List Byte) : (storeSram s a bs).setNow = s.setNow := rfl
@[simp] theorem storeSram_msgs (a : Nat) (bs : List Byte) : (storeSram s a bs).msgs = s.msgs := rfl
@[simp] theorem storeSram_rounds (a : Nat) (bs : List Byte) : (storeSram s a bs).rounds = s.rounds := rfl
@[simp] theorem storeSram_barDue (a : Nat) (bs : List Byte) : (storeSram s a bs).barDue = s.barDue := rfl
@[simp] theorem storeSram_channels (a : Nat) (bs : List Byte) : (storeSram s a bs).channels = s.channels := rfl
@[simp] theorem storeSram_lastGrant (a : Nat) (bs : List Byte) : (storeSram s a bs).lastGrant = s.lastGrant := rfl
@[simp] theorem storeSram_l2 (a : Nat) (bs : List Byte) : (storeSram s a bs).l2 = s.l2 := rfl
@[simp] theorem storeSram_soCsr (a : Nat) (bs : List Byte) : (storeSram s a bs).soCsr = s.soCsr := rfl
@[simp] theorem storeSram_shadows (a : Nat) (bs : List Byte) : (storeSram s a bs).shadows = s.shadows := rfl
@[simp] theorem storeSram_mbx (a : Nat) (bs : List Byte) : (storeSram s a bs).mbx = s.mbx := rfl
@[simp] theorem storeSram_soNotes (a : Nat) (bs : List Byte) : (storeSram s a bs).soNotes = s.soNotes := rfl
@[simp] theorem storeSram_stageQ (a : Nat) (bs : List Byte) : (storeSram s a bs).stageQ = s.stageQ := rfl
@[simp] theorem storeSram_dbgSession (a : Nat) (bs : List Byte) : (storeSram s a bs).dbgSession = s.dbgSession := rfl
@[simp] theorem storeSram_pba (a : Nat) (bs : List Byte) : (storeSram s a bs).pba = s.pba := rfl
@[simp] theorem storeSram_evtRing (a : Nat) (bs : List Byte) : (storeSram s a bs).evtRing = s.evtRing := rfl
@[simp] theorem storeSram_evtProd (a : Nat) (bs : List Byte) : (storeSram s a bs).evtProd = s.evtProd := rfl
@[simp] theorem storeSram_evtLost (a : Nat) (bs : List Byte) : (storeSram s a bs).evtLost = s.evtLost := rfl
@[simp] theorem storeSram_evtCount (a : Nat) (bs : List Byte) : (storeSram s a bs).evtCount = s.evtCount := rfl
@[simp] theorem storeSram_fab (a : Nat) (bs : List Byte) : (storeSram s a bs).fab = s.fab := rfl
@[simp] theorem storeSram_so (a : Nat) (bs : List Byte) : (storeSram s a bs).so = s.so := rfl
@[simp] theorem storeSram_flash (a : Nat) (bs : List Byte) : (storeSram s a bs).flash = s.flash := rfl
@[simp] theorem storeSram_nm (a : Nat) (bs : List Byte) : (storeSram s a bs).nm = s.nm := rfl
@[simp] theorem storeSram_fr (a : Nat) (bs : List Byte) : (storeSram s a bs).fr = s.fr := rfl
@[simp] theorem storeSram_mod (a : Nat) (bs : List Byte) : (storeSram s a bs).mod = s.mod := rfl
@[simp] theorem storeSram_rerouted (a : Nat) (bs : List Byte) : (storeSram s a bs).rerouted = s.rerouted := rfl
@[simp] theorem storeSram_outbox (a : Nat) (bs : List Byte) : (storeSram s a bs).outbox = s.outbox := rfl
@[simp] theorem getCore_storeSram (a : Nat) (bs : List Byte) (j : Nat) : getCore (storeSram s a bs) j = getCore s j := rfl
@[simp] theorem getTh_storeSram (a : Nat) (bs : List Byte) (j : Nat) (u : Fin 4) : getTh (storeSram s a bs) j u = getTh s j u := rfl
@[simp] theorem devGet_storeSram (a : Nat) (bs : List Byte) (j : Nat) : devGet (storeSram s a bs) j = devGet s j := rfl
@[simp] theorem soGet_storeSram (a : Nat) (bs : List Byte) (j x : Nat) : soGet (storeSram s a bs) j x = soGet s j x := rfl
@[simp] theorem getCl_storeSram (a : Nat) (bs : List Byte) (j : Fin 8) : getCl (storeSram s a bs) j = getCl s j := rfl
@[simp] theorem getCh_storeSram (a : Nat) (bs : List Byte) (j : Nat) : getCh (storeSram s a bs) j = getCh s j := rfl
@[simp] theorem getPort_storeSram (a : Nat) (bs : List Byte) (j : Nat) : getPort (storeSram s a bs) j = getPort s j := rfl

/-! ### modCl -/

@[simp] theorem modCl_pending (c : Fin 8) (f : Cluster → Cluster) : (modCl s c f).pending = s.pending := rfl
@[simp] theorem modCl_meshCycle (c : Fin 8) (f : Cluster → Cluster) : (modCl s c f).meshCycle = s.meshCycle := rfl
@[simp] theorem modCl_fresh (c : Fin 8) (f : Cluster → Cluster) : (modCl s c f).fresh = s.fresh := rfl
@[simp] theorem modCl_cores (c : Fin 8) (f : Cluster → Cluster) : (modCl s c f).cores = s.cores := rfl
@[simp] theorem modCl_coreSite (c : Fin 8) (f : Cluster → Cluster) : (modCl s c f).coreSite = s.coreSite := rfl
@[simp] theorem modCl_siteState (c : Fin 8) (f : Cluster → Cluster) : (modCl s c f).siteState = s.siteState := rfl
@[simp] theorem modCl_compat512 (c : Fin 8) (f : Cluster → Cluster) : (modCl s c f).compat512 = s.compat512 := rfl
@[simp] theorem modCl_perCluster (c : Fin 8) (f : Cluster → Cluster) : (modCl s c f).perCluster = s.perCluster := rfl
@[simp] theorem modCl_sram (c : Fin 8) (f : Cluster → Cluster) : (modCl s c f).sram = s.sram := rfl
@[simp] theorem modCl_sramScrub (c : Fin 8) (f : Cluster → Cluster) : (modCl s c f).sramScrub = s.sramScrub := rfl
@[simp] theorem modCl_dev (c : Fin 8) (f : Cluster → Cluster) : (modCl s c f).dev = s.dev := rfl
@[simp] theorem modCl_setNow (c : Fin 8) (f : Cluster → Cluster) : (modCl s c f).setNow = s.setNow := rfl
@[simp] theorem modCl_msgs (c : Fin 8) (f : Cluster → Cluster) : (modCl s c f).msgs = s.msgs := rfl
@[simp] theorem modCl_rounds (c : Fin 8) (f : Cluster → Cluster) : (modCl s c f).rounds = s.rounds := rfl
@[simp] theorem modCl_barDue (c : Fin 8) (f : Cluster → Cluster) : (modCl s c f).barDue = s.barDue := rfl
@[simp] theorem modCl_channels (c : Fin 8) (f : Cluster → Cluster) : (modCl s c f).channels = s.channels := rfl
@[simp] theorem modCl_lastGrant (c : Fin 8) (f : Cluster → Cluster) : (modCl s c f).lastGrant = s.lastGrant := rfl
@[simp] theorem modCl_l2 (c : Fin 8) (f : Cluster → Cluster) : (modCl s c f).l2 = s.l2 := rfl
@[simp] theorem modCl_soCsr (c : Fin 8) (f : Cluster → Cluster) : (modCl s c f).soCsr = s.soCsr := rfl
@[simp] theorem modCl_shadows (c : Fin 8) (f : Cluster → Cluster) : (modCl s c f).shadows = s.shadows := rfl
@[simp] theorem modCl_mbx (c : Fin 8) (f : Cluster → Cluster) : (modCl s c f).mbx = s.mbx := rfl
@[simp] theorem modCl_soNotes (c : Fin 8) (f : Cluster → Cluster) : (modCl s c f).soNotes = s.soNotes := rfl
@[simp] theorem modCl_stageQ (c : Fin 8) (f : Cluster → Cluster) : (modCl s c f).stageQ = s.stageQ := rfl
@[simp] theorem modCl_dbgSession (c : Fin 8) (f : Cluster → Cluster) : (modCl s c f).dbgSession = s.dbgSession := rfl
@[simp] theorem modCl_pba (c : Fin 8) (f : Cluster → Cluster) : (modCl s c f).pba = s.pba := rfl
@[simp] theorem modCl_evtRing (c : Fin 8) (f : Cluster → Cluster) : (modCl s c f).evtRing = s.evtRing := rfl
@[simp] theorem modCl_evtProd (c : Fin 8) (f : Cluster → Cluster) : (modCl s c f).evtProd = s.evtProd := rfl
@[simp] theorem modCl_evtLost (c : Fin 8) (f : Cluster → Cluster) : (modCl s c f).evtLost = s.evtLost := rfl
@[simp] theorem modCl_evtCount (c : Fin 8) (f : Cluster → Cluster) : (modCl s c f).evtCount = s.evtCount := rfl
@[simp] theorem modCl_fab (c : Fin 8) (f : Cluster → Cluster) : (modCl s c f).fab = s.fab := rfl
@[simp] theorem modCl_so (c : Fin 8) (f : Cluster → Cluster) : (modCl s c f).so = s.so := rfl
@[simp] theorem modCl_flash (c : Fin 8) (f : Cluster → Cluster) : (modCl s c f).flash = s.flash := rfl
@[simp] theorem modCl_nm (c : Fin 8) (f : Cluster → Cluster) : (modCl s c f).nm = s.nm := rfl
@[simp] theorem modCl_fr (c : Fin 8) (f : Cluster → Cluster) : (modCl s c f).fr = s.fr := rfl
@[simp] theorem modCl_mod (c : Fin 8) (f : Cluster → Cluster) : (modCl s c f).mod = s.mod := rfl
@[simp] theorem modCl_rerouted (c : Fin 8) (f : Cluster → Cluster) : (modCl s c f).rerouted = s.rerouted := rfl
@[simp] theorem modCl_outbox (c : Fin 8) (f : Cluster → Cluster) : (modCl s c f).outbox = s.outbox := rfl
@[simp] theorem getCore_modCl (c : Fin 8) (f : Cluster → Cluster) (j : Nat) : getCore (modCl s c f) j = getCore s j := rfl
@[simp] theorem getTh_modCl (c : Fin 8) (f : Cluster → Cluster) (j : Nat) (u : Fin 4) : getTh (modCl s c f) j u = getTh s j u := rfl
@[simp] theorem devGet_modCl (c : Fin 8) (f : Cluster → Cluster) (j : Nat) : devGet (modCl s c f) j = devGet s j := rfl
@[simp] theorem soGet_modCl (c : Fin 8) (f : Cluster → Cluster) (j x : Nat) : soGet (modCl s c f) j x = soGet s j x := rfl
@[simp] theorem getCh_modCl (c : Fin 8) (f : Cluster → Cluster) (j : Nat) : getCh (modCl s c f) j = getCh s j := rfl
@[simp] theorem getPort_modCl (c : Fin 8) (f : Cluster → Cluster) (j : Nat) : getPort (modCl s c f) j = getPort s j := rfl

/-! ### devSet -/

@[simp] theorem devSet_pending (o : Nat) (v : Word) : (devSet s o v).pending = s.pending := rfl
@[simp] theorem devSet_meshCycle (o : Nat) (v : Word) : (devSet s o v).meshCycle = s.meshCycle := rfl
@[simp] theorem devSet_fresh (o : Nat) (v : Word) : (devSet s o v).fresh = s.fresh := rfl
@[simp] theorem devSet_cores (o : Nat) (v : Word) : (devSet s o v).cores = s.cores := rfl
@[simp] theorem devSet_coreSite (o : Nat) (v : Word) : (devSet s o v).coreSite = s.coreSite := rfl
@[simp] theorem devSet_siteState (o : Nat) (v : Word) : (devSet s o v).siteState = s.siteState := rfl
@[simp] theorem devSet_compat512 (o : Nat) (v : Word) : (devSet s o v).compat512 = s.compat512 := rfl
@[simp] theorem devSet_perCluster (o : Nat) (v : Word) : (devSet s o v).perCluster = s.perCluster := rfl
@[simp] theorem devSet_clusters (o : Nat) (v : Word) : (devSet s o v).clusters = s.clusters := rfl
@[simp] theorem devSet_sram (o : Nat) (v : Word) : (devSet s o v).sram = s.sram := rfl
@[simp] theorem devSet_sramScrub (o : Nat) (v : Word) : (devSet s o v).sramScrub = s.sramScrub := rfl
@[simp] theorem devSet_setNow (o : Nat) (v : Word) : (devSet s o v).setNow = s.setNow := rfl
@[simp] theorem devSet_msgs (o : Nat) (v : Word) : (devSet s o v).msgs = s.msgs := rfl
@[simp] theorem devSet_rounds (o : Nat) (v : Word) : (devSet s o v).rounds = s.rounds := rfl
@[simp] theorem devSet_barDue (o : Nat) (v : Word) : (devSet s o v).barDue = s.barDue := rfl
@[simp] theorem devSet_channels (o : Nat) (v : Word) : (devSet s o v).channels = s.channels := rfl
@[simp] theorem devSet_lastGrant (o : Nat) (v : Word) : (devSet s o v).lastGrant = s.lastGrant := rfl
@[simp] theorem devSet_l2 (o : Nat) (v : Word) : (devSet s o v).l2 = s.l2 := rfl
@[simp] theorem devSet_soCsr (o : Nat) (v : Word) : (devSet s o v).soCsr = s.soCsr := rfl
@[simp] theorem devSet_shadows (o : Nat) (v : Word) : (devSet s o v).shadows = s.shadows := rfl
@[simp] theorem devSet_mbx (o : Nat) (v : Word) : (devSet s o v).mbx = s.mbx := rfl
@[simp] theorem devSet_soNotes (o : Nat) (v : Word) : (devSet s o v).soNotes = s.soNotes := rfl
@[simp] theorem devSet_stageQ (o : Nat) (v : Word) : (devSet s o v).stageQ = s.stageQ := rfl
@[simp] theorem devSet_dbgSession (o : Nat) (v : Word) : (devSet s o v).dbgSession = s.dbgSession := rfl
@[simp] theorem devSet_pba (o : Nat) (v : Word) : (devSet s o v).pba = s.pba := rfl
@[simp] theorem devSet_evtRing (o : Nat) (v : Word) : (devSet s o v).evtRing = s.evtRing := rfl
@[simp] theorem devSet_evtProd (o : Nat) (v : Word) : (devSet s o v).evtProd = s.evtProd := rfl
@[simp] theorem devSet_evtLost (o : Nat) (v : Word) : (devSet s o v).evtLost = s.evtLost := rfl
@[simp] theorem devSet_evtCount (o : Nat) (v : Word) : (devSet s o v).evtCount = s.evtCount := rfl
@[simp] theorem devSet_fab (o : Nat) (v : Word) : (devSet s o v).fab = s.fab := rfl
@[simp] theorem devSet_so (o : Nat) (v : Word) : (devSet s o v).so = s.so := rfl
@[simp] theorem devSet_flash (o : Nat) (v : Word) : (devSet s o v).flash = s.flash := rfl
@[simp] theorem devSet_nm (o : Nat) (v : Word) : (devSet s o v).nm = s.nm := rfl
@[simp] theorem devSet_fr (o : Nat) (v : Word) : (devSet s o v).fr = s.fr := rfl
@[simp] theorem devSet_mod (o : Nat) (v : Word) : (devSet s o v).mod = s.mod := rfl
@[simp] theorem devSet_rerouted (o : Nat) (v : Word) : (devSet s o v).rerouted = s.rerouted := rfl
@[simp] theorem devSet_outbox (o : Nat) (v : Word) : (devSet s o v).outbox = s.outbox := rfl
@[simp] theorem getCore_devSet (o : Nat) (v : Word) (j : Nat) : getCore (devSet s o v) j = getCore s j := rfl
@[simp] theorem getTh_devSet (o : Nat) (v : Word) (j : Nat) (u : Fin 4) : getTh (devSet s o v) j u = getTh s j u := rfl
@[simp] theorem soGet_devSet (o : Nat) (v : Word) (j x : Nat) : soGet (devSet s o v) j x = soGet s j x := rfl
@[simp] theorem getCl_devSet (o : Nat) (v : Word) (j : Fin 8) : getCl (devSet s o v) j = getCl s j := rfl
@[simp] theorem getCh_devSet (o : Nat) (v : Word) (j : Nat) : getCh (devSet s o v) j = getCh s j := rfl
@[simp] theorem getPort_devSet (o : Nat) (v : Word) (j : Nat) : getPort (devSet s o v) j = getPort s j := rfl

/-! ### soSet -/

@[simp] theorem soSet_pending (k o : Nat) (v : Word) : (soSet s k o v).pending = s.pending := rfl
@[simp] theorem soSet_meshCycle (k o : Nat) (v : Word) : (soSet s k o v).meshCycle = s.meshCycle := rfl
@[simp] theorem soSet_fresh (k o : Nat) (v : Word) : (soSet s k o v).fresh = s.fresh := rfl
@[simp] theorem soSet_cores (k o : Nat) (v : Word) : (soSet s k o v).cores = s.cores := rfl
@[simp] theorem soSet_coreSite (k o : Nat) (v : Word) : (soSet s k o v).coreSite = s.coreSite := rfl
@[simp] theorem soSet_siteState (k o : Nat) (v : Word) : (soSet s k o v).siteState = s.siteState := rfl
@[simp] theorem soSet_compat512 (k o : Nat) (v : Word) : (soSet s k o v).compat512 = s.compat512 := rfl
@[simp] theorem soSet_perCluster (k o : Nat) (v : Word) : (soSet s k o v).perCluster = s.perCluster := rfl
@[simp] theorem soSet_clusters (k o : Nat) (v : Word) : (soSet s k o v).clusters = s.clusters := rfl
@[simp] theorem soSet_sram (k o : Nat) (v : Word) : (soSet s k o v).sram = s.sram := rfl
@[simp] theorem soSet_sramScrub (k o : Nat) (v : Word) : (soSet s k o v).sramScrub = s.sramScrub := rfl
@[simp] theorem soSet_dev (k o : Nat) (v : Word) : (soSet s k o v).dev = s.dev := rfl
@[simp] theorem soSet_setNow (k o : Nat) (v : Word) : (soSet s k o v).setNow = s.setNow := rfl
@[simp] theorem soSet_msgs (k o : Nat) (v : Word) : (soSet s k o v).msgs = s.msgs := rfl
@[simp] theorem soSet_rounds (k o : Nat) (v : Word) : (soSet s k o v).rounds = s.rounds := rfl
@[simp] theorem soSet_barDue (k o : Nat) (v : Word) : (soSet s k o v).barDue = s.barDue := rfl
@[simp] theorem soSet_channels (k o : Nat) (v : Word) : (soSet s k o v).channels = s.channels := rfl
@[simp] theorem soSet_lastGrant (k o : Nat) (v : Word) : (soSet s k o v).lastGrant = s.lastGrant := rfl
@[simp] theorem soSet_l2 (k o : Nat) (v : Word) : (soSet s k o v).l2 = s.l2 := rfl
@[simp] theorem soSet_shadows (k o : Nat) (v : Word) : (soSet s k o v).shadows = s.shadows := rfl
@[simp] theorem soSet_mbx (k o : Nat) (v : Word) : (soSet s k o v).mbx = s.mbx := rfl
@[simp] theorem soSet_soNotes (k o : Nat) (v : Word) : (soSet s k o v).soNotes = s.soNotes := rfl
@[simp] theorem soSet_stageQ (k o : Nat) (v : Word) : (soSet s k o v).stageQ = s.stageQ := rfl
@[simp] theorem soSet_dbgSession (k o : Nat) (v : Word) : (soSet s k o v).dbgSession = s.dbgSession := rfl
@[simp] theorem soSet_pba (k o : Nat) (v : Word) : (soSet s k o v).pba = s.pba := rfl
@[simp] theorem soSet_evtRing (k o : Nat) (v : Word) : (soSet s k o v).evtRing = s.evtRing := rfl
@[simp] theorem soSet_evtProd (k o : Nat) (v : Word) : (soSet s k o v).evtProd = s.evtProd := rfl
@[simp] theorem soSet_evtLost (k o : Nat) (v : Word) : (soSet s k o v).evtLost = s.evtLost := rfl
@[simp] theorem soSet_evtCount (k o : Nat) (v : Word) : (soSet s k o v).evtCount = s.evtCount := rfl
@[simp] theorem soSet_fab (k o : Nat) (v : Word) : (soSet s k o v).fab = s.fab := rfl
@[simp] theorem soSet_so (k o : Nat) (v : Word) : (soSet s k o v).so = s.so := rfl
@[simp] theorem soSet_flash (k o : Nat) (v : Word) : (soSet s k o v).flash = s.flash := rfl
@[simp] theorem soSet_nm (k o : Nat) (v : Word) : (soSet s k o v).nm = s.nm := rfl
@[simp] theorem soSet_fr (k o : Nat) (v : Word) : (soSet s k o v).fr = s.fr := rfl
@[simp] theorem soSet_mod (k o : Nat) (v : Word) : (soSet s k o v).mod = s.mod := rfl
@[simp] theorem soSet_rerouted (k o : Nat) (v : Word) : (soSet s k o v).rerouted = s.rerouted := rfl
@[simp] theorem soSet_outbox (k o : Nat) (v : Word) : (soSet s k o v).outbox = s.outbox := rfl
@[simp] theorem getCore_soSet (k o : Nat) (v : Word) (j : Nat) : getCore (soSet s k o v) j = getCore s j := rfl
@[simp] theorem getTh_soSet (k o : Nat) (v : Word) (j : Nat) (u : Fin 4) : getTh (soSet s k o v) j u = getTh s j u := rfl
@[simp] theorem devGet_soSet (k o : Nat) (v : Word) (j : Nat) : devGet (soSet s k o v) j = devGet s j := rfl
@[simp] theorem getCl_soSet (k o : Nat) (v : Word) (j : Fin 8) : getCl (soSet s k o v) j = getCl s j := rfl
@[simp] theorem getCh_soSet (k o : Nat) (v : Word) (j : Nat) : getCh (soSet s k o v) j = getCh s j := rfl
@[simp] theorem getPort_soSet (k o : Nat) (v : Word) (j : Nat) : getPort (soSet s k o v) j = getPort s j := rfl

/-! ### modCh -/

@[simp] theorem modCh_pending (k : Nat) (f : Channel → Channel) : (modCh s k f).pending = s.pending := rfl
@[simp] theorem modCh_meshCycle (k : Nat) (f : Channel → Channel) : (modCh s k f).meshCycle = s.meshCycle := rfl
@[simp] theorem modCh_fresh (k : Nat) (f : Channel → Channel) : (modCh s k f).fresh = s.fresh := rfl
@[simp] theorem modCh_cores (k : Nat) (f : Channel → Channel) : (modCh s k f).cores = s.cores := rfl
@[simp] theorem modCh_coreSite (k : Nat) (f : Channel → Channel) : (modCh s k f).coreSite = s.coreSite := rfl
@[simp] theorem modCh_siteState (k : Nat) (f : Channel → Channel) : (modCh s k f).siteState = s.siteState := rfl
@[simp] theorem modCh_compat512 (k : Nat) (f : Channel → Channel) : (modCh s k f).compat512 = s.compat512 := rfl
@[simp] theorem modCh_perCluster (k : Nat) (f : Channel → Channel) : (modCh s k f).perCluster = s.perCluster := rfl
@[simp] theorem modCh_clusters (k : Nat) (f : Channel → Channel) : (modCh s k f).clusters = s.clusters := rfl
@[simp] theorem modCh_sram (k : Nat) (f : Channel → Channel) : (modCh s k f).sram = s.sram := rfl
@[simp] theorem modCh_sramScrub (k : Nat) (f : Channel → Channel) : (modCh s k f).sramScrub = s.sramScrub := rfl
@[simp] theorem modCh_dev (k : Nat) (f : Channel → Channel) : (modCh s k f).dev = s.dev := rfl
@[simp] theorem modCh_setNow (k : Nat) (f : Channel → Channel) : (modCh s k f).setNow = s.setNow := rfl
@[simp] theorem modCh_msgs (k : Nat) (f : Channel → Channel) : (modCh s k f).msgs = s.msgs := rfl
@[simp] theorem modCh_rounds (k : Nat) (f : Channel → Channel) : (modCh s k f).rounds = s.rounds := rfl
@[simp] theorem modCh_barDue (k : Nat) (f : Channel → Channel) : (modCh s k f).barDue = s.barDue := rfl
@[simp] theorem modCh_lastGrant (k : Nat) (f : Channel → Channel) : (modCh s k f).lastGrant = s.lastGrant := rfl
@[simp] theorem modCh_l2 (k : Nat) (f : Channel → Channel) : (modCh s k f).l2 = s.l2 := rfl
@[simp] theorem modCh_soCsr (k : Nat) (f : Channel → Channel) : (modCh s k f).soCsr = s.soCsr := rfl
@[simp] theorem modCh_shadows (k : Nat) (f : Channel → Channel) : (modCh s k f).shadows = s.shadows := rfl
@[simp] theorem modCh_mbx (k : Nat) (f : Channel → Channel) : (modCh s k f).mbx = s.mbx := rfl
@[simp] theorem modCh_soNotes (k : Nat) (f : Channel → Channel) : (modCh s k f).soNotes = s.soNotes := rfl
@[simp] theorem modCh_stageQ (k : Nat) (f : Channel → Channel) : (modCh s k f).stageQ = s.stageQ := rfl
@[simp] theorem modCh_dbgSession (k : Nat) (f : Channel → Channel) : (modCh s k f).dbgSession = s.dbgSession := rfl
@[simp] theorem modCh_pba (k : Nat) (f : Channel → Channel) : (modCh s k f).pba = s.pba := rfl
@[simp] theorem modCh_evtRing (k : Nat) (f : Channel → Channel) : (modCh s k f).evtRing = s.evtRing := rfl
@[simp] theorem modCh_evtProd (k : Nat) (f : Channel → Channel) : (modCh s k f).evtProd = s.evtProd := rfl
@[simp] theorem modCh_evtLost (k : Nat) (f : Channel → Channel) : (modCh s k f).evtLost = s.evtLost := rfl
@[simp] theorem modCh_evtCount (k : Nat) (f : Channel → Channel) : (modCh s k f).evtCount = s.evtCount := rfl
@[simp] theorem modCh_fab (k : Nat) (f : Channel → Channel) : (modCh s k f).fab = s.fab := rfl
@[simp] theorem modCh_so (k : Nat) (f : Channel → Channel) : (modCh s k f).so = s.so := rfl
@[simp] theorem modCh_flash (k : Nat) (f : Channel → Channel) : (modCh s k f).flash = s.flash := rfl
@[simp] theorem modCh_nm (k : Nat) (f : Channel → Channel) : (modCh s k f).nm = s.nm := rfl
@[simp] theorem modCh_fr (k : Nat) (f : Channel → Channel) : (modCh s k f).fr = s.fr := rfl
@[simp] theorem modCh_mod (k : Nat) (f : Channel → Channel) : (modCh s k f).mod = s.mod := rfl
@[simp] theorem modCh_rerouted (k : Nat) (f : Channel → Channel) : (modCh s k f).rerouted = s.rerouted := rfl
@[simp] theorem modCh_outbox (k : Nat) (f : Channel → Channel) : (modCh s k f).outbox = s.outbox := rfl
@[simp] theorem getCore_modCh (k : Nat) (f : Channel → Channel) (j : Nat) : getCore (modCh s k f) j = getCore s j := rfl
@[simp] theorem getTh_modCh (k : Nat) (f : Channel → Channel) (j : Nat) (u : Fin 4) : getTh (modCh s k f) j u = getTh s j u := rfl
@[simp] theorem devGet_modCh (k : Nat) (f : Channel → Channel) (j : Nat) : devGet (modCh s k f) j = devGet s j := rfl
@[simp] theorem soGet_modCh (k : Nat) (f : Channel → Channel) (j x : Nat) : soGet (modCh s k f) j x = soGet s j x := rfl
@[simp] theorem getCl_modCh (k : Nat) (f : Channel → Channel) (j : Fin 8) : getCl (modCh s k f) j = getCl s j := rfl
@[simp] theorem getPort_modCh (k : Nat) (f : Channel → Channel) (j : Nat) : getPort (modCh s k f) j = getPort s j := rfl

/-! ### modPort -/

@[simp] theorem modPort_pending (p : Nat) (f : Port → Port) : (modPort s p f).pending = s.pending := rfl
@[simp] theorem modPort_meshCycle (p : Nat) (f : Port → Port) : (modPort s p f).meshCycle = s.meshCycle := rfl
@[simp] theorem modPort_fresh (p : Nat) (f : Port → Port) : (modPort s p f).fresh = s.fresh := rfl
@[simp] theorem modPort_cores (p : Nat) (f : Port → Port) : (modPort s p f).cores = s.cores := rfl
@[simp] theorem modPort_coreSite (p : Nat) (f : Port → Port) : (modPort s p f).coreSite = s.coreSite := rfl
@[simp] theorem modPort_siteState (p : Nat) (f : Port → Port) : (modPort s p f).siteState = s.siteState := rfl
@[simp] theorem modPort_compat512 (p : Nat) (f : Port → Port) : (modPort s p f).compat512 = s.compat512 := rfl
@[simp] theorem modPort_perCluster (p : Nat) (f : Port → Port) : (modPort s p f).perCluster = s.perCluster := rfl
@[simp] theorem modPort_clusters (p : Nat) (f : Port → Port) : (modPort s p f).clusters = s.clusters := rfl
@[simp] theorem modPort_sram (p : Nat) (f : Port → Port) : (modPort s p f).sram = s.sram := rfl
@[simp] theorem modPort_sramScrub (p : Nat) (f : Port → Port) : (modPort s p f).sramScrub = s.sramScrub := rfl
@[simp] theorem modPort_dev (p : Nat) (f : Port → Port) : (modPort s p f).dev = s.dev := rfl
@[simp] theorem modPort_setNow (p : Nat) (f : Port → Port) : (modPort s p f).setNow = s.setNow := rfl
@[simp] theorem modPort_msgs (p : Nat) (f : Port → Port) : (modPort s p f).msgs = s.msgs := rfl
@[simp] theorem modPort_rounds (p : Nat) (f : Port → Port) : (modPort s p f).rounds = s.rounds := rfl
@[simp] theorem modPort_barDue (p : Nat) (f : Port → Port) : (modPort s p f).barDue = s.barDue := rfl
@[simp] theorem modPort_channels (p : Nat) (f : Port → Port) : (modPort s p f).channels = s.channels := rfl
@[simp] theorem modPort_lastGrant (p : Nat) (f : Port → Port) : (modPort s p f).lastGrant = s.lastGrant := rfl
@[simp] theorem modPort_l2 (p : Nat) (f : Port → Port) : (modPort s p f).l2 = s.l2 := rfl
@[simp] theorem modPort_soCsr (p : Nat) (f : Port → Port) : (modPort s p f).soCsr = s.soCsr := rfl
@[simp] theorem modPort_shadows (p : Nat) (f : Port → Port) : (modPort s p f).shadows = s.shadows := rfl
@[simp] theorem modPort_mbx (p : Nat) (f : Port → Port) : (modPort s p f).mbx = s.mbx := rfl
@[simp] theorem modPort_soNotes (p : Nat) (f : Port → Port) : (modPort s p f).soNotes = s.soNotes := rfl
@[simp] theorem modPort_stageQ (p : Nat) (f : Port → Port) : (modPort s p f).stageQ = s.stageQ := rfl
@[simp] theorem modPort_dbgSession (p : Nat) (f : Port → Port) : (modPort s p f).dbgSession = s.dbgSession := rfl
@[simp] theorem modPort_pba (p : Nat) (f : Port → Port) : (modPort s p f).pba = s.pba := rfl
@[simp] theorem modPort_evtRing (p : Nat) (f : Port → Port) : (modPort s p f).evtRing = s.evtRing := rfl
@[simp] theorem modPort_evtProd (p : Nat) (f : Port → Port) : (modPort s p f).evtProd = s.evtProd := rfl
@[simp] theorem modPort_evtLost (p : Nat) (f : Port → Port) : (modPort s p f).evtLost = s.evtLost := rfl
@[simp] theorem modPort_evtCount (p : Nat) (f : Port → Port) : (modPort s p f).evtCount = s.evtCount := rfl
@[simp] theorem modPort_so (p : Nat) (f : Port → Port) : (modPort s p f).so = s.so := rfl
@[simp] theorem modPort_flash (p : Nat) (f : Port → Port) : (modPort s p f).flash = s.flash := rfl
@[simp] theorem modPort_nm (p : Nat) (f : Port → Port) : (modPort s p f).nm = s.nm := rfl
@[simp] theorem modPort_fr (p : Nat) (f : Port → Port) : (modPort s p f).fr = s.fr := rfl
@[simp] theorem modPort_mod (p : Nat) (f : Port → Port) : (modPort s p f).mod = s.mod := rfl
@[simp] theorem modPort_rerouted (p : Nat) (f : Port → Port) : (modPort s p f).rerouted = s.rerouted := rfl
@[simp] theorem modPort_outbox (p : Nat) (f : Port → Port) : (modPort s p f).outbox = s.outbox := rfl
@[simp] theorem getCore_modPort (p : Nat) (f : Port → Port) (j : Nat) : getCore (modPort s p f) j = getCore s j := rfl
@[simp] theorem getTh_modPort (p : Nat) (f : Port → Port) (j : Nat) (u : Fin 4) : getTh (modPort s p f) j u = getTh s j u := rfl
@[simp] theorem devGet_modPort (p : Nat) (f : Port → Port) (j : Nat) : devGet (modPort s p f) j = devGet s j := rfl
@[simp] theorem soGet_modPort (p : Nat) (f : Port → Port) (j x : Nat) : soGet (modPort s p f) j x = soGet s j x := rfl
@[simp] theorem getCl_modPort (p : Nat) (f : Port → Port) (j : Fin 8) : getCl (modPort s p f) j = getCl s j := rfl
@[simp] theorem getCh_modPort (p : Nat) (f : Port → Port) (j : Nat) : getCh (modPort s p f) j = getCh s j := rfl

/-! ### modTree -/

@[simp] theorem modTree_pending (n : Nat) (f : Tree → Tree) : (modTree s n f).pending = s.pending := rfl
@[simp] theorem modTree_meshCycle (n : Nat) (f : Tree → Tree) : (modTree s n f).meshCycle = s.meshCycle := rfl
@[simp] theorem modTree_fresh (n : Nat) (f : Tree → Tree) : (modTree s n f).fresh = s.fresh := rfl
@[simp] theorem modTree_cores (n : Nat) (f : Tree → Tree) : (modTree s n f).cores = s.cores := rfl
@[simp] theorem modTree_coreSite (n : Nat) (f : Tree → Tree) : (modTree s n f).coreSite = s.coreSite := rfl
@[simp] theorem modTree_siteState (n : Nat) (f : Tree → Tree) : (modTree s n f).siteState = s.siteState := rfl
@[simp] theorem modTree_compat512 (n : Nat) (f : Tree → Tree) : (modTree s n f).compat512 = s.compat512 := rfl
@[simp] theorem modTree_perCluster (n : Nat) (f : Tree → Tree) : (modTree s n f).perCluster = s.perCluster := rfl
@[simp] theorem modTree_clusters (n : Nat) (f : Tree → Tree) : (modTree s n f).clusters = s.clusters := rfl
@[simp] theorem modTree_sram (n : Nat) (f : Tree → Tree) : (modTree s n f).sram = s.sram := rfl
@[simp] theorem modTree_sramScrub (n : Nat) (f : Tree → Tree) : (modTree s n f).sramScrub = s.sramScrub := rfl
@[simp] theorem modTree_dev (n : Nat) (f : Tree → Tree) : (modTree s n f).dev = s.dev := rfl
@[simp] theorem modTree_setNow (n : Nat) (f : Tree → Tree) : (modTree s n f).setNow = s.setNow := rfl
@[simp] theorem modTree_msgs (n : Nat) (f : Tree → Tree) : (modTree s n f).msgs = s.msgs := rfl
@[simp] theorem modTree_rounds (n : Nat) (f : Tree → Tree) : (modTree s n f).rounds = s.rounds := rfl
@[simp] theorem modTree_barDue (n : Nat) (f : Tree → Tree) : (modTree s n f).barDue = s.barDue := rfl
@[simp] theorem modTree_channels (n : Nat) (f : Tree → Tree) : (modTree s n f).channels = s.channels := rfl
@[simp] theorem modTree_lastGrant (n : Nat) (f : Tree → Tree) : (modTree s n f).lastGrant = s.lastGrant := rfl
@[simp] theorem modTree_l2 (n : Nat) (f : Tree → Tree) : (modTree s n f).l2 = s.l2 := rfl
@[simp] theorem modTree_soCsr (n : Nat) (f : Tree → Tree) : (modTree s n f).soCsr = s.soCsr := rfl
@[simp] theorem modTree_shadows (n : Nat) (f : Tree → Tree) : (modTree s n f).shadows = s.shadows := rfl
@[simp] theorem modTree_mbx (n : Nat) (f : Tree → Tree) : (modTree s n f).mbx = s.mbx := rfl
@[simp] theorem modTree_soNotes (n : Nat) (f : Tree → Tree) : (modTree s n f).soNotes = s.soNotes := rfl
@[simp] theorem modTree_stageQ (n : Nat) (f : Tree → Tree) : (modTree s n f).stageQ = s.stageQ := rfl
@[simp] theorem modTree_dbgSession (n : Nat) (f : Tree → Tree) : (modTree s n f).dbgSession = s.dbgSession := rfl
@[simp] theorem modTree_pba (n : Nat) (f : Tree → Tree) : (modTree s n f).pba = s.pba := rfl
@[simp] theorem modTree_evtRing (n : Nat) (f : Tree → Tree) : (modTree s n f).evtRing = s.evtRing := rfl
@[simp] theorem modTree_evtProd (n : Nat) (f : Tree → Tree) : (modTree s n f).evtProd = s.evtProd := rfl
@[simp] theorem modTree_evtLost (n : Nat) (f : Tree → Tree) : (modTree s n f).evtLost = s.evtLost := rfl
@[simp] theorem modTree_evtCount (n : Nat) (f : Tree → Tree) : (modTree s n f).evtCount = s.evtCount := rfl
@[simp] theorem modTree_so (n : Nat) (f : Tree → Tree) : (modTree s n f).so = s.so := rfl
@[simp] theorem modTree_flash (n : Nat) (f : Tree → Tree) : (modTree s n f).flash = s.flash := rfl
@[simp] theorem modTree_nm (n : Nat) (f : Tree → Tree) : (modTree s n f).nm = s.nm := rfl
@[simp] theorem modTree_fr (n : Nat) (f : Tree → Tree) : (modTree s n f).fr = s.fr := rfl
@[simp] theorem modTree_mod (n : Nat) (f : Tree → Tree) : (modTree s n f).mod = s.mod := rfl
@[simp] theorem modTree_rerouted (n : Nat) (f : Tree → Tree) : (modTree s n f).rerouted = s.rerouted := rfl
@[simp] theorem modTree_outbox (n : Nat) (f : Tree → Tree) : (modTree s n f).outbox = s.outbox := rfl
@[simp] theorem getCore_modTree (n : Nat) (f : Tree → Tree) (j : Nat) : getCore (modTree s n f) j = getCore s j := rfl
@[simp] theorem getTh_modTree (n : Nat) (f : Tree → Tree) (j : Nat) (u : Fin 4) : getTh (modTree s n f) j u = getTh s j u := rfl
@[simp] theorem devGet_modTree (n : Nat) (f : Tree → Tree) (j : Nat) : devGet (modTree s n f) j = devGet s j := rfl
@[simp] theorem soGet_modTree (n : Nat) (f : Tree → Tree) (j x : Nat) : soGet (modTree s n f) j x = soGet s j x := rfl
@[simp] theorem getCl_modTree (n : Nat) (f : Tree → Tree) (j : Fin 8) : getCl (modTree s n f) j = getCl s j := rfl
@[simp] theorem getCh_modTree (n : Nat) (f : Tree → Tree) (j : Nat) : getCh (modTree s n f) j = getCh s j := rfl

/-! ### modSo -/

@[simp] theorem modSo_pending (f : So → So) : (modSo s f).pending = s.pending := rfl
@[simp] theorem modSo_meshCycle (f : So → So) : (modSo s f).meshCycle = s.meshCycle := rfl
@[simp] theorem modSo_fresh (f : So → So) : (modSo s f).fresh = s.fresh := rfl
@[simp] theorem modSo_cores (f : So → So) : (modSo s f).cores = s.cores := rfl
@[simp] theorem modSo_coreSite (f : So → So) : (modSo s f).coreSite = s.coreSite := rfl
@[simp] theorem modSo_siteState (f : So → So) : (modSo s f).siteState = s.siteState := rfl
@[simp] theorem modSo_compat512 (f : So → So) : (modSo s f).compat512 = s.compat512 := rfl
@[simp] theorem modSo_perCluster (f : So → So) : (modSo s f).perCluster = s.perCluster := rfl
@[simp] theorem modSo_clusters (f : So → So) : (modSo s f).clusters = s.clusters := rfl
@[simp] theorem modSo_sram (f : So → So) : (modSo s f).sram = s.sram := rfl
@[simp] theorem modSo_sramScrub (f : So → So) : (modSo s f).sramScrub = s.sramScrub := rfl
@[simp] theorem modSo_dev (f : So → So) : (modSo s f).dev = s.dev := rfl
@[simp] theorem modSo_setNow (f : So → So) : (modSo s f).setNow = s.setNow := rfl
@[simp] theorem modSo_msgs (f : So → So) : (modSo s f).msgs = s.msgs := rfl
@[simp] theorem modSo_rounds (f : So → So) : (modSo s f).rounds = s.rounds := rfl
@[simp] theorem modSo_barDue (f : So → So) : (modSo s f).barDue = s.barDue := rfl
@[simp] theorem modSo_channels (f : So → So) : (modSo s f).channels = s.channels := rfl
@[simp] theorem modSo_lastGrant (f : So → So) : (modSo s f).lastGrant = s.lastGrant := rfl
@[simp] theorem modSo_l2 (f : So → So) : (modSo s f).l2 = s.l2 := rfl
@[simp] theorem modSo_soCsr (f : So → So) : (modSo s f).soCsr = s.soCsr := rfl
@[simp] theorem modSo_shadows (f : So → So) : (modSo s f).shadows = s.shadows := rfl
@[simp] theorem modSo_mbx (f : So → So) : (modSo s f).mbx = s.mbx := rfl
@[simp] theorem modSo_soNotes (f : So → So) : (modSo s f).soNotes = s.soNotes := rfl
@[simp] theorem modSo_stageQ (f : So → So) : (modSo s f).stageQ = s.stageQ := rfl
@[simp] theorem modSo_dbgSession (f : So → So) : (modSo s f).dbgSession = s.dbgSession := rfl
@[simp] theorem modSo_pba (f : So → So) : (modSo s f).pba = s.pba := rfl
@[simp] theorem modSo_evtRing (f : So → So) : (modSo s f).evtRing = s.evtRing := rfl
@[simp] theorem modSo_evtProd (f : So → So) : (modSo s f).evtProd = s.evtProd := rfl
@[simp] theorem modSo_evtLost (f : So → So) : (modSo s f).evtLost = s.evtLost := rfl
@[simp] theorem modSo_evtCount (f : So → So) : (modSo s f).evtCount = s.evtCount := rfl
@[simp] theorem modSo_fab (f : So → So) : (modSo s f).fab = s.fab := rfl
@[simp] theorem modSo_so (f : So → So) : (modSo s f).so = f s.so := rfl
@[simp] theorem modSo_flash (f : So → So) : (modSo s f).flash = s.flash := rfl
@[simp] theorem modSo_nm (f : So → So) : (modSo s f).nm = s.nm := rfl
@[simp] theorem modSo_fr (f : So → So) : (modSo s f).fr = s.fr := rfl
@[simp] theorem modSo_mod (f : So → So) : (modSo s f).mod = s.mod := rfl
@[simp] theorem modSo_rerouted (f : So → So) : (modSo s f).rerouted = s.rerouted := rfl
@[simp] theorem modSo_outbox (f : So → So) : (modSo s f).outbox = s.outbox := rfl
@[simp] theorem getCore_modSo (f : So → So) (j : Nat) : getCore (modSo s f) j = getCore s j := rfl
@[simp] theorem getTh_modSo (f : So → So) (j : Nat) (u : Fin 4) : getTh (modSo s f) j u = getTh s j u := rfl
@[simp] theorem devGet_modSo (f : So → So) (j : Nat) : devGet (modSo s f) j = devGet s j := rfl
@[simp] theorem soGet_modSo (f : So → So) (j x : Nat) : soGet (modSo s f) j x = soGet s j x := rfl
@[simp] theorem getCl_modSo (f : So → So) (j : Fin 8) : getCl (modSo s f) j = getCl s j := rfl
@[simp] theorem getCh_modSo (f : So → So) (j : Nat) : getCh (modSo s f) j = getCh s j := rfl
@[simp] theorem getPort_modSo (f : So → So) (j : Nat) : getPort (modSo s f) j = getPort s j := rfl

/-! ### modSeal -/

@[simp] theorem modSeal_pending (f : Seal → Seal) : (modSeal s f).pending = s.pending := rfl
@[simp] theorem modSeal_meshCycle (f : Seal → Seal) : (modSeal s f).meshCycle = s.meshCycle := rfl
@[simp] theorem modSeal_fresh (f : Seal → Seal) : (modSeal s f).fresh = s.fresh := rfl
@[simp] theorem modSeal_cores (f : Seal → Seal) : (modSeal s f).cores = s.cores := rfl
@[simp] theorem modSeal_coreSite (f : Seal → Seal) : (modSeal s f).coreSite = s.coreSite := rfl
@[simp] theorem modSeal_siteState (f : Seal → Seal) : (modSeal s f).siteState = s.siteState := rfl
@[simp] theorem modSeal_compat512 (f : Seal → Seal) : (modSeal s f).compat512 = s.compat512 := rfl
@[simp] theorem modSeal_perCluster (f : Seal → Seal) : (modSeal s f).perCluster = s.perCluster := rfl
@[simp] theorem modSeal_clusters (f : Seal → Seal) : (modSeal s f).clusters = s.clusters := rfl
@[simp] theorem modSeal_sram (f : Seal → Seal) : (modSeal s f).sram = s.sram := rfl
@[simp] theorem modSeal_sramScrub (f : Seal → Seal) : (modSeal s f).sramScrub = s.sramScrub := rfl
@[simp] theorem modSeal_dev (f : Seal → Seal) : (modSeal s f).dev = s.dev := rfl
@[simp] theorem modSeal_setNow (f : Seal → Seal) : (modSeal s f).setNow = s.setNow := rfl
@[simp] theorem modSeal_msgs (f : Seal → Seal) : (modSeal s f).msgs = s.msgs := rfl
@[simp] theorem modSeal_rounds (f : Seal → Seal) : (modSeal s f).rounds = s.rounds := rfl
@[simp] theorem modSeal_barDue (f : Seal → Seal) : (modSeal s f).barDue = s.barDue := rfl
@[simp] theorem modSeal_channels (f : Seal → Seal) : (modSeal s f).channels = s.channels := rfl
@[simp] theorem modSeal_lastGrant (f : Seal → Seal) : (modSeal s f).lastGrant = s.lastGrant := rfl
@[simp] theorem modSeal_l2 (f : Seal → Seal) : (modSeal s f).l2 = s.l2 := rfl
@[simp] theorem modSeal_soCsr (f : Seal → Seal) : (modSeal s f).soCsr = s.soCsr := rfl
@[simp] theorem modSeal_shadows (f : Seal → Seal) : (modSeal s f).shadows = s.shadows := rfl
@[simp] theorem modSeal_mbx (f : Seal → Seal) : (modSeal s f).mbx = s.mbx := rfl
@[simp] theorem modSeal_soNotes (f : Seal → Seal) : (modSeal s f).soNotes = s.soNotes := rfl
@[simp] theorem modSeal_stageQ (f : Seal → Seal) : (modSeal s f).stageQ = s.stageQ := rfl
@[simp] theorem modSeal_dbgSession (f : Seal → Seal) : (modSeal s f).dbgSession = s.dbgSession := rfl
@[simp] theorem modSeal_pba (f : Seal → Seal) : (modSeal s f).pba = s.pba := rfl
@[simp] theorem modSeal_evtRing (f : Seal → Seal) : (modSeal s f).evtRing = s.evtRing := rfl
@[simp] theorem modSeal_evtProd (f : Seal → Seal) : (modSeal s f).evtProd = s.evtProd := rfl
@[simp] theorem modSeal_evtLost (f : Seal → Seal) : (modSeal s f).evtLost = s.evtLost := rfl
@[simp] theorem modSeal_evtCount (f : Seal → Seal) : (modSeal s f).evtCount = s.evtCount := rfl
@[simp] theorem modSeal_fab (f : Seal → Seal) : (modSeal s f).fab = s.fab := rfl
@[simp] theorem modSeal_flash (f : Seal → Seal) : (modSeal s f).flash = s.flash := rfl
@[simp] theorem modSeal_nm (f : Seal → Seal) : (modSeal s f).nm = s.nm := rfl
@[simp] theorem modSeal_fr (f : Seal → Seal) : (modSeal s f).fr = s.fr := rfl
@[simp] theorem modSeal_mod (f : Seal → Seal) : (modSeal s f).mod = s.mod := rfl
@[simp] theorem modSeal_rerouted (f : Seal → Seal) : (modSeal s f).rerouted = s.rerouted := rfl
@[simp] theorem modSeal_outbox (f : Seal → Seal) : (modSeal s f).outbox = s.outbox := rfl
@[simp] theorem getCore_modSeal (f : Seal → Seal) (j : Nat) : getCore (modSeal s f) j = getCore s j := rfl
@[simp] theorem getTh_modSeal (f : Seal → Seal) (j : Nat) (u : Fin 4) : getTh (modSeal s f) j u = getTh s j u := rfl
@[simp] theorem devGet_modSeal (f : Seal → Seal) (j : Nat) : devGet (modSeal s f) j = devGet s j := rfl
@[simp] theorem soGet_modSeal (f : Seal → Seal) (j x : Nat) : soGet (modSeal s f) j x = soGet s j x := rfl
@[simp] theorem getCl_modSeal (f : Seal → Seal) (j : Fin 8) : getCl (modSeal s f) j = getCl s j := rfl
@[simp] theorem getCh_modSeal (f : Seal → Seal) (j : Nat) : getCh (modSeal s f) j = getCh s j := rfl
@[simp] theorem getPort_modSeal (f : Seal → Seal) (j : Nat) : getPort (modSeal s f) j = getPort s j := rfl

/-! ### modNm -/

@[simp] theorem modNm_pending (f : NightMail → NightMail) : (modNm s f).pending = s.pending := rfl
@[simp] theorem modNm_meshCycle (f : NightMail → NightMail) : (modNm s f).meshCycle = s.meshCycle := rfl
@[simp] theorem modNm_fresh (f : NightMail → NightMail) : (modNm s f).fresh = s.fresh := rfl
@[simp] theorem modNm_cores (f : NightMail → NightMail) : (modNm s f).cores = s.cores := rfl
@[simp] theorem modNm_coreSite (f : NightMail → NightMail) : (modNm s f).coreSite = s.coreSite := rfl
@[simp] theorem modNm_siteState (f : NightMail → NightMail) : (modNm s f).siteState = s.siteState := rfl
@[simp] theorem modNm_compat512 (f : NightMail → NightMail) : (modNm s f).compat512 = s.compat512 := rfl
@[simp] theorem modNm_perCluster (f : NightMail → NightMail) : (modNm s f).perCluster = s.perCluster := rfl
@[simp] theorem modNm_clusters (f : NightMail → NightMail) : (modNm s f).clusters = s.clusters := rfl
@[simp] theorem modNm_sram (f : NightMail → NightMail) : (modNm s f).sram = s.sram := rfl
@[simp] theorem modNm_sramScrub (f : NightMail → NightMail) : (modNm s f).sramScrub = s.sramScrub := rfl
@[simp] theorem modNm_dev (f : NightMail → NightMail) : (modNm s f).dev = s.dev := rfl
@[simp] theorem modNm_setNow (f : NightMail → NightMail) : (modNm s f).setNow = s.setNow := rfl
@[simp] theorem modNm_msgs (f : NightMail → NightMail) : (modNm s f).msgs = s.msgs := rfl
@[simp] theorem modNm_rounds (f : NightMail → NightMail) : (modNm s f).rounds = s.rounds := rfl
@[simp] theorem modNm_barDue (f : NightMail → NightMail) : (modNm s f).barDue = s.barDue := rfl
@[simp] theorem modNm_channels (f : NightMail → NightMail) : (modNm s f).channels = s.channels := rfl
@[simp] theorem modNm_lastGrant (f : NightMail → NightMail) : (modNm s f).lastGrant = s.lastGrant := rfl
@[simp] theorem modNm_l2 (f : NightMail → NightMail) : (modNm s f).l2 = s.l2 := rfl
@[simp] theorem modNm_soCsr (f : NightMail → NightMail) : (modNm s f).soCsr = s.soCsr := rfl
@[simp] theorem modNm_shadows (f : NightMail → NightMail) : (modNm s f).shadows = s.shadows := rfl
@[simp] theorem modNm_mbx (f : NightMail → NightMail) : (modNm s f).mbx = s.mbx := rfl
@[simp] theorem modNm_soNotes (f : NightMail → NightMail) : (modNm s f).soNotes = s.soNotes := rfl
@[simp] theorem modNm_stageQ (f : NightMail → NightMail) : (modNm s f).stageQ = s.stageQ := rfl
@[simp] theorem modNm_dbgSession (f : NightMail → NightMail) : (modNm s f).dbgSession = s.dbgSession := rfl
@[simp] theorem modNm_pba (f : NightMail → NightMail) : (modNm s f).pba = s.pba := rfl
@[simp] theorem modNm_evtRing (f : NightMail → NightMail) : (modNm s f).evtRing = s.evtRing := rfl
@[simp] theorem modNm_evtProd (f : NightMail → NightMail) : (modNm s f).evtProd = s.evtProd := rfl
@[simp] theorem modNm_evtLost (f : NightMail → NightMail) : (modNm s f).evtLost = s.evtLost := rfl
@[simp] theorem modNm_evtCount (f : NightMail → NightMail) : (modNm s f).evtCount = s.evtCount := rfl
@[simp] theorem modNm_fab (f : NightMail → NightMail) : (modNm s f).fab = s.fab := rfl
@[simp] theorem modNm_so (f : NightMail → NightMail) : (modNm s f).so = s.so := rfl
@[simp] theorem modNm_flash (f : NightMail → NightMail) : (modNm s f).flash = s.flash := rfl
@[simp] theorem modNm_nm (f : NightMail → NightMail) : (modNm s f).nm = f s.nm := rfl
@[simp] theorem modNm_fr (f : NightMail → NightMail) : (modNm s f).fr = s.fr := rfl
@[simp] theorem modNm_mod (f : NightMail → NightMail) : (modNm s f).mod = s.mod := rfl
@[simp] theorem modNm_rerouted (f : NightMail → NightMail) : (modNm s f).rerouted = s.rerouted := rfl
@[simp] theorem modNm_outbox (f : NightMail → NightMail) : (modNm s f).outbox = s.outbox := rfl
@[simp] theorem getCore_modNm (f : NightMail → NightMail) (j : Nat) : getCore (modNm s f) j = getCore s j := rfl
@[simp] theorem getTh_modNm (f : NightMail → NightMail) (j : Nat) (u : Fin 4) : getTh (modNm s f) j u = getTh s j u := rfl
@[simp] theorem devGet_modNm (f : NightMail → NightMail) (j : Nat) : devGet (modNm s f) j = devGet s j := rfl
@[simp] theorem soGet_modNm (f : NightMail → NightMail) (j x : Nat) : soGet (modNm s f) j x = soGet s j x := rfl
@[simp] theorem getCl_modNm (f : NightMail → NightMail) (j : Fin 8) : getCl (modNm s f) j = getCl s j := rfl
@[simp] theorem getCh_modNm (f : NightMail → NightMail) (j : Nat) : getCh (modNm s f) j = getCh s j := rfl
@[simp] theorem getPort_modNm (f : NightMail → NightMail) (j : Nat) : getPort (modNm s f) j = getPort s j := rfl

/-! ### modFr -/

@[simp] theorem modFr_pending (f : Franking → Franking) : (modFr s f).pending = s.pending := rfl
@[simp] theorem modFr_meshCycle (f : Franking → Franking) : (modFr s f).meshCycle = s.meshCycle := rfl
@[simp] theorem modFr_fresh (f : Franking → Franking) : (modFr s f).fresh = s.fresh := rfl
@[simp] theorem modFr_cores (f : Franking → Franking) : (modFr s f).cores = s.cores := rfl
@[simp] theorem modFr_coreSite (f : Franking → Franking) : (modFr s f).coreSite = s.coreSite := rfl
@[simp] theorem modFr_siteState (f : Franking → Franking) : (modFr s f).siteState = s.siteState := rfl
@[simp] theorem modFr_compat512 (f : Franking → Franking) : (modFr s f).compat512 = s.compat512 := rfl
@[simp] theorem modFr_perCluster (f : Franking → Franking) : (modFr s f).perCluster = s.perCluster := rfl
@[simp] theorem modFr_clusters (f : Franking → Franking) : (modFr s f).clusters = s.clusters := rfl
@[simp] theorem modFr_sram (f : Franking → Franking) : (modFr s f).sram = s.sram := rfl
@[simp] theorem modFr_sramScrub (f : Franking → Franking) : (modFr s f).sramScrub = s.sramScrub := rfl
@[simp] theorem modFr_dev (f : Franking → Franking) : (modFr s f).dev = s.dev := rfl
@[simp] theorem modFr_setNow (f : Franking → Franking) : (modFr s f).setNow = s.setNow := rfl
@[simp] theorem modFr_msgs (f : Franking → Franking) : (modFr s f).msgs = s.msgs := rfl
@[simp] theorem modFr_rounds (f : Franking → Franking) : (modFr s f).rounds = s.rounds := rfl
@[simp] theorem modFr_barDue (f : Franking → Franking) : (modFr s f).barDue = s.barDue := rfl
@[simp] theorem modFr_channels (f : Franking → Franking) : (modFr s f).channels = s.channels := rfl
@[simp] theorem modFr_lastGrant (f : Franking → Franking) : (modFr s f).lastGrant = s.lastGrant := rfl
@[simp] theorem modFr_l2 (f : Franking → Franking) : (modFr s f).l2 = s.l2 := rfl
@[simp] theorem modFr_soCsr (f : Franking → Franking) : (modFr s f).soCsr = s.soCsr := rfl
@[simp] theorem modFr_shadows (f : Franking → Franking) : (modFr s f).shadows = s.shadows := rfl
@[simp] theorem modFr_mbx (f : Franking → Franking) : (modFr s f).mbx = s.mbx := rfl
@[simp] theorem modFr_soNotes (f : Franking → Franking) : (modFr s f).soNotes = s.soNotes := rfl
@[simp] theorem modFr_stageQ (f : Franking → Franking) : (modFr s f).stageQ = s.stageQ := rfl
@[simp] theorem modFr_dbgSession (f : Franking → Franking) : (modFr s f).dbgSession = s.dbgSession := rfl
@[simp] theorem modFr_pba (f : Franking → Franking) : (modFr s f).pba = s.pba := rfl
@[simp] theorem modFr_evtRing (f : Franking → Franking) : (modFr s f).evtRing = s.evtRing := rfl
@[simp] theorem modFr_evtProd (f : Franking → Franking) : (modFr s f).evtProd = s.evtProd := rfl
@[simp] theorem modFr_evtLost (f : Franking → Franking) : (modFr s f).evtLost = s.evtLost := rfl
@[simp] theorem modFr_evtCount (f : Franking → Franking) : (modFr s f).evtCount = s.evtCount := rfl
@[simp] theorem modFr_fab (f : Franking → Franking) : (modFr s f).fab = s.fab := rfl
@[simp] theorem modFr_so (f : Franking → Franking) : (modFr s f).so = s.so := rfl
@[simp] theorem modFr_flash (f : Franking → Franking) : (modFr s f).flash = s.flash := rfl
@[simp] theorem modFr_nm (f : Franking → Franking) : (modFr s f).nm = s.nm := rfl
@[simp] theorem modFr_fr (f : Franking → Franking) : (modFr s f).fr = f s.fr := rfl
@[simp] theorem modFr_mod (f : Franking → Franking) : (modFr s f).mod = s.mod := rfl
@[simp] theorem modFr_rerouted (f : Franking → Franking) : (modFr s f).rerouted = s.rerouted := rfl
@[simp] theorem modFr_outbox (f : Franking → Franking) : (modFr s f).outbox = s.outbox := rfl
@[simp] theorem getCore_modFr (f : Franking → Franking) (j : Nat) : getCore (modFr s f) j = getCore s j := rfl
@[simp] theorem getTh_modFr (f : Franking → Franking) (j : Nat) (u : Fin 4) : getTh (modFr s f) j u = getTh s j u := rfl
@[simp] theorem devGet_modFr (f : Franking → Franking) (j : Nat) : devGet (modFr s f) j = devGet s j := rfl
@[simp] theorem soGet_modFr (f : Franking → Franking) (j x : Nat) : soGet (modFr s f) j x = soGet s j x := rfl
@[simp] theorem getCl_modFr (f : Franking → Franking) (j : Fin 8) : getCl (modFr s f) j = getCl s j := rfl
@[simp] theorem getCh_modFr (f : Franking → Franking) (j : Nat) : getCh (modFr s f) j = getCh s j := rfl
@[simp] theorem getPort_modFr (f : Franking → Franking) (j : Nat) : getPort (modFr s f) j = getPort s j := rfl

/-! ### modMod -/

@[simp] theorem modMod_pending (f : Module → Module) : (modMod s f).pending = s.pending := rfl
@[simp] theorem modMod_meshCycle (f : Module → Module) : (modMod s f).meshCycle = s.meshCycle := rfl
@[simp] theorem modMod_fresh (f : Module → Module) : (modMod s f).fresh = s.fresh := rfl
@[simp] theorem modMod_cores (f : Module → Module) : (modMod s f).cores = s.cores := rfl
@[simp] theorem modMod_coreSite (f : Module → Module) : (modMod s f).coreSite = s.coreSite := rfl
@[simp] theorem modMod_siteState (f : Module → Module) : (modMod s f).siteState = s.siteState := rfl
@[simp] theorem modMod_compat512 (f : Module → Module) : (modMod s f).compat512 = s.compat512 := rfl
@[simp] theorem modMod_perCluster (f : Module → Module) : (modMod s f).perCluster = s.perCluster := rfl
@[simp] theorem modMod_clusters (f : Module → Module) : (modMod s f).clusters = s.clusters := rfl
@[simp] theorem modMod_sram (f : Module → Module) : (modMod s f).sram = s.sram := rfl
@[simp] theorem modMod_sramScrub (f : Module → Module) : (modMod s f).sramScrub = s.sramScrub := rfl
@[simp] theorem modMod_dev (f : Module → Module) : (modMod s f).dev = s.dev := rfl
@[simp] theorem modMod_setNow (f : Module → Module) : (modMod s f).setNow = s.setNow := rfl
@[simp] theorem modMod_msgs (f : Module → Module) : (modMod s f).msgs = s.msgs := rfl
@[simp] theorem modMod_rounds (f : Module → Module) : (modMod s f).rounds = s.rounds := rfl
@[simp] theorem modMod_barDue (f : Module → Module) : (modMod s f).barDue = s.barDue := rfl
@[simp] theorem modMod_channels (f : Module → Module) : (modMod s f).channels = s.channels := rfl
@[simp] theorem modMod_lastGrant (f : Module → Module) : (modMod s f).lastGrant = s.lastGrant := rfl
@[simp] theorem modMod_l2 (f : Module → Module) : (modMod s f).l2 = s.l2 := rfl
@[simp] theorem modMod_soCsr (f : Module → Module) : (modMod s f).soCsr = s.soCsr := rfl
@[simp] theorem modMod_shadows (f : Module → Module) : (modMod s f).shadows = s.shadows := rfl
@[simp] theorem modMod_mbx (f : Module → Module) : (modMod s f).mbx = s.mbx := rfl
@[simp] theorem modMod_soNotes (f : Module → Module) : (modMod s f).soNotes = s.soNotes := rfl
@[simp] theorem modMod_stageQ (f : Module → Module) : (modMod s f).stageQ = s.stageQ := rfl
@[simp] theorem modMod_dbgSession (f : Module → Module) : (modMod s f).dbgSession = s.dbgSession := rfl
@[simp] theorem modMod_pba (f : Module → Module) : (modMod s f).pba = s.pba := rfl
@[simp] theorem modMod_evtRing (f : Module → Module) : (modMod s f).evtRing = s.evtRing := rfl
@[simp] theorem modMod_evtProd (f : Module → Module) : (modMod s f).evtProd = s.evtProd := rfl
@[simp] theorem modMod_evtLost (f : Module → Module) : (modMod s f).evtLost = s.evtLost := rfl
@[simp] theorem modMod_evtCount (f : Module → Module) : (modMod s f).evtCount = s.evtCount := rfl
@[simp] theorem modMod_fab (f : Module → Module) : (modMod s f).fab = s.fab := rfl
@[simp] theorem modMod_so (f : Module → Module) : (modMod s f).so = s.so := rfl
@[simp] theorem modMod_flash (f : Module → Module) : (modMod s f).flash = s.flash := rfl
@[simp] theorem modMod_nm (f : Module → Module) : (modMod s f).nm = s.nm := rfl
@[simp] theorem modMod_fr (f : Module → Module) : (modMod s f).fr = s.fr := rfl
@[simp] theorem modMod_mod (f : Module → Module) : (modMod s f).mod = f s.mod := rfl
@[simp] theorem modMod_rerouted (f : Module → Module) : (modMod s f).rerouted = s.rerouted := rfl
@[simp] theorem modMod_outbox (f : Module → Module) : (modMod s f).outbox = s.outbox := rfl
@[simp] theorem getCore_modMod (f : Module → Module) (j : Nat) : getCore (modMod s f) j = getCore s j := rfl
@[simp] theorem getTh_modMod (f : Module → Module) (j : Nat) (u : Fin 4) : getTh (modMod s f) j u = getTh s j u := rfl
@[simp] theorem devGet_modMod (f : Module → Module) (j : Nat) : devGet (modMod s f) j = devGet s j := rfl
@[simp] theorem soGet_modMod (f : Module → Module) (j x : Nat) : soGet (modMod s f) j x = soGet s j x := rfl
@[simp] theorem getCl_modMod (f : Module → Module) (j : Fin 8) : getCl (modMod s f) j = getCl s j := rfl
@[simp] theorem getCh_modMod (f : Module → Module) (j : Nat) : getCh (modMod s f) j = getCh s j := rfl
@[simp] theorem getPort_modMod (f : Module → Module) (j : Nat) : getPort (modMod s f) j = getPort s j := rfl

/-! ### The same entry and the others -/

@[simp] theorem devGet_devSet_same (o : Nat) (v : Word) : devGet (devSet s o v) o = v := by simp [devGet, devSet]

theorem devGet_devSet_other (o p : Nat) (v : Word) (h : p ≠ o) : devGet (devSet s o v) p = devGet s p :=
  tget_tset_other _ _ _ _ _ h

@[simp] theorem getCl_modCl_same (c : Fin 8) (f : Cluster → Cluster) : getCl (modCl s c f) c = f (getCl s c) := by
  simp [getCl, modCl]

theorem getCl_modCl_other (c d : Fin 8) (f : Cluster → Cluster) (h : d ≠ c) : getCl (modCl s c f) d = getCl s d := by
  have : c.val ≠ d.val := fun e => h (Fin.ext e.symm)
  simp [getCl, modCl, this]

@[simp] theorem getCh_modCh_same (k : Nat) (f : Channel → Channel) : getCh (modCh s k f) k = f (getCh s k) := by
  simp [getCh, modCh]

theorem getCh_modCh_other (k j : Nat) (f : Channel → Channel) (h : j ≠ k) : getCh (modCh s k f) j = getCh s j :=
  tget_tset_other _ _ _ _ _ h

@[simp] theorem getPort_modPort_same (p : Nat) (f : Port → Port) : getPort (modPort s p f) p = f (getPort s p) := by
  simp [getPort, modPort]

theorem getPort_modPort_other (p q : Nat) (f : Port → Port) (h : q ≠ p) : getPort (modPort s p f) q = getPort s q :=
  tget_tset_other _ _ _ _ _ h

end Sys2Proof.Machine
end

