-- ==== Sys2Proof/WellFormed.lean ====
section
/-! DEFINITION. Which operands a command can carry: the ranges of R12, R15, R17, R243, R265, R372, R375, R403, R456, R517,
R546 and R559 for those that the operand's type does not bound. An ill-formed command names nothing on this part. -/
namespace Sys2Proof

/-- A logical core number of the larger grade (R12, R15). -/
def coreOk (n : Nat) : Bool := decide (n < 544)

def cpuOk : Cpu → Bool
  | .core n => coreOk n
  | .so _ => true

/-- The site of a position on the dies (R17). -/
def siteOk (x : Nat) : Bool := decide (x < 576)

/-- A unit's offset in a tier of `bytes` bytes (R372, R375). -/
def unitOffOk (off bytes : Nat) : Bool := decide (off % 64 = 0 ∧ off < bytes)

/-- A test names sites of the part (R568). -/
def outcomeOk (o : TestOutcome) : Bool := o.faulty.all (fun f => siteOk f.1)

def regOk : RegAddr → Bool
  | .core n off => coreOk n && off.toNat % 4 == 0
  | .dev off => off.toNat % 4 == 0
  | .so _ off => off.toNat % 4 == 0
  | .bar0 off => off.toNat % 4 == 0

/-- The operands of a command are in range. -/
def Instr.wf (i : Instr) : Bool :=
  match i with
  | .ld cpu _ _ _ => cpuOk cpu
  | .ldu cpu _ _ _ => cpuOk cpu
  | .ldx cpu _ _ _ => cpuOk cpu
  | .ldy cpu _ _ _ => cpuOk cpu
  | .leax cpu _ _ _ => cpuOk cpu
  | .leay cpu _ _ _ => cpuOk cpu
  | .st cpu _ _ _ => cpuOk cpu
  | .stx cpu _ _ _ => cpuOk cpu
  | .sty cpu _ _ _ => cpuOk cpu
  | .stz cpu _ _ _ => cpuOk cpu
  | .xch cpu _ _ _ => cpuOk cpu
  | .add cpu _ _ => cpuOk cpu
  | .adc cpu _ _ => cpuOk cpu
  | .sub cpu _ _ => cpuOk cpu
  | .sbc cpu _ _ => cpuOk cpu
  | .and cpu _ _ => cpuOk cpu
  | .or cpu _ _ => cpuOk cpu
  | .xor cpu _ _ => cpuOk cpu
  | .cmp cpu _ _ => cpuOk cpu
  | .ldi cpu _ _ => cpuOk cpu
  | .ldih cpu _ _ => cpuOk cpu
  | .lix cpu _ _ => cpuOk cpu
  | .liy cpu _ _ => cpuOk cpu
  | .addx cpu _ _ => cpuOk cpu
  | .addy cpu _ _ => cpuOk cpu
  | .cmpx cpu _ _ => cpuOk cpu
  | .cmpy cpu _ _ => cpuOk cpu
  | .nop cpu _ => cpuOk cpu
  | .shl cpu _ _ => cpuOk cpu
  | .shr cpu _ _ => cpuOk cpu
  | .sar cpu _ _ => cpuOk cpu
  | .rol cpu _ _ => cpuOk cpu
  | .neg cpu _ => cpuOk cpu
  | .not cpu _ => cpuOk cpu
  | .abs cpu _ => cpuOk cpu
  | .sexb cpu _ => cpuOk cpu
  | .sexh cpu _ => cpuOk cpu
  | .zexb cpu _ => cpuOk cpu
  | .zexh cpu _ => cpuOk cpu
  | .clz cpu _ => cpuOk cpu
  | .popc cpu _ => cpuOk cpu
  | .tax cpu _ => cpuOk cpu
  | .tay cpu _ => cpuOk cpu
  | .txa cpu _ => cpuOk cpu
  | .tya cpu _ => cpuOk cpu
  | .swxy cpu _ => cpuOk cpu
  | .gfl cpu _ => cpuOk cpu
  | .sfl cpu _ => cpuOk cpu
  | .macclr cpu _ => cpuOk cpu
  | .rdg cpu _ => cpuOk cpu
  | .macsh cpu _ _ => cpuOk cpu
  | .macd cpu _ _ _ _ _ _ _ _ => cpuOk cpu
  | .msbd cpu _ _ _ _ _ _ _ _ => cpuOk cpu
  | .muld cpu _ _ _ _ _ _ _ _ => cpuOk cpu
  | .mul cpu _ _ _ => cpuOk cpu
  | .mulh cpu _ _ _ => cpuOk cpu
  | .mulhu cpu _ _ _ => cpuOk cpu
  | .div cpu _ _ _ => cpuOk cpu
  | .divu cpu _ _ _ => cpuOk cpu
  | .rem cpu _ _ _ => cpuOk cpu
  | .remu cpu _ _ _ => cpuOk cpu
  | .branch cpu _ _ _ => cpuOk cpu
  | .jmp cpu _ _ => cpuOk cpu
  | .call cpu _ _ => cpuOk cpu
  | .jx cpu _ => cpuOk cpu
  | .callx cpu _ => cpuOk cpu
  | .ret cpu _ => cpuOk cpu
  | .rspop cpu _ => cpuOk cpu
  | .rspush cpu _ => cpuOk cpu
  | .sramLoadReturn cpu _ => cpuOk cpu
  | .sramStoreAck cpu _ _ => cpuOk cpu
  | .kcopy cpu _ _ _ => cpuOk cpu
  | .kread cpu _ _ _ => cpuOk cpu
  | .kaim cpu _ _ _ => cpuOk cpu
  | .knarrow cpu _ _ _ => cpuOk cpu
  | .kmask cpu _ _ _ => cpuOk cpu
  | .kvoid cpu _ _ => cpuOk cpu
  | .khere cpu _ _ => cpuOk cpu
  | .kwrap cpu _ _ _ _ => cpuOk cpu
  | .kunwrap cpu _ _ _ _ => cpuOk cpu
  | .setg cpu _ _ _ _ => cpuOk cpu
  | .ldk cpu _ _ _ _ => cpuOk cpu
  | .stk cpu _ _ _ _ => cpuOk cpu
  | .xld cpu _ _ _ _ => cpuOk cpu
  | .xldu cpu _ _ _ _ => cpuOk cpu
  | .xst cpu _ _ _ _ => cpuOk cpu
  | .gate cpu _ _ => cpuOk cpu
  | .rgate cpu _ => cpuOk cpu
  | .closureClose cpu _ _ => cpuOk cpu
  | .closureOpen cpu _ => cpuOk cpu
  | .closureEnd cpu _ => cpuOk cpu
  | .fence cpu _ _ => cpuOk cpu
  | .exceptionEntry cpu _ _ => cpuOk cpu
  | .eret cpu _ => cpuOk cpu
  | .escalation cpu _ _ _ _ _ => cpuOk cpu
  | .escret cpu _ => cpuOk cpu
  | .wfe cpu _ => cpuOk cpu
  | .sev cpu _ _ => cpuOk cpu
  | .clrev cpu _ => cpuOk cpu
  | .cycWake cpu => cpuOk cpu
  | .threadStart cpu _ => cpuOk cpu
  | .threadResume cpu _ => cpuOk cpu
  | .slotTableUpdate cpu => cpuOk cpu
  | .notifyDelivery cpu => cpuOk cpu
  | .orphanWait cpu => cpuOk cpu
  | .dbgStop cpu _ => cpuOk cpu
  | .debugStopTaken cpu _ => cpuOk cpu
  | .dbgStep cpu _ => cpuOk cpu
  | .dbgResume cpu _ => cpuOk cpu
  | .dbgEvent cpu _ => cpuOk cpu
  | .dbgStopAll cpu => cpuOk cpu
  | .dbgResumeAll cpu => cpuOk cpu
  | .dbgDataAccess cpu _ => cpuOk cpu
  | .dbgFlagWrite core _ _ => coreOk core
  | .dbgBarrierArrive core _ => coreOk core
  | .dbgBarrierWithdraw core _ => coreOk core
  | .numericCtlWrite core _ _ => coreOk core
  | .numSeedLoWrite core _ => coreOk core
  | .numSeedHiWrite core _ _ => coreOk core
  | .numericSettingsApply core => coreOk core
  | .vadd core _ _ _ _ _ _ _ => coreOk core
  | .vsub core _ _ _ _ _ _ _ => coreOk core
  | .vmul core _ _ _ _ _ _ _ => coreOk core
  | .vmac core _ _ _ _ _ _ _ => coreOk core
  | .vmin core _ _ _ _ _ _ _ => coreOk core
  | .vmax core _ _ _ _ _ _ _ => coreOk core
  | .vdiv core _ _ _ _ _ _ _ => coreOk core
  | .vlsum core _ _ _ _ _ => coreOk core
  | .vcmp core _ _ _ _ _ _ _ => coreOk core
  | .vand core _ _ _ _ => coreOk core
  | .vor core _ _ _ _ => coreOk core
  | .vxor core _ _ _ _ => coreOk core
  | .vsel core _ _ _ _ _ => coreOk core
  | .vpopc core _ _ _ _ => coreOk core
  | .vrsum core _ _ _ _ _ => coreOk core
  | .vrmax core _ _ _ _ _ => coreOk core
  | .vrmin core _ _ _ _ _ => coreOk core
  | .vrdot core _ _ _ _ _ _ _ => coreOk core
  | .vperm core _ _ _ _ _ => coreOk core
  | .vsplat core _ _ _ => coreOk core
  | .vget core _ _ _ => coreOk core
  | .vcvt core _ _ _ _ _ _ => coreOk core
  | .vld core _ _ _ _ _ => coreOk core
  | .vst core _ _ _ _ _ => coreOk core
  | .vscaleWrite core _ _ _ => coreOk core
  | .vectorRetire core => coreOk core
  | .mma core _ _ _ _ => coreOk core
  | .tzero core _ _ _ => coreOk core
  | .taccTile core _ _ _ _ _ => coreOk core
  | .taccMem core _ _ _ _ _ _ _ => coreOk core
  | .tupd core _ _ _ _ _ _ => coreOk core
  | .tlsum core _ _ _ _ _ _ => coreOk core
  | .tld core _ _ _ _ _ _ _ => coreOk core
  | .tst core _ _ _ _ _ _ _ => coreOk core
  | .tlds core _ _ _ _ _ => coreOk core
  | .tsts core _ _ _ _ _ => coreOk core
  | .tfence core _ => coreOk core
  | .tileCfgWrite core _ _ _ => coreOk core
  | .tileRetire core _ => coreOk core
  | .hrebind core _ _ => coreOk core
  | .handleRebindDone core => coreOk core
  | .sliceScrub _ slice => decide (slice < 48)
  | .rsend core _ _ => coreOk core
  | .reductionRelease _ => true
  | .mrouteWrite _ _ _ => true
  | .streamStart core _ _ _ => coreOk core
  | .streamStop core _ => coreOk core
  | .sprogWrite core _ _ _ => coreOk core
  | .srel core _ _ _ => coreOk core
  | .streamCycleGrant core => coreOk core
  | .streamRunStart core _ => coreOk core
  | .streamRowArrival core _ _ => coreOk core
  | .streamWriteAck core _ => coreOk core
  | .streamIdleTimeout core _ => coreOk core
  | .streamFaultDelivery core _ => coreOk core
  | .cdoor core _ _ => coreOk core
  | .cctlGo _ _ _ => true
  | .cctlPause _ _ _ => true
  | .cctlAbort _ _ => true
  | .courierBurstGrant _ _ => true
  | .courierPaused _ _ => true
  | .courierComplete _ _ => true
  | .fgo core _ _ _ => coreOk core
  | .farReadData core _ => coreOk core
  | .pstw core _ => coreOk core
  | .pclr core _ => coreOk core
  | .pget core _ _ => coreOk core
  | .pret core _ => coreOk core
  | .post core _ _ => coreOk core
  | .postq core _ _ => coreOk core
  | .fsig core _ _ _ _ _ => coreOk core
  | .fwait core _ _ _ => coreOk core
  | .ftry core _ _ _ => coreOk core
  | .fget core _ _ => coreOk core
  | .bar core _ _ => coreOk core
  | .barv core _ _ => coreOk core
  | .bwait core _ _ => coreOk core
  | .barrierRelease _ => true
  | .barMembWrite core _ => coreOk core
  | .postArrival _ => true
  | .postDispatch core => coreOk core
  | .creditReturn _ => true
  | .flagSignalArrival _ => true
  | .deadLetterReturn _ => true
  | .postQueueClose core _ _ => coreOk core
  | .dlqPop core => coreOk core
  | .chtHiWrite core _ _ => coreOk core
  | .hbmUnitService off _ => unitOffOk off 0x8700000000
  | .lpUnitService off _ _ => unitOffOk off 0x7000000000
  | .hbmRefreshSlot _ => true
  | .lpRefreshSlot _ => true
  | .selfRefreshExit _ _ => true
  | .migrationWindow => true
  | .trainingStart _ _ => true
  | .trainingFrame _ frame => frame.length == 32
  | .trainingPhaseEnd _ _ => true
  | .trainingTimeout _ => true
  | .latp _ _ => true
  | .late _ _ _ => true
  | .latr _ _ => true
  | .flitSlot _ => true
  | .flitReceive _ _ => true
  | .linkCtrl _ _ => true
  | .replayNak _ _ => true
  | .replayTimeout _ => true
  | .lossOfSignal _ _ => true
  | .blockLockLoss _ _ => true
  | .portQuiesce _ => true
  | .portQuiesced _ => true
  | .portResume _ => true
  | .read _ => true
  | .readResp _ => true
  | .write _ => true
  | .writeAck _ => true
  | .signal _ => true
  | .dead _ => true
  | .reduce _ => true
  | .barrier _ => true
  | .seqRestart _ _ => true
  | .seqRestartAck _ _ => true
  | .csrRead _ _ _ => true
  | .csrWrite _ _ _ _ => true
  | .csrResp _ _ _ _ => true
  | .injectStop _ => true
  | .injectStopped _ => true
  | .injectResume _ => true
  | .reorderTimeout _ _ => true
  | .remoteTimeout _ => true
  | .fabricResetExit => true
  | .routeEntrySwitch _ => true
  | .ftWrite _ _ _ => true
  | .ingest _ _ => true
  | .ingestLast _ _ => true
  | .headerChecksDone _ => true
  | .chunkTagVerify _ => true
  | .envelopeAccepted _ => true
  | .ingestIdleTimeout _ => true
  | .ingestAbort _ => true
  | .ptWrite _ => true
  | .ptRead _ => true
  | .sealDoor _ => true
  | .sealJobComplete => true
  | .batchCloseCmd => true
  | .batchIdleTimeout => true
  | .batchSigned => true
  | .rcptAckWrite _ => true
  | .ksImport _ => true
  | .ksRetire _ => true
  | .keyErase _ => true
  | .attGo => true
  | .fwVerify _ => true
  | .fwActivate _ => true
  | .cmoClean _ _ _ _ _ => true
  | .cmoInvalidate _ _ _ _ _ => true
  | .cmoCleanInvalidate _ _ _ _ _ => true
  | .l2LockWrite _ _ => true
  | .coreResetHold _ core => coreOk core
  | .coreResetRelease _ core => coreOk core
  | .clusterResetHold _ => true
  | .clCsrdAccess _ _ => true
  | .doorbell _ => true
  | .hello _ => true
  | .identify _ => true
  | .attest _ => true
  | .loadFirmware _ _ => true
  | .activateFirmware _ _ => true
  | .keyImport _ => true
  | .keyRetire _ => true
  | .modelLoad _ _ => true
  | .modelEvict _ => true
  | .planDefine _ _ => true
  | .parcelBundle _ _ => true
  | .parcelStatus _ => true
  | .clusterDrain _ => true
  | .clusterDrainTimeout _ => true
  | .clusterReturn _ => true
  | .setOppoint _ => true
  | .hbmRetire _ => true
  | .portTrain _ => true
  | .portRetire _ => true
  | .routeLoad _ => true
  | .selftest _ => true
  | .calibrate _ => true
  | .meterRead _ => true
  | .nightmailConfig _ => true
  | .debugAttach _ => true
  | .resetUnit _ => true
  | .ticketStart _ => true
  | .ticketDone _ out => outcomeOk out
  | .stageDispatch parcel => decide (parcel < 8192)
  | .stageEnd core _ => coreOk core
  | .functionReset => true
  | .soCoreRestart _ _ => true
  | .handoverRevert _ => true
  | .nightMailTick raw _ _ => raw.length == 55
  | .oppointStep _ => true
  | .clusterIdleEntry _ => true
  | .napOrder _ => true
  | .offOrder _ => true
  | .clWake _ => true
  | .clusterWakeDone _ => true
  | .i3cStatus => true
  | .dormant => true
  | .wake => true
  | .mtrSelect _ _ => true
  | .keyset key sig => key.length == 97 && (sig.length == 0 || sig.length == 96)
  | .mrstLow => true
  | .mrstRise _ _ _ => true
  | .perst => true
  | .brownout => true
  | .overvoltage => true
  | .refclk25Loss => true
  | .leakTraceChange _ _ => true
  | .bringupPhaseA => true
  | .bringupPhaseB => true
  | .bringupPhaseC => true
  | .bringupPhaseD _ _ => true
  | .bringupPhaseE => true
  | .frankingSample volts amps => volts.length == 8 && amps.length == 8
  | .windowEnd => true
  | .reportFrame _ => true
  | .hubRestart => true
  | .frankingUpdateCheck _ => true
  | .powerLoss => true
  | .powerUp => true
  | .converterFault _ => true
  | .registerWrite reg _ => regOk reg
  | .inputInOperatingRange => true
  | .converterCheckPass _ => true
  | .nightMailReloadDone _ => true
  | .ksImportDone => true
  | .attestReportDone => true
  | .fwCommandDone => true
  | .testComplete _ out => outcomeOk out
  | .jtagSelect site _ => siteOk site

end Sys2Proof
end

