-- ==== Sys2Proof/Tests/Slice0.lean ====
section
/-! SUPPORT. Tests: for each statement with conditions, states and operands that meet them together; terms that are
ill-formed; words decoded from the spec's encodings; and numbers of the spec's examples. -/
namespace Sys2Proof.Tests
open Sys2Proof Sys2Proof.Machine

set_option Elab.async false

/-- Every thread owns two positions of the slot table. -/
def positions : Tab Word := [(0x1024, 1), (0x1028, 2), (0x102C, 3), (0x1034, 1), (0x1038, 2), (0x103C, 3)]

/-- Cores 0 and 1 in sites 0 and 1 serve in a running cluster, thread `t` of core 0 as given. -/
def mach (t : Fin 4) (th : Thread) : State :=
  { State.reset with
    clusters := Vector.replicate 8 { Cluster.reset with power := .run, service := .inService }
    perCluster := 2
    coreSite := [(0, some 0), (1, some 1)]
    cores := [(0, { Core.reset with held := false, th := Core.reset.th.set t th, csr := positions }),
      (1, { Core.reset with held := false, csr := positions })] }

def one (th : Thread) : State := mach 0 th

/-- Thread 0 runs at 0x100. -/
def run : Thread := { Thread.reset with st := .running, pc := 0x100 }

/-- The state `one th` with the core changed by `f`. -/
def oneCore (th : Thread) (f : Core → Core) : State := modCore (one th) 0 f

/-- A save frame capability. -/
def frames : Cap := ⟨true, 0x60180, 0x60000, 0x600, 0x001B, 0⟩
/-- A sealed capability to code at 0x200. -/
def codeCap : Cap := ⟨true, 0x204, 0x200, 0x100, 0x0085, 7⟩
/-- A sealed capability to data at 0x1000. -/
def dataCap : Cap := ⟨true, 0x1000, 0x1000, 0x100, 0x001B, 7⟩

/-- Every CSR of core 0 in the list has its value. -/
def withCsrs (s : State) (l : List (Nat × Word)) : State := modCore s 0 fun c => l.foldl (fun c p => csrSet c p.1 p.2) c

/-- The result is `.ok a`. -/
def okIs {ε α : Type} [DecidableEq α] (x : Except ε α) (a : α) : Bool :=
  match x with
  | .ok b => b == a
  | .error _ => false

theorem okIs_eq {ε α : Type} [DecidableEq α] {x : Except ε α} {a : α} (h : okIs x a = true) : x = .ok a := by
  cases x <;> simp_all [okIs]

/-- The result is `.error e`. -/
def errIs {ε α : Type} [DecidableEq ε] (x : Except ε α) (e : ε) : Bool :=
  match x with
  | .error c => c == e
  | .ok _ => false

theorem errIs_eq {ε α : Type} [DecidableEq ε] {x : Except ε α} {e : ε} (h : errIs x e = true) : x = .error e := by
  cases x <;> simp_all [errIs]

/-- Port `p` in state `st`, changed by `f`. -/
def portAt (s : State) (p st : Nat) (f : Port → Port) : State := modPort (setPortState s p st) p f
/-- Every device register in the list has its value. -/
def devs (s : State) (l : List (Nat × Word)) : State := l.foldl (fun s p => devSet s p.1 p.2) s
def withSeal (s : State) (f : Seal → Seal) : State := { s with so := { s.so with sealing := f s.so.sealing } }
def withSo (s : State) (f : So → So) : State := { s with so := f s.so }
def base : State := mach 1 run
/-- Pigeonhole `h` of an open session holds a command and its payload. -/
def hole (s : State) (h : BitVec 6) (cmd len : Nat) (payload : List Byte) : State :=
  { s with
    mod := { s.mod with mode := .active, mrst := true, started := true, service := 2 }
    mbx := memPutBytes (memPutBytes s.mbx (holeBase h) (leBytes 2 cmd ++ leBytes 2 0 ++ leBytes 4 0x55 ++ leBytes 4 len ++
      leBytes 4 0 ++ leBytes 2 0xFFFF ++ leBytes 2 3)) (holeBase h + 64) payload
    so := { s.so with ready := true, open_ := true, busy := [⟨h, false, false, []⟩], session := 3 } }

/-! ### A conjunction from its first conjuncts and the rest -/

theorem join2 {a0 a1 r : Prop} (h : a0 ∧ a1) (k : r) : a0 ∧ a1 ∧ r :=
  ⟨h.1, h.2, k⟩

theorem join3 {a0 a1 a2 r : Prop} (h : a0 ∧ a1 ∧ a2) (k : r) : a0 ∧ a1 ∧ a2 ∧ r :=
  ⟨h.1, h.2.1, h.2.2, k⟩

theorem join4 {a0 a1 a2 a3 r : Prop} (h : a0 ∧ a1 ∧ a2 ∧ a3) (k : r) : a0 ∧ a1 ∧ a2 ∧ a3 ∧ r :=
  ⟨h.1, h.2.1, h.2.2.1, h.2.2.2, k⟩

theorem join5 {a0 a1 a2 a3 a4 r : Prop} (h : a0 ∧ a1 ∧ a2 ∧ a3 ∧ a4) (k : r) : a0 ∧ a1 ∧ a2 ∧ a3 ∧ a4 ∧ r :=
  ⟨h.1, h.2.1, h.2.2.1, h.2.2.2.1, h.2.2.2.2, k⟩

/-! ### Scalar instructions -/

/-- A machine whose thread 0 of core 0 runs with full registers. -/
def m0 : State := one { run with acc := 0x80000000, acg := 0xFF, ix := 0x210, iy := 0x220, flags := 0x1F, rs := [0x200, 0x204] }
/-- The same, with data at 0x200. -/
def m1 : State := modCore m0 0 fun c => { c with mem := memPutBytes c.mem 0x200 [0xFF, 0xFF, 0xFF, 0xFF, 0, 0, 0, 0, 5] }
/-- A return stack that is full, with RSWRAP set. -/
def m2 : State := withCsrs (one { run with rs := List.replicate 16 0x200, ix := 0x204 }) [(0x1000, 0x01000000)]
def wide : Thread := { run with ddc := ⟨true, 0, 0, 0x70000000, 0x001B, 0⟩ }
/-- A load from shared SRAM that waits for its data. -/
def sramWait : State := one { wide with ix := 0x40000000, block := some (.sram (.ld (.core 0) 0 2 0)) }
/-- Sixteen stores wait for their acknowledgement. -/
def sramFull : State := one { wide with ix := 0x40000000, pend := List.replicate 16 ⟨0, 0, [0, 0, 0, 0], false, false⟩ }
/-- The state with poison in slice 0. -/
def poisoned : State := { m0 with sram := { Mem.empty with check := [(0, .double)] } }
def sramLow : State := one { wide with ix := 0x40000000 }
def sramHigh : State := one { wide with ix := 0x6FFFFFFC }
def capUntagged : Cap := ⟨false, 0, 0, 0, 0, 0⟩
def capSealed : Cap := ⟨true, 0, 0, 8, 3, 1⟩
def capNoLoad : Cap := ⟨true, 0, 0, 8, 2, 0⟩
def capEight : Cap := ⟨true, 0, 0, 8, 3, 0⟩

theorem witness_AddSubImmediate :
    Ready m0 (Cpu.core 0) 0 0 :=
  ⟨by decide +kernel, by decide +kernel, by decide +kernel⟩

theorem witness_CompareImmediate :
    Ready m0 (Cpu.core 0) 0 0 :=
  ⟨by decide +kernel, by decide +kernel, by decide +kernel⟩

theorem witness_LogicAndMoves :
    Ready m0 (Cpu.core 0) 0 0 :=
  ⟨by decide +kernel, by decide +kernel, by decide +kernel⟩

theorem witness_CountLeadingZeros :
    Ready m0 (Cpu.core 0) 0 0 :=
  ⟨by decide +kernel, by decide +kernel, by decide +kernel⟩

theorem witness_Shifts :
    Ready m0 (Cpu.core 0) 0 0 :=
  ⟨by decide +kernel, by decide +kernel, by decide +kernel⟩

theorem witness_NegateAndAbsolute :
    Ready m0 (Cpu.core 0) 0 0 :=
  ⟨by decide +kernel, by decide +kernel, by decide +kernel⟩

theorem witness_IndexRegisters :
    Ready m0 (Cpu.core 0) 0 0 :=
  ⟨by decide +kernel, by decide +kernel, by decide +kernel⟩

theorem witness_FlagsAndAccumulator :
    Ready m0 (Cpu.core 0) 0 0 :=
  ⟨by decide +kernel, by decide +kernel, by decide +kernel⟩

theorem witness_MacshRounds :
    Ready m0 (Cpu.core 0) 0 0 :=
  ⟨by decide +kernel, by decide +kernel, by decide +kernel⟩

theorem witness_LoadAddress :
    Ready m0 (Cpu.core 0) 0 0 ∧
    eaMode 0 = some (EaMode.ixd 0) ∧
    EaMode.ixd 0 ≠ EaMode.ixInc ∧
    EaMode.ixd 0 ≠ EaMode.iyInc :=
  ⟨⟨by decide +kernel, by decide +kernel, by decide +kernel⟩, by decide +kernel⟩

theorem witness_LoadsFromLocalMemory_1 :
    Ready m1 (Cpu.core 0) 0 0 ∧
    szBytes 2 = some 4 ∧
    eaMode 0 = some (EaMode.ixd 0) ∧
    LocalAccess 0 (getTh m1 0 0).ddc (BitVec.toNat (eaOf (getTh m1 0 0) (EaMode.ixd 0))) 4 pLOAD ∧
    Clean (getCore m1 0).mem (BitVec.toNat (eaOf (getTh m1 0 0) (EaMode.ixd 0))) 4 ∧
    tileHolds m1 0 (BitVec.toNat (eaOf (getTh m1 0 0) (EaMode.ixd 0))) 4 false = false :=
  ⟨⟨by decide +kernel, by decide +kernel, by decide +kernel⟩, join2 (by decide +kernel) ⟨⟨by decide +kernel,
    by decide +kernel, by decide +kernel, by decide +kernel⟩, by unfold Clean; decide +kernel, by decide +kernel⟩⟩

theorem witness_LoadsFromLocalMemory_2 :
    Ready m1 (Cpu.core 0) 0 0 ∧
    szBytes 0 = some 1 ∧
    eaMode 2359296 = some EaMode.iyInc ∧
    LocalAccess 0 (getTh m1 0 0).ddc (BitVec.toNat (eaOf (getTh m1 0 0) EaMode.iyInc)) 1 pLOAD ∧
    Clean (getCore m1 0).mem (BitVec.toNat (eaOf (getTh m1 0 0) EaMode.iyInc)) 1 ∧
    tileHolds m1 0 (BitVec.toNat (eaOf (getTh m1 0 0) EaMode.iyInc)) 1 false = false :=
  ⟨⟨by decide +kernel, by decide +kernel, by decide +kernel⟩, join2 (by decide +kernel) ⟨⟨by decide +kernel,
    by decide +kernel, by decide +kernel, by decide +kernel⟩, by unfold Clean; decide +kernel, by decide +kernel⟩⟩

theorem witness_ArithmeticFromLocalMemory :
    Ready m1 (Cpu.core 0) 0 0 ∧
    szBytes 2 = some 4 ∧
    eaMode 4080 = some (EaMode.ixd 4080) ∧
    LocalAccess 0 (getTh m1 0 0).ddc (BitVec.toNat (eaOf (getTh m1 0 0) (EaMode.ixd 4080))) 4 pLOAD ∧
    Clean (getCore m1 0).mem (BitVec.toNat (eaOf (getTh m1 0 0) (EaMode.ixd 4080))) 4 ∧
    tileHolds m1 0 (BitVec.toNat (eaOf (getTh m1 0 0) (EaMode.ixd 4080))) 4 false = false :=
  ⟨⟨by decide +kernel, by decide +kernel, by decide +kernel⟩, join2 (by decide +kernel) ⟨⟨by decide +kernel,
    by decide +kernel, by decide +kernel, by decide +kernel⟩, by unfold Clean; decide +kernel, by decide +kernel⟩⟩

theorem witness_StoresToLocalMemory :
    Ready m1 (Cpu.core 0) 0 0 ∧
    szBytes 2 = some 4 ∧
    eaMode 4080 = some (EaMode.ixd 4080) ∧
    LocalAccess 0 (getTh m1 0 0).ddc (BitVec.toNat (eaOf (getTh m1 0 0) (EaMode.ixd 4080))) 4 pSTORE ∧
    tileHolds m1 0 (BitVec.toNat (eaOf (getTh m1 0 0) (EaMode.ixd 4080))) 4 true = false ∧
    LocalAccess 0 (getTh m1 0 0).ddc (BitVec.toNat (eaOf (getTh m1 0 0) (EaMode.ixd 4080))) 4 (pLOAD ||| pSTORE) ∧
    Clean (getCore m1 0).mem (BitVec.toNat (eaOf (getTh m1 0 0) (EaMode.ixd 4080))) 4 :=
  ⟨⟨by decide +kernel, by decide +kernel, by decide +kernel⟩, join2 (by decide +kernel) ⟨⟨by decide +kernel,
    by decide +kernel, by decide +kernel, by decide +kernel⟩, by decide +kernel, ⟨by decide +kernel,
    by decide +kernel, by decide +kernel, by decide +kernel⟩, by unfold Clean; decide +kernel⟩⟩

theorem witness_MultiplyAccumulate :
    Ready m1 (Cpu.core 0) 0 0 ∧
    szBytes 1 = some 2 ∧
    LocalAccess (0 : Nat) (getTh m1 (0 : Nat) (0 : Fin (4 : Nat))).ddc
      (BitVec.toNat
        ((getTh m1 (0 : Nat) (0 : Fin (4 : Nat))).ix + BitVec.signExtend (32 : Nat) (240 : BitVec (8 : Nat))))
      (2 : Nat) pLOAD ∧
    LocalAccess (0 : Nat) (getTh m1 (0 : Nat) (0 : Fin (4 : Nat))).ddc
      (BitVec.toNat
        ((getTh m1 (0 : Nat) (0 : Fin (4 : Nat))).iy + BitVec.signExtend (32 : Nat) (0 : BitVec (8 : Nat))))
      (2 : Nat) pLOAD ∧
    Clean (getCore m1 (0 : Nat)).mem
      (BitVec.toNat
        ((getTh m1 (0 : Nat) (0 : Fin (4 : Nat))).ix + BitVec.signExtend (32 : Nat) (240 : BitVec (8 : Nat))))
      (2 : Nat) ∧
    Clean (getCore m1 (0 : Nat)).mem
      (BitVec.toNat
        ((getTh m1 (0 : Nat) (0 : Fin (4 : Nat))).iy + BitVec.signExtend (32 : Nat) (0 : BitVec (8 : Nat))))
      (2 : Nat) ∧
    tileHolds m1 (0 : Nat)
        (BitVec.toNat
          ((getTh m1 (0 : Nat) (0 : Fin (4 : Nat))).ix + BitVec.signExtend (32 : Nat) (240 : BitVec (8 : Nat))))
        (2 : Nat) false =
      false ∧
    tileHolds m1 (0 : Nat)
        (BitVec.toNat
          ((getTh m1 (0 : Nat) (0 : Fin (4 : Nat))).iy + BitVec.signExtend (32 : Nat) (0 : BitVec (8 : Nat))))
        (2 : Nat) false =
      false :=
  ⟨⟨by decide +kernel, by decide +kernel, by decide +kernel⟩, by decide +kernel, ⟨by decide +kernel,
    by decide +kernel, by decide +kernel, by decide +kernel⟩, ⟨by decide +kernel, by decide +kernel,
    by decide +kernel, by decide +kernel⟩, by unfold Clean; decide +kernel, by unfold Clean; decide +kernel,
    by decide +kernel⟩

theorem witness_BranchConditions_1 :
    Ready m0 (Cpu.core 0) 0 0 ∧
    ((14, true) ∈
      [(0#4, BitVec.getLsbD (getTh m0 0 0).flags 0), (1#4, !BitVec.getLsbD (getTh m0 0 0).flags 0),
        (2#4, BitVec.getLsbD (getTh m0 0 0).flags 2), (3#4, !BitVec.getLsbD (getTh m0 0 0).flags 2),
        (4#4, BitVec.getLsbD (getTh m0 0 0).flags 1), (5#4, !BitVec.getLsbD (getTh m0 0 0).flags 1),
        (6#4, BitVec.getLsbD (getTh m0 0 0).flags 3), (7#4, !BitVec.getLsbD (getTh m0 0 0).flags 3),
        (8#4, !BitVec.getLsbD (getTh m0 0 0).flags 2 && !BitVec.getLsbD (getTh m0 0 0).flags 0),
        (9#4, BitVec.getLsbD (getTh m0 0 0).flags 2 || BitVec.getLsbD (getTh m0 0 0).flags 0),
        (10#4, BitVec.getLsbD (getTh m0 0 0).flags 1 == BitVec.getLsbD (getTh m0 0 0).flags 3),
        (11#4, BitVec.getLsbD (getTh m0 0 0).flags 1 != BitVec.getLsbD (getTh m0 0 0).flags 3),
        (12#4,
          !BitVec.getLsbD (getTh m0 0 0).flags 0 &&
            BitVec.getLsbD (getTh m0 0 0).flags 1 == BitVec.getLsbD (getTh m0 0 0).flags 3),
        (13#4,
          BitVec.getLsbD (getTh m0 0 0).flags 0 ||
            BitVec.getLsbD (getTh m0 0 0).flags 1 != BitVec.getLsbD (getTh m0 0 0).flags 3),
        (14#4, true), (15#4, BitVec.getLsbD (getTh m0 0 0).flags 4)]) ∧
    checkTarget m0 (0 : Nat) (getTh m0 (0 : Nat) (0 : Fin (4 : Nat))).pcc
        ((getTh m0 (0 : Nat) (0 : Fin (4 : Nat))).pc +
          (4 : Word) * BitVec.signExtend (32 : Nat) (64 : BitVec (23 : Nat))) =
      none :=
  ⟨⟨by decide +kernel, by decide +kernel, by decide +kernel⟩, by decide +kernel⟩

theorem witness_BranchConditions_2 :
    Ready m0 (Cpu.core 0) 0 0 ∧
    ((1, false) ∈
      [(0#4, BitVec.getLsbD (getTh m0 0 0).flags 0), (1#4, !BitVec.getLsbD (getTh m0 0 0).flags 0),
        (2#4, BitVec.getLsbD (getTh m0 0 0).flags 2), (3#4, !BitVec.getLsbD (getTh m0 0 0).flags 2),
        (4#4, BitVec.getLsbD (getTh m0 0 0).flags 1), (5#4, !BitVec.getLsbD (getTh m0 0 0).flags 1),
        (6#4, BitVec.getLsbD (getTh m0 0 0).flags 3), (7#4, !BitVec.getLsbD (getTh m0 0 0).flags 3),
        (8#4, !BitVec.getLsbD (getTh m0 0 0).flags 2 && !BitVec.getLsbD (getTh m0 0 0).flags 0),
        (9#4, BitVec.getLsbD (getTh m0 0 0).flags 2 || BitVec.getLsbD (getTh m0 0 0).flags 0),
        (10#4, BitVec.getLsbD (getTh m0 0 0).flags 1 == BitVec.getLsbD (getTh m0 0 0).flags 3),
        (11#4, BitVec.getLsbD (getTh m0 0 0).flags 1 != BitVec.getLsbD (getTh m0 0 0).flags 3),
        (12#4,
          !BitVec.getLsbD (getTh m0 0 0).flags 0 &&
            BitVec.getLsbD (getTh m0 0 0).flags 1 == BitVec.getLsbD (getTh m0 0 0).flags 3),
        (13#4,
          BitVec.getLsbD (getTh m0 0 0).flags 0 ||
            BitVec.getLsbD (getTh m0 0 0).flags 1 != BitVec.getLsbD (getTh m0 0 0).flags 3),
        (14#4, true), (15#4, BitVec.getLsbD (getTh m0 0 0).flags 4)]) :=
  ⟨⟨by decide +kernel, by decide +kernel, by decide +kernel⟩, by decide +kernel⟩

theorem witness_JumpsCallsReturns_1 :
    Ready m0 (Cpu.core 0) 0 0 ∧
    checkTarget m0 (0 : Nat) (getTh m0 (0 : Nat) (0 : Fin (4 : Nat))).pcc
        ((getTh m0 (0 : Nat) (0 : Fin (4 : Nat))).pc +
          (4 : Word) * BitVec.signExtend (32 : Nat) (64 : BitVec (24 : Nat))) =
      none ∧
    checkTarget m0 0 (getTh m0 0 0).pcc (getTh m0 0 0).ix = none ∧
    (getTh m0 0 0).rs.length < 16 ∧
    (getTh m0 0 0).rs = [512] ++ [516] ∧
    checkTarget m0 0 (getTh m0 0 0).pcc 516 = none :=
  ⟨⟨by decide +kernel, by decide +kernel, by decide +kernel⟩, by decide +kernel⟩

theorem witness_JumpsCallsReturns_2 :
    Ready m2 (Cpu.core 0) 0 0 ∧
    checkTarget m2 (0 : Nat) (getTh m2 (0 : Nat) (0 : Fin (4 : Nat))).pcc
        ((getTh m2 (0 : Nat) (0 : Fin (4 : Nat))).pc +
          (4 : Word) * BitVec.signExtend (32 : Nat) (64 : BitVec (24 : Nat))) =
      none ∧
    checkTarget m2 0 (getTh m2 0 0).pcc (getTh m2 0 0).ix = none ∧
    (getTh m2 0 0).rs = List.replicate 15 512 ++ [512] ∧
    checkTarget m2 0 (getTh m2 0 0).pcc 512 = none ∧
    (getTh m2 0 0).rs = 512 :: List.replicate 15 512 ∧
    (getTh m2 0 0).rs.length = 16 ∧
    rsWrap m2 0 0 = true :=
  ⟨⟨by decide +kernel, by decide +kernel, by decide +kernel⟩, by decide +kernel⟩

theorem witness_LoadFromSharedSram_1 :
    slotOf sramLow (Cpu.core 0) = some 0 ∧
    szBytes 2 = some 4 ∧
    eaMode 0 = some (EaMode.ixd 0) ∧
    capCheck (getTh sramLow 0 0).ddc (BitVec.toNat (eaOf (getTh sramLow 0 0) (EaMode.ixd 0))) 4 pLOAD = none ∧
    BitVec.toNat (eaOf (getTh sramLow 0 0) (EaMode.ixd 0)) % 4 = 0 ∧
    1073741824 ≤ BitVec.toNat (eaOf (getTh sramLow 0 0) (EaMode.ixd 0)) ∧
    BitVec.toNat (eaOf (getTh sramLow 0 0) (EaMode.ixd 0)) + 4 ≤ 1879048192 ∧
    ((Instr.ld (Cpu.core 0) 0 2 0, 0) ∈
      [(Instr.ld (Cpu.core 0) 0 2 0,
          BitVec.signExtend 32
            (BitVec.ofNat (8 * 4)
              (memNat sramLow.sram (BitVec.toNat (eaOf (getTh sramLow 0 0) (EaMode.ixd 0)) - 1073741824) 4))),
        (Instr.ldu (Cpu.core 0) 0 2 0,
          BitVec.ofNat 32
            (memNat sramLow.sram (BitVec.toNat (eaOf (getTh sramLow 0 0) (EaMode.ixd 0)) - 1073741824) 4))]) ∧
    Ready sramLow (Cpu.core 0) 0 0 :=
  join5 (by decide +kernel) (join3 (by decide +kernel) ⟨by decide +kernel, by decide +kernel, by decide +kernel⟩)

theorem witness_LoadFromSharedSram_2 :
    slotOf sramWait (Cpu.core 0) = some 0 ∧
    szBytes 2 = some 4 ∧
    eaMode 0 = some (EaMode.ixd 0) ∧
    capCheck (getTh sramWait 0 0).ddc (BitVec.toNat (eaOf (getTh sramWait 0 0) (EaMode.ixd 0))) 4 pLOAD = none ∧
    BitVec.toNat (eaOf (getTh sramWait 0 0) (EaMode.ixd 0)) % 4 = 0 ∧
    1073741824 ≤ BitVec.toNat (eaOf (getTh sramWait 0 0) (EaMode.ixd 0)) ∧
    BitVec.toNat (eaOf (getTh sramWait 0 0) (EaMode.ixd 0)) + 4 ≤ 1879048192 ∧
    ((Instr.ld (Cpu.core 0) 0 2 0, 0) ∈
      [(Instr.ld (Cpu.core 0) 0 2 0,
          BitVec.signExtend 32
            (BitVec.ofNat (8 * 4)
              (memNat sramWait.sram (BitVec.toNat (eaOf (getTh sramWait 0 0) (EaMode.ixd 0)) - 1073741824) 4))),
        (Instr.ldu (Cpu.core 0) 0 2 0,
          BitVec.ofNat 32
            (memNat sramWait.sram (BitVec.toNat (eaOf (getTh sramWait 0 0) (EaMode.ixd 0)) - 1073741824) 4))]) ∧
    (getCore sramWait 0).held = false ∧
    (getTh sramWait 0 0).block = some (Block.sram (Instr.ld (Cpu.core 0) 0 2 0)) ∧
    (∀ (u : Fin 4), (getTh sramWait 0 u).pend = []) ∧
    Clean sramWait.sram (BitVec.toNat (eaOf (getTh sramWait 0 0) (EaMode.ixd 0)) - 1073741824) 4 :=
  join5 (by decide +kernel) (join4 (by decide +kernel) (join2 (by decide +kernel) (by unfold Clean; decide +kernel)))

theorem witness_StoreToSharedSram_1 :
    slotOf sramHigh (Cpu.core 0) = some 0 ∧
    szBytes 2 = some 4 ∧
    eaMode 0 = some (EaMode.ixd 0) ∧
    Ready sramHigh (Cpu.core 0) 0 0 ∧
    capCheck (getTh sramHigh 0 0).ddc (BitVec.toNat (eaOf (getTh sramHigh 0 0) (EaMode.ixd 0))) 4 pSTORE = none ∧
    BitVec.toNat (eaOf (getTh sramHigh 0 0) (EaMode.ixd 0)) % 4 = 0 ∧
    1073741824 ≤ BitVec.toNat (eaOf (getTh sramHigh 0 0) (EaMode.ixd 0)) ∧
    BitVec.toNat (eaOf (getTh sramHigh 0 0) (EaMode.ixd 0)) + 4 ≤ 1879048192 ∧
    (∀ (u : Fin (4 : Nat)),
      u ≠ (0 : Fin (4 : Nat)) →
        ∀ (q : PendStore),
          q ∈ (getTh sramHigh (0 : Nat) u).pend →
            q.slice ≠
              {
                  slice :=
                    (BitVec.toNat
                          (eaOf (getTh sramHigh (0 : Nat) (0 : Fin (4 : Nat)))
                            (EaMode.ixd (0 : BitVec (12 : Nat)))) -
                        (1073741824 : Nat)) /
                      (2097152 : Nat),
                  off :=
                    BitVec.toNat
                        (eaOf (getTh sramHigh (0 : Nat) (0 : Fin (4 : Nat)))
                          (EaMode.ixd (0 : BitVec (12 : Nat)))) -
                      (1073741824 : Nat),
                  bytes := leBytes (4 : Nat) (BitVec.toNat (getTh sramHigh (0 : Nat) (0 : Fin (4 : Nat))).acc),
                  tag := false, applied := false : PendStore }.slice) ∧
    (getTh sramHigh 0 0).pend.length < 16 :=
  join3 (by decide +kernel) ⟨⟨by decide +kernel, by decide +kernel, by decide +kernel⟩, by decide +kernel⟩

theorem witness_StoreToSharedSram_2 :
    slotOf sramFull (Cpu.core 0) = some 0 ∧
    szBytes 2 = some 4 ∧
    eaMode 0 = some (EaMode.ixd 0) ∧
    Ready sramFull (Cpu.core 0) 0 0 ∧
    capCheck (getTh sramFull 0 0).ddc (BitVec.toNat (eaOf (getTh sramFull 0 0) (EaMode.ixd 0))) 4 pSTORE = none ∧
    BitVec.toNat (eaOf (getTh sramFull 0 0) (EaMode.ixd 0)) % 4 = 0 ∧
    1073741824 ≤ BitVec.toNat (eaOf (getTh sramFull 0 0) (EaMode.ixd 0)) ∧
    BitVec.toNat (eaOf (getTh sramFull 0 0) (EaMode.ixd 0)) + 4 ≤ 1879048192 ∧
    (∀ (u : Fin (4 : Nat)),
      u ≠ (0 : Fin (4 : Nat)) →
        ∀ (q : PendStore),
          q ∈ (getTh sramFull (0 : Nat) u).pend →
            q.slice ≠
              {
                  slice :=
                    (BitVec.toNat
                          (eaOf (getTh sramFull (0 : Nat) (0 : Fin (4 : Nat)))
                            (EaMode.ixd (0 : BitVec (12 : Nat)))) -
                        (1073741824 : Nat)) /
                      (2097152 : Nat),
                  off :=
                    BitVec.toNat
                        (eaOf (getTh sramFull (0 : Nat) (0 : Fin (4 : Nat)))
                          (EaMode.ixd (0 : BitVec (12 : Nat)))) -
                      (1073741824 : Nat),
                  bytes := leBytes (4 : Nat) (BitVec.toNat (getTh sramFull (0 : Nat) (0 : Fin (4 : Nat))).acc),
                  tag := false, applied := false : PendStore }.slice) ∧
    16 ≤ (getTh sramFull 0 0).pend.length ∧
    (getCore sramFull 0).held = false ∧
    (getTh sramFull 0 0).pend =
      { slice := (BitVec.toNat (eaOf (getTh sramFull 0 0) (EaMode.ixd 0)) - 1073741824) / 2097152,
          off := BitVec.toNat (eaOf (getTh sramFull 0 0) (EaMode.ixd 0)) - 1073741824,
          bytes := leBytes 4 (BitVec.toNat (getTh sramFull 0 0).acc), tag := false, applied := false } ::
        List.replicate 15 { slice := 0, off := 0, bytes := [0, 0, 0, 0], tag := false, applied := false } :=
  join3 (by decide +kernel) ⟨⟨by decide +kernel, by decide +kernel, by decide +kernel⟩, by decide +kernel⟩

theorem witness_SliceScrub :
    dark poisoned = false :=
  by decide +kernel

theorem witness_CapabilityCheckOrder_1 :
    capUntagged.tag = false :=
  by decide +kernel

theorem witness_CapabilityCheckOrder_2 :
    capSealed.tag = true ∧
    capSealed.otype ≠ 0 :=
  by decide +kernel

theorem witness_CapabilityCheckOrder_3 :
    capNoLoad.tag = true ∧
    capNoLoad.otype = 0 ∧
    capNoLoad.perms &&& 1 ≠ 1 :=
  by decide +kernel

theorem witness_CapabilityCheckOrder_4 :
    capEight.tag = true ∧
    capEight.otype = 0 ∧
    capEight.perms &&& 1 = 1 ∧
    (¬(BitVec.toNat capEight.base ≤ 5 ∧ 5 + 4 ≤ BitVec.toNat capEight.base + BitVec.toNat capEight.length)) :=
  by decide +kernel

theorem witness_CapabilityCheckOrder_5 :
    capEight.tag = true ∧
    capEight.otype = 0 ∧
    capEight.perms &&& 1 = 1 ∧
    (BitVec.toNat capEight.base ≤ 4 ∧ 4 + 4 ≤ BitVec.toNat capEight.base + BitVec.toNat capEight.length) :=
  by decide +kernel

/-! ### Control, capabilities and traps -/

/-- A sealed pair of code and data with one otype. -/
def gatedCode : Cap := { codeCap with cursor := 0x200 }
def gatedData : Cap := dataCap
def dataCap0 : Cap := { dataCap with otype := 0 }
def kNull : Cap := ⟨true, 7, 1, 16, 0x0060, 0⟩
/-- C1 holds sealed code, C2 sealed data, C3 an authority over otype 7; one gate link, and gate 0 filled. -/
def gateSt : State := oneCore { run with c1 := gatedCode, c2 := gatedData, c3 := kNull, c4 := dataCap0, glink := [(codeCap, dataCap)], acc := 8 } fun c =>
  { c with gates := tset gateDefault c.gates 0 (some (gatedCode, gatedData)) }
/-- C1 covers the last granules of local memory below the frames. -/
def capSt : State := one { run with c1 := ⟨true, 0x7EFF0, 0x7E000, 0x1000, 0x001B, 0⟩, c2 := codeCap, acc := 0x12345678 }
/-- Thread 1 of core 0 with a save frame, at the end of SFC. -/
def trap0 : State := oneCore { run with sfc := { frames with cursor := 0x60480 }, rs := [1], glink := [(codeCap, dataCap)] } fun c =>
  { c with gates := tset gateDefault c.gates 0 (some (gatedCode, gatedData)) }
def trap1 : State := mach 1 { run with sfc := frames, flags := 0x0100011F }
def escSt : State := oneCore { run with st := .escalation } fun c => { c with escActive := true }
def fullStack : State := one { run with rs := List.replicate 16 4 }
def closing : State := mach 1 { run with closeEnd := some 5 }
def evSet : State := one { run with ev := true }
def waking : State := withCsrs (one { run with st := .waiting, wait := some .event }) [(0x1050, 0x10), (0x1074, 0)]
def stopped : State := mach 1 { run with st := .stoppedFault }
def fresh1 : State := mach 0 Thread.reset
def slotTable : State := oneCore run fun c => { c with slotPend := [(0x1100, 5), (0x1100, 6)] }
def splitSt : State := modCore capSt 0 fun c => { c with mem := { c.mem with split := [(0x7EFF, true)] } }

theorem witness_CapabilityDerivation_1 :
    Ready gateSt (Cpu.core 0) 0 0 ∧
    (capReg (getTh gateSt 0 0) 3).tag = true ∧
    (capReg (getTh gateSt 0 0) 3).otype = 0 ∧
    BitVec.toNat (capReg (getTh gateSt 0 0) 3).base ≤ BitVec.toNat (capReg (getTh gateSt 0 0) 3).cursor ∧
    BitVec.toNat (capReg (getTh gateSt 0 0) 3).cursor + BitVec.toNat (getTh gateSt 0 0).acc ≤
      BitVec.toNat (capReg (getTh gateSt 0 0) 3).base + BitVec.toNat (capReg (getTh gateSt 0 0) 3).length ∧
    ((capReg (getTh gateSt 0 0) 2).tag = true ∧
      (capReg (getTh gateSt 0 0) 2).otype = 0 ∧
        (capReg (getTh gateSt 0 0) 2).perms &&& 32 = 32 ∧
          BitVec.toNat (capReg (getTh gateSt 0 0) 2).base ≤ BitVec.toNat (capReg (getTh gateSt 0 0) 2).cursor ∧
            BitVec.toNat (capReg (getTh gateSt 0 0) 2).cursor + 1 ≤
                BitVec.toNat (capReg (getTh gateSt 0 0) 2).base +
                  BitVec.toNat (capReg (getTh gateSt 0 0) 2).length ∧
              1 ≤ BitVec.toNat (capReg (getTh gateSt 0 0) 2).cursor ∧
                BitVec.toNat (capReg (getTh gateSt 0 0) 2).cursor ≤ 4095) :=
  ⟨⟨by decide +kernel, by decide +kernel, by decide +kernel⟩, by decide +kernel⟩

theorem witness_CapabilityDerivation_2 :
    Ready gateSt (Cpu.core 0) 0 0 ∧
    (capReg (getTh gateSt 0 0) 0).tag = true ∧
    (capReg (getTh gateSt 0 0) 0).otype ≠ 0 ∧
    BitVec.setWidth 32 (capReg (getTh gateSt 0 0) 0).otype = (capReg (getTh gateSt 0 0) 2).cursor ∧
    ((capReg (getTh gateSt 0 0) 2).tag = true ∧
      (capReg (getTh gateSt 0 0) 2).otype = 0 ∧
        (capReg (getTh gateSt 0 0) 2).perms &&& 64 = 64 ∧
          BitVec.toNat (capReg (getTh gateSt 0 0) 2).base ≤ BitVec.toNat (capReg (getTh gateSt 0 0) 2).cursor ∧
            BitVec.toNat (capReg (getTh gateSt 0 0) 2).cursor + 1 ≤
                BitVec.toNat (capReg (getTh gateSt 0 0) 2).base +
                  BitVec.toNat (capReg (getTh gateSt 0 0) 2).length ∧
              1 ≤ BitVec.toNat (capReg (getTh gateSt 0 0) 2).cursor ∧
                BitVec.toNat (capReg (getTh gateSt 0 0) 2).cursor ≤ 4095) :=
  ⟨⟨by decide +kernel, by decide +kernel, by decide +kernel⟩, by decide +kernel⟩

theorem witness_CapabilityRead :
    Ready gateSt (Cpu.core 0) 0 0 ∧
    ((0, 0) ∈
      [(0#3, (capReg (getTh gateSt 0 0) 6).cursor), (1#3, (capReg (getTh gateSt 0 0) 6).base),
        (2#3, (capReg (getTh gateSt 0 0) 6).length),
        (3#3, BitVec.setWidth 32 (capReg (getTh gateSt 0 0) 6).perms),
        (4#3, BitVec.setWidth 32 (capReg (getTh gateSt 0 0) 6).otype),
        (5#3, if (capReg (getTh gateSt 0 0) 6).tag = true then 1 else 0)]) :=
  ⟨⟨by decide +kernel, by decide +kernel, by decide +kernel⟩, by decide +kernel⟩

theorem witness_Gates_1 :
    Ready gateSt (Cpu.core 0) 0 0 ∧
    (capReg (getTh gateSt 0 0) 0).tag = true ∧
    (capReg (getTh gateSt 0 0) 1).tag = true ∧
    (capReg (getTh gateSt 0 0) 0).otype ≠ 0 ∧
    (capReg (getTh gateSt 0 0) 1).otype = (capReg (getTh gateSt 0 0) 0).otype ∧
    (capReg (getTh gateSt 0 0) 0).perms &&& 132 = 132 ∧
    BitVec.toNat (capReg (getTh gateSt 0 0) 0).base ≤ BitVec.toNat (capReg (getTh gateSt 0 0) 0).cursor ∧
    BitVec.toNat (capReg (getTh gateSt 0 0) 0).cursor + 4 ≤
      BitVec.toNat (capReg (getTh gateSt 0 0) 0).base + BitVec.toNat (capReg (getTh gateSt 0 0) 0).length ∧
    BitVec.toNat (capReg (getTh gateSt 0 0) 0).cursor % 4 = 0 ∧
    fetchable gateSt 0 (BitVec.toNat (capReg (getTh gateSt 0 0) 0).cursor) = true ∧
    BitVec.getLsbD (csrGet (getCore gateSt 0) 8212) 7 = false ∧
    (getTh gateSt 0 0).glink = [] ++ [(codeCap, dataCap)] :=
  ⟨⟨by decide +kernel, by decide +kernel, by decide +kernel⟩, by decide +kernel⟩

theorem witness_Gates_2 :
    Ready gateSt (Cpu.core 0) 0 0 ∧
    (capReg (getTh gateSt 0 0) 0).tag = true ∧
    (capReg (getTh gateSt 0 0) 1).tag = true ∧
    (capReg (getTh gateSt 0 0) 0).otype ≠ 0 ∧
    (capReg (getTh gateSt 0 0) 1).otype = (capReg (getTh gateSt 0 0) 0).otype ∧
    (capReg (getTh gateSt 0 0) 0).perms &&& 132 = 132 ∧
    BitVec.toNat (capReg (getTh gateSt 0 0) 0).base ≤ BitVec.toNat (capReg (getTh gateSt 0 0) 0).cursor ∧
    BitVec.toNat (capReg (getTh gateSt 0 0) 0).cursor + 4 ≤
      BitVec.toNat (capReg (getTh gateSt 0 0) 0).base + BitVec.toNat (capReg (getTh gateSt 0 0) 0).length ∧
    BitVec.toNat (capReg (getTh gateSt 0 0) 0).cursor % 4 = 0 ∧
    fetchable gateSt 0 (BitVec.toNat (capReg (getTh gateSt 0 0) 0).cursor) = true ∧
    BitVec.getLsbD (csrGet (getCore gateSt 0) 8212) 0 = false ∧
    gateGet (getCore gateSt 0) 0 = some (gatedCode, gatedData) ∧
    (getTh gateSt 0 0).glink.length < 4 :=
  ⟨⟨by decide +kernel, by decide +kernel, by decide +kernel⟩, by decide +kernel⟩

theorem witness_AccessThroughCapability :
    Ready capSt (Cpu.core 0) 0 0 ∧
    szBytes 2 = some 4 ∧
    LocalAccess (0 : Nat) (capReg (getTh capSt (0 : Nat) (0 : Fin (4 : Nat))) (0 : BitVec (3 : Nat)))
      (BitVec.toNat
        ((capReg (getTh capSt (0 : Nat) (0 : Fin (4 : Nat))) (0 : BitVec (3 : Nat))).cursor +
          BitVec.signExtend (32 : Nat) (0 : BitVec (12 : Nat))))
      (4 : Nat) pLOAD ∧
    Clean (getCore capSt (0 : Nat)).mem
      (BitVec.toNat
        ((capReg (getTh capSt (0 : Nat) (0 : Fin (4 : Nat))) (0 : BitVec (3 : Nat))).cursor +
          BitVec.signExtend (32 : Nat) (0 : BitVec (12 : Nat))))
      (4 : Nat) ∧
    tileHolds capSt (0 : Nat)
        (BitVec.toNat
          ((capReg (getTh capSt (0 : Nat) (0 : Fin (4 : Nat))) (0 : BitVec (3 : Nat))).cursor +
            BitVec.signExtend (32 : Nat) (0 : BitVec (12 : Nat))))
        (4 : Nat) false =
      false ∧
    LocalAccess (0 : Nat) (capReg (getTh capSt (0 : Nat) (0 : Fin (4 : Nat))) (0 : BitVec (3 : Nat)))
      (BitVec.toNat
        ((capReg (getTh capSt (0 : Nat) (0 : Fin (4 : Nat))) (0 : BitVec (3 : Nat))).cursor +
          BitVec.signExtend (32 : Nat) (0 : BitVec (12 : Nat))))
      (4 : Nat) pSTORE ∧
    tileHolds capSt (0 : Nat)
        (BitVec.toNat
          ((capReg (getTh capSt (0 : Nat) (0 : Fin (4 : Nat))) (0 : BitVec (3 : Nat))).cursor +
            BitVec.signExtend (32 : Nat) (0 : BitVec (12 : Nat))))
        (4 : Nat) true =
      false ∧
    LocalAccess (0 : Nat) (capReg (getTh capSt (0 : Nat) (0 : Fin (4 : Nat))) (0 : BitVec (3 : Nat)))
      (BitVec.toNat
        ((capReg (getTh capSt (0 : Nat) (0 : Fin (4 : Nat))) (0 : BitVec (3 : Nat))).cursor +
          BitVec.signExtend (32 : Nat) (0 : BitVec (12 : Nat))))
      (16 : Nat) (pLOAD ||| pLOADCAP) ∧
    Clean (getCore capSt (0 : Nat)).mem
      (BitVec.toNat
        ((capReg (getTh capSt (0 : Nat) (0 : Fin (4 : Nat))) (0 : BitVec (3 : Nat))).cursor +
          BitVec.signExtend (32 : Nat) (0 : BitVec (12 : Nat))))
      (16 : Nat) ∧
    memSplit (getCore capSt (0 : Nat)).mem
        (BitVec.toNat
            ((capReg (getTh capSt (0 : Nat) (0 : Fin (4 : Nat))) (0 : BitVec (3 : Nat))).cursor +
              BitVec.signExtend (32 : Nat) (0 : BitVec (12 : Nat))) /
          (16 : Nat)) =
      false ∧
    tileHolds capSt (0 : Nat)
        (BitVec.toNat
          ((capReg (getTh capSt (0 : Nat) (0 : Fin (4 : Nat))) (0 : BitVec (3 : Nat))).cursor +
            BitVec.signExtend (32 : Nat) (0 : BitVec (12 : Nat))))
        (16 : Nat) false =
      false ∧
    LocalAccess (0 : Nat) (capReg (getTh capSt (0 : Nat) (0 : Fin (4 : Nat))) (0 : BitVec (3 : Nat)))
      (BitVec.toNat
        ((capReg (getTh capSt (0 : Nat) (0 : Fin (4 : Nat))) (0 : BitVec (3 : Nat))).cursor +
          BitVec.signExtend (32 : Nat) (0 : BitVec (12 : Nat))))
      (16 : Nat) (pSTORE ||| pSTORECAP) ∧
    tileHolds capSt (0 : Nat)
        (BitVec.toNat
          ((capReg (getTh capSt (0 : Nat) (0 : Fin (4 : Nat))) (0 : BitVec (3 : Nat))).cursor +
            BitVec.signExtend (32 : Nat) (0 : BitVec (12 : Nat))))
        (16 : Nat) true =
      false :=
  ⟨⟨by decide +kernel, by decide +kernel, by decide +kernel⟩, by decide +kernel, ⟨by decide +kernel,
    by decide +kernel, by decide +kernel, by decide +kernel⟩, by unfold Clean; decide +kernel, by decide +kernel,
    ⟨by decide +kernel, by decide +kernel, by decide +kernel, by decide +kernel⟩, by decide +kernel,
    ⟨by decide +kernel, by decide +kernel, by decide +kernel, by decide +kernel⟩, by unfold Clean; decide +kernel,
    join2 (by decide +kernel) ⟨⟨by decide +kernel, by decide +kernel, by decide +kernel, by decide +kernel⟩,
    by decide +kernel⟩⟩

theorem witness_TagCopies :
    Ready splitSt (Cpu.core 0) 0 0 ∧
    LocalAccess (0 : Nat) (capReg (getTh splitSt (0 : Nat) (0 : Fin (4 : Nat))) (0 : BitVec (3 : Nat)))
      (BitVec.toNat
        ((capReg (getTh splitSt (0 : Nat) (0 : Fin (4 : Nat))) (0 : BitVec (3 : Nat))).cursor +
          BitVec.signExtend (32 : Nat) (0 : BitVec (12 : Nat))))
      (16 : Nat) (pLOAD ||| pLOADCAP) ∧
    Clean (getCore splitSt (0 : Nat)).mem
      (BitVec.toNat
        ((capReg (getTh splitSt (0 : Nat) (0 : Fin (4 : Nat))) (0 : BitVec (3 : Nat))).cursor +
          BitVec.signExtend (32 : Nat) (0 : BitVec (12 : Nat))))
      (16 : Nat) ∧
    memSplit (getCore splitSt (0 : Nat)).mem
        (BitVec.toNat
            ((capReg (getTh splitSt (0 : Nat) (0 : Fin (4 : Nat))) (0 : BitVec (3 : Nat))).cursor +
              BitVec.signExtend (32 : Nat) (0 : BitVec (12 : Nat))) /
          (16 : Nat)) =
      true ∧
    tileHolds splitSt (0 : Nat)
        (BitVec.toNat
          ((capReg (getTh splitSt (0 : Nat) (0 : Fin (4 : Nat))) (0 : BitVec (3 : Nat))).cursor +
            BitVec.signExtend (32 : Nat) (0 : BitVec (12 : Nat))))
        (16 : Nat) false =
      false ∧
    (List.replicate 16 5).length = 16 ∧
    0 % 16 = 0 :=
  ⟨⟨by decide +kernel, by decide +kernel, by decide +kernel⟩, ⟨by decide +kernel, by decide +kernel,
    by decide +kernel, by decide +kernel⟩, by unfold Clean; decide +kernel, by decide +kernel⟩

theorem witness_ClosuresAndFences :
    Ready m0 (Cpu.core 0) 0 0 ∧
    (getTh m0 0 0).pcc.perms &&& 256 = 256 ∧
    1 ≤ BitVec.toNat (csrGet (getCore m0 0) 8208) ∧
    (getTh m0 0 0).closeEnd = none ∧
    5 < 6 ∧
    (5 < 2 ∨ (getTh m0 0 0).pend = []) :=
  ⟨⟨by decide +kernel, by decide +kernel, by decide +kernel⟩, by decide +kernel⟩

theorem witness_ClosureEnds :
    slotOf closing (Cpu.core 0) = some 0 ∧
    (getCore closing 0).held = false ∧
    (getTh closing 0 1).closeEnd = some 5 ∧
    (getTh closing 0 1).stopReq = false ∧
    (getCore closing 0).notes = [] ∧
    streamFaultFor (getCore closing 0) 1 = none ∧
    1 ≠ handlerOf (getCore closing 0) :=
  by decide +kernel

theorem witness_FaultEntry_1 :
    slotOf trap0 (Cpu.core 0) = some 0 ∧
    canTrap trap0 0 0 = true ∧
    (getTh trap0 0 0).st = TState.running ∧
    (getCore trap0 0).escActive = false ∧
    (10 ∈ faultCodes) ∧
    FrameRoom (getTh trap0 0 0).sfc (BitVec.toNat (getTh trap0 0 0).sfc.cursor) ∧
    (∀ (m : FrameMove), m ∈ (getCore trap0 0).frames → m.last ≤ clockOf trap0 0) ∧
    (decide (0 = superOf trap0 0) || BitVec.getLsbD (csrGet (getCore trap0 0) (8192 + 4 * 0)) 8) = true ∧
    gateGet (getCore trap0 0) (BitVec.extractLsb' 0 3 (csrGet (getCore trap0 0) (8192 + 4 * 0))).toNat =
      some (gatedCode, gatedData) :=
  join5 (by decide +kernel) ⟨⟨by decide +kernel, by decide +kernel, by decide +kernel, by decide +kernel,
    by decide +kernel, by decide +kernel, by decide +kernel⟩, by decide +kernel⟩

theorem witness_FaultEntry_2 :
    slotOf trap1 (Cpu.core 0) = some 0 ∧
    canTrap trap1 0 1 = true ∧
    (getTh trap1 0 1).st = TState.running ∧
    (getCore trap1 0).escActive = false ∧
    (10 ∈ faultCodes) ∧
    FrameRoom (getTh trap1 0 1).sfc (BitVec.toNat (getTh trap1 0 1).sfc.cursor) ∧
    (∀ (m : FrameMove), m ∈ (getCore trap1 0).frames → m.last ≤ clockOf trap1 0) ∧
    (decide (1 = superOf trap1 0) || BitVec.getLsbD (csrGet (getCore trap1 0) (8192 + 4 * 1)) 8) = false :=
  join5 (by decide +kernel) ⟨⟨by decide +kernel, by decide +kernel, by decide +kernel, by decide +kernel,
    by decide +kernel, by decide +kernel, by decide +kernel⟩, by decide +kernel⟩

theorem witness_ExceptionReturn :
    Ready trap0 (Cpu.core 0) 0 0 ∧
    (getTh trap0 0 0).st = TState.running ∧
    FrameRoom (getTh trap0 0 0).sfc (BitVec.toNat ((getTh trap0 0 0).sfc.cursor - 384)) ∧
    Clean (getCore trap0 0).mem (BitVec.toNat ((getTh trap0 0 0).sfc.cursor - 384)) 384 :=
  ⟨⟨by decide +kernel, by decide +kernel, by decide +kernel⟩, by decide +kernel, ⟨by decide +kernel,
    by decide +kernel, by decide +kernel, by decide +kernel, by decide +kernel, by decide +kernel,
    by decide +kernel⟩, by unfold Clean; decide +kernel⟩

theorem witness_FaultThenResume :
    slotOf trap1 (Cpu.core 0) = some 0 ∧
    canTrap trap1 0 1 = true ∧
    (getTh trap1 0 1).st = TState.running ∧
    (getCore trap1 0).escActive = false ∧
    (10 ∈ faultCodes) ∧
    1 ≠ superOf trap1 0 ∧
    BitVec.getLsbD (csrGet (getCore trap1 0) (8192 + 4 * 1)) 8 = false ∧
    FrameRoom (getTh trap1 0 1).sfc (BitVec.toNat (getTh trap1 0 1).sfc.cursor) ∧
    (getTh trap1 0 1).rs.length ≤ 16 ∧
    (getTh trap1 0 1).glink.length ≤ 4 ∧
    (getTh trap1 0 1).flags &&& 16777503 = (getTh trap1 0 1).flags :=
  join5 (by decide +kernel) (join2 (by decide +kernel) ⟨⟨by decide +kernel, by decide +kernel, by decide +kernel,
    by decide +kernel, by decide +kernel, by decide +kernel, by decide +kernel⟩, by decide +kernel⟩)

theorem witness_EscalationEntry_1 :
    slotOf trap0 (Cpu.core 0) = some 0 ∧
    canTrap trap0 0 0 = true ∧
    (getTh trap0 0 0).st = TState.running ∧
    (getCore trap0 0).escActive = false ∧
    (11 = 11 ∨ 11 = 9) :=
  by decide +kernel

theorem witness_EscalationEntry_2 :
    slotOf trap0 (Cpu.core 0) = some 0 ∧
    canTrap trap0 0 0 = true ∧
    (getTh trap0 0 0).st = TState.running ∧
    (getCore trap0 0).escActive = false ∧
    (9 = 11 ∨ 9 = 9) :=
  by decide +kernel

theorem witness_EscalationReturn :
    Ready escSt (Cpu.core 0) 0 0 ∧
    (getTh escSt 0 0).st = TState.escalation ∧
    Clean (getCore escSt 0).mem 523904 384 :=
  ⟨⟨by decide +kernel, by decide +kernel, by decide +kernel⟩, by decide +kernel, by unfold Clean; decide +kernel⟩

theorem witness_InstructionFaults_1 :
    Ready escSt (Cpu.core 0) 0 0 ∧
    (getTh escSt 0 0).rs = [] ∧
    (getTh escSt 0 0).glink = [] ∧
    (getTh escSt 0 0).st = TState.escalation :=
  ⟨⟨by decide +kernel, by decide +kernel, by decide +kernel⟩, by decide +kernel⟩

theorem witness_InstructionFaults_2 :
    Ready fullStack (Cpu.core 0) 0 0 ∧
    16 ≤ (getTh fullStack 0 0).rs.length ∧
    rsWrap fullStack 0 0 = false ∧
    (getTh fullStack 0 0).glink = [] ∧
    (getTh fullStack 0 0).st = TState.running :=
  ⟨⟨by decide +kernel, by decide +kernel, by decide +kernel⟩, by decide +kernel⟩

theorem witness_EventsAndWaiting_1 :
    Ready evSet (Cpu.core 0) 0 0 ∧
    (getTh evSet 0 0).ev = true ∧
    slotOf evSet (Cpu.core 0) = some 0 ∧
    (getCore evSet 0).held = false :=
  ⟨⟨by decide +kernel, by decide +kernel, by decide +kernel⟩, by decide +kernel⟩

theorem witness_EventsAndWaiting_2 :
    slotOf waking (Cpu.core 0) = some 0 ∧
    (getCore waking 0).held = false :=
  by decide +kernel

theorem witness_EventsAndWaiting_3 :
    Ready m0 (Cpu.core 0) 0 0 ∧
    (getTh m0 0 0).ev = false ∧
    slotOf m0 (Cpu.core 0) = some 0 ∧
    (getCore m0 0).held = false :=
  ⟨⟨by decide +kernel, by decide +kernel, by decide +kernel⟩, by decide +kernel⟩

theorem witness_ThreadStart_1 :
    slotOf stopped (Cpu.core 0) = some 0 ∧
    (getCore stopped 0).held = false ∧
    ((getTh stopped 0 1).st = TState.notRunning ∨ (getTh stopped 0 1).st = TState.stoppedFault) :=
  by decide +kernel

theorem witness_ThreadStart_2 :
    slotOf fresh1 (Cpu.core 0) = some 0 ∧
    (getCore fresh1 0).held = false ∧
    ((getTh fresh1 0 0).st = TState.notRunning ∨ (getTh fresh1 0 0).st = TState.stoppedFault) :=
  by decide +kernel

theorem witness_SlotTableTakesEffect :
    slotOf slotTable (Cpu.core 0) = some 0 ∧
    (getCore slotTable 0).held = false :=
  by decide +kernel

/-! ### Threads and debug -/

/-- Thread 0 runs with every permission in PCC. -/
def full : Thread := { run with pcc := { run.pcc with perms := 0xFF8D } }
def orphan : State := one { run with st := .waiting, wait := some .event }
def orphanAgain : State := modCore orphan 0 fun c => { c with orphanRaised := true }
/-- A notification waits for the supervisor, which waits in WFE with a full save area but one frame. -/
def notify : State := oneCore { run with st := .waiting, wait := some .event, sfc := { frames with cursor := 0x60480 } } fun c =>
  { c with notes := [.stopped 1 0x0A 0x1000 0], gates := tset gateDefault c.gates 0 (some (codeCap, dataCap)) }
def stopAsked : State := mach 1 { run with stopReq := true }
def stopWaits : State := mach 1 { run with st := .waiting, wait := some .event }
/-- Another thread is in ESCALATION, which holds the stop of a thread that waits. -/
def stopHolds : State := modCore stopWaits 0 fun c => { c with escActive := true }
def stoppedDbg : State := mach 1 { run with st := .stoppedDebug }
def dbgAt (t : Nat) (th : Thread) (k : Nat) : State :=
  withCsrs (mach (Fin.ofNat 4 t) th) [(0x9008, BitVec.ofNat 32 (65536 * t + k))]
def dbgRunning : State := dbgAt 1 run 5
def dbgStopped : State := dbgAt 1 { run with st := .stoppedFault } 5
def jtagged : State := modCore dbgStopped 0 fun c => { c with jtag := true }
def chan (lo hi : Word) : State :=
  withCsrs (devs (mach 1 { full with staged := [1, 2, 3, 0xA] }) [(0x70000, 5)]) [(0x71F8, lo), (0x71FC, hi)]
/-- Entry 31 of core 0 leads to queue 3 of core 1 of this device, with all its credit. -/
def chanOpen : State := modCore (chan 0x00050001 0x80300000) 0 fun c => { c with credit := tset creditDefault c.credit 31 16 }
def chanInvalid : State := chan 0 0
def chanClosed : State := modCore chanOpen 0 fun c => { c with chClosed := tset closedDefault c.chClosed 31 true }
def chanSpent : State := modCore chanOpen 0 fun c => { c with credit := tset creditDefault c.credit 31 0 }
def staged3 : State := mach 1 { full with staged := [1, 2, 3] }
def flagUp : State := modCore (mach 1 full) 0 fun c => { c with flags := tset flagDefault c.flags 63 254 }
def flagZero : State := mach 1 full
def flagTop : State := modCore (mach 1 full) 0 fun c => { c with flags := tset flagDefault c.flags 63 255 }

theorem witness_OrphanWait_1 :
    slotOf orphan (Cpu.core 0) = some 0 ∧
    (getCore orphan 0).held = false ∧
    orphaned orphan 0 = true ∧
    (getCore orphan 0).orphanRaised = false :=
  by decide +kernel

theorem witness_OrphanWait_2 :
    slotOf orphanAgain (Cpu.core 0) = some 0 ∧
    (getCore orphanAgain 0).held = false ∧
    orphaned orphanAgain 0 = true ∧
    (getCore orphanAgain 0).orphanRaised = true :=
  by decide +kernel

theorem witness_NotificationDelivery :
    slotOf notify (Cpu.core 0) = some 0 ∧
    (getCore notify 0).held = false ∧
    (getCore notify 0).notes = [Note.stopped 1 10 4096 0] ∧
    notifiable notify 0 = true ∧
    tileBeforeCommit notify 0 (superOf notify 0) = none ∧
    FrameRoom (getTh notify 0 (superOf notify 0)).sfc
      (BitVec.toNat (getTh notify 0 (superOf notify 0)).sfc.cursor) ∧
    gateGet (getCore notify 0)
        (BitVec.extractLsb' 0 3 (csrGet (getCore notify 0) (8192 + 4 * ↑(superOf notify 0)))).toNat =
      some (codeCap, dataCap) :=
  join5 (by decide +kernel) ⟨⟨by decide +kernel, by decide +kernel, by decide +kernel, by decide +kernel,
    by decide +kernel, by decide +kernel, by decide +kernel⟩, by decide +kernel⟩

theorem witness_DebugControl_1 :
    slotOf stopAsked (Cpu.core 0) = some 0 ∧
    (getCore stopAsked 0).held = false ∧
    ((getTh stopAsked 0 1).st = TState.running ∨ (getTh stopAsked 0 1).st = TState.escalation) ∧
    stopDue stopAsked 0 1 = true ∧
    tileBeforeCommit stopAsked 0 1 = none ∧
    (∀ (u : Fin 4), (getTh stopAsked 0 u).st ≠ TState.waiting) :=
  by decide +kernel

theorem witness_DebugControl_2 :
    slotOf stopWaits (Cpu.core 0) = some 0 ∧
    (getCore stopWaits 0).held = false ∧
    (getTh stopWaits 0 1).st = TState.waiting ∧
    stopDue
        (modTh (reached stopWaits 0) 0 1 fun th =>
          { acc := th.acc, acg := th.acg, ix := th.ix, iy := th.iy, flags := th.flags, pc := th.pc, rs := th.rs,
            pcc := th.pcc, ddc := th.ddc, c1 := th.c1, c2 := th.c2, c3 := th.c3, c4 := th.c4, c5 := th.c5,
            c6 := th.c6, sfc := th.sfc, glink := th.glink, closeEnd := th.closeEnd, st := th.st, ev := th.ev,
            cause := th.cause, wait := th.wait, waitFrom := th.waitFrom, block := th.block, staged := th.staged,
            recvd := th.recvd, stopReq := true, stepping := false, kept := th.kept, pend := th.pend })
        0 1 =
      true ∧
    tileBeforeCommit
        (modTh (reached stopWaits 0) 0 1 fun th =>
          { acc := th.acc, acg := th.acg, ix := th.ix, iy := th.iy, flags := th.flags, pc := th.pc, rs := th.rs,
            pcc := th.pcc, ddc := th.ddc, c1 := th.c1, c2 := th.c2, c3 := th.c3, c4 := th.c4, c5 := th.c5,
            c6 := th.c6, sfc := th.sfc, glink := th.glink, closeEnd := th.closeEnd, st := th.st, ev := th.ev,
            cause := th.cause, wait := th.wait, waitFrom := th.waitFrom, block := th.block, staged := th.staged,
            recvd := th.recvd, stopReq := true, stepping := false, kept := th.kept, pend := th.pend })
        0 1 =
      none :=
  by decide +kernel

theorem witness_DebugControl_3 :
    slotOf stopHolds (Cpu.core 0) = some 0 ∧
    (getCore stopHolds 0).held = false ∧
    (getTh stopHolds 0 1).st = TState.waiting ∧
    stopDue
        (modTh (reached stopHolds 0) 0 1 fun th =>
          { acc := th.acc, acg := th.acg, ix := th.ix, iy := th.iy, flags := th.flags, pc := th.pc, rs := th.rs,
            pcc := th.pcc, ddc := th.ddc, c1 := th.c1, c2 := th.c2, c3 := th.c3, c4 := th.c4, c5 := th.c5,
            c6 := th.c6, sfc := th.sfc, glink := th.glink, closeEnd := th.closeEnd, st := th.st, ev := th.ev,
            cause := th.cause, wait := th.wait, waitFrom := th.waitFrom, block := th.block, staged := th.staged,
            recvd := th.recvd, stopReq := true, stepping := false, kept := th.kept, pend := th.pend })
        0 1 =
      false :=
  by decide +kernel

theorem witness_DebugControl_4 :
    slotOf stoppedDbg (Cpu.core 0) = some 0 ∧
    (getCore stoppedDbg 0).held = false ∧
    ((getTh stoppedDbg 0 1).st = TState.notRunning ∨
      (getTh stoppedDbg 0 1).st = TState.stoppedFault ∨
        (getTh stoppedDbg 0 1).st = TState.stoppedDebug ∨ (getTh stoppedDbg 0 1).st = TState.halted) ∧
    (getTh stoppedDbg 0 1).st = TState.stoppedDebug ∧
    (∀ (u : Fin 4), (getTh stoppedDbg 0 u).st ≠ TState.waiting) :=
  by decide +kernel

theorem witness_DebugData_1 :
    slotOf dbgRunning (Cpu.core 0) = some 0 ∧
    (getCore dbgRunning 0).held = false ∧
    dark dbgRunning = false ∧
    (getCore dbgRunning 0).jtag = false ∧
    (((5 : Nat), (256 : Word),
        let __src := run;
        { acc := __src.acc, acg := __src.acg, ix := __src.ix, iy := __src.iy, flags := __src.flags,
          pc := (7 : Word), rs := __src.rs, pcc := __src.pcc, ddc := __src.ddc, c1 := __src.c1, c2 := __src.c2,
          c3 := __src.c3, c4 := __src.c4, c5 := __src.c5, c6 := __src.c6, sfc := __src.sfc, glink := __src.glink,
          closeEnd := __src.closeEnd, st := __src.st, ev := __src.ev, cause := __src.cause, wait := __src.wait,
          waitFrom := __src.waitFrom, block := __src.block, staged := __src.staged, recvd := __src.recvd,
          stopReq := __src.stopReq, stepping := __src.stepping, kept := __src.kept, pend := __src.pend :
          Thread }) ∈
      [((0 : Nat), (getTh dbgRunning (0 : Nat) (1 : Fin (4 : Nat))).acc,
          { acc := (7 : Word), acg := (getTh dbgRunning (0 : Nat) (1 : Fin (4 : Nat))).acg,
            ix := (getTh dbgRunning (0 : Nat) (1 : Fin (4 : Nat))).ix,
            iy := (getTh dbgRunning (0 : Nat) (1 : Fin (4 : Nat))).iy,
            flags := (getTh dbgRunning (0 : Nat) (1 : Fin (4 : Nat))).flags,
            pc := (getTh dbgRunning (0 : Nat) (1 : Fin (4 : Nat))).pc,
            rs := (getTh dbgRunning (0 : Nat) (1 : Fin (4 : Nat))).rs,
            pcc := (getTh dbgRunning (0 : Nat) (1 : Fin (4 : Nat))).pcc,
            ddc := (getTh dbgRunning (0 : Nat) (1 : Fin (4 : Nat))).ddc,
            c1 := (getTh dbgRunning (0 : Nat) (1 : Fin (4 : Nat))).c1,
            c2 := (getTh dbgRunning (0 : Nat) (1 : Fin (4 : Nat))).c2,
            c3 := (getTh dbgRunning (0 : Nat) (1 : Fin (4 : Nat))).c3,
            c4 := (getTh dbgRunning (0 : Nat) (1 : Fin (4 : Nat))).c4,
            c5 := (getTh dbgRunning (0 : Nat) (1 : Fin (4 : Nat))).c5,
            c6 := (getTh dbgRunning (0 : Nat) (1 : Fin (4 : Nat))).c6,
            sfc := (getTh dbgRunning (0 : Nat) (1 : Fin (4 : Nat))).sfc,
            glink := (getTh dbgRunning (0 : Nat) (1 : Fin (4 : Nat))).glink,
            closeEnd := (getTh dbgRunning (0 : Nat) (1 : Fin (4 : Nat))).closeEnd,
            st := (getTh dbgRunning (0 : Nat) (1 : Fin (4 : Nat))).st,
            ev := (getTh dbgRunning (0 : Nat) (1 : Fin (4 : Nat))).ev,
            cause := (getTh dbgRunning (0 : Nat) (1 : Fin (4 : Nat))).cause,
            wait := (getTh dbgRunning (0 : Nat) (1 : Fin (4 : Nat))).wait,
            waitFrom := (getTh dbgRunning (0 : Nat) (1 : Fin (4 : Nat))).waitFrom,
            block := (getTh dbgRunning (0 : Nat) (1 : Fin (4 : Nat))).block,
            staged := (getTh dbgRunning (0 : Nat) (1 : Fin (4 : Nat))).staged,
            recvd := (getTh dbgRunning (0 : Nat) (1 : Fin (4 : Nat))).recvd,
            stopReq := (getTh dbgRunning (0 : Nat) (1 : Fin (4 : Nat))).stopReq,
            stepping := (getTh dbgRunning (0 : Nat) (1 : Fin (4 : Nat))).stepping,
            kept := (getTh dbgRunning (0 : Nat) (1 : Fin (4 : Nat))).kept,
            pend := (getTh dbgRunning (0 : Nat) (1 : Fin (4 : Nat))).pend : Thread }),
        ((1 : Nat), BitVec.setWidth (32 : Nat) (getTh dbgRunning (0 : Nat) (1 : Fin (4 : Nat))).acg,
          { acc := (getTh dbgRunning (0 : Nat) (1 : Fin (4 : Nat))).acc,
            acg := BitVec.setWidth (8 : Nat) (7 : Word),
            ix := (getTh dbgRunning (0 : Nat) (1 : Fin (4 : Nat))).ix,
            iy := (getTh dbgRunning (0 : Nat) (1 : Fin (4 : Nat))).iy,
            flags := (getTh dbgRunning (0 : Nat) (1 : Fin (4 : Nat))).flags,
            pc := (getTh dbgRunning (0 : Nat) (1 : Fin (4 : Nat))).pc,
            rs := (getTh dbgRunning (0 : Nat) (1 : Fin (4 : Nat))).rs,
            pcc := (getTh dbgRunning (0 : Nat) (1 : Fin (4 : Nat))).pcc,
            ddc := (getTh dbgRunning (0 : Nat) (1 : Fin (4 : Nat))).ddc,
            c1 := (getTh dbgRunning (0 : Nat) (1 : Fin (4 : Nat))).c1,
            c2 := (getTh dbgRunning (0 : Nat) (1 : Fin (4 : Nat))).c2,
            c3 := (getTh dbgRunning (0 : Nat) (1 : Fin (4 : Nat))).c3,
            c4 := (getTh dbgRunning (0 : Nat) (1 : Fin (4 : Nat))).c4,
            c5 := (getTh dbgRunning (0 : Nat) (1 : Fin (4 : Nat))).c5,
            c6 := (getTh dbgRunning (0 : Nat) (1 : Fin (4 : Nat))).c6,
            sfc := (getTh dbgRunning (0 : Nat) (1 : Fin (4 : Nat))).sfc,
            glink := (getTh dbgRunning (0 : Nat) (1 : Fin (4 : Nat))).glink,
            closeEnd := (getTh dbgRunning (0 : Nat) (1 : Fin (4 : Nat))).closeEnd,
            st := (getTh dbgRunning (0 : Nat) (1 : Fin (4 : Nat))).st,
            ev := (getTh dbgRunning (0 : Nat) (1 : Fin (4 : Nat))).ev,
            cause := (getTh dbgRunning (0 : Nat) (1 : Fin (4 : Nat))).cause,
            wait := (getTh dbgRunning (0 : Nat) (1 : Fin (4 : Nat))).wait,
            waitFrom := (getTh dbgRunning (0 : Nat) (1 : Fin (4 : Nat))).waitFrom,
            block := (getTh dbgRunning (0 : Nat) (1 : Fin (4 : Nat))).block,
            staged := (getTh dbgRunning (0 : Nat) (1 : Fin (4 : Nat))).staged,
            recvd := (getTh dbgRunning (0 : Nat) (1 : Fin (4 : Nat))).recvd,
            stopReq := (getTh dbgRunning (0 : Nat) (1 : Fin (4 : Nat))).stopReq,
            stepping := (getTh dbgRunning (0 : Nat) (1 : Fin (4 : Nat))).stepping,
            kept := (getTh dbgRunning (0 : Nat) (1 : Fin (4 : Nat))).kept,
            pend := (getTh dbgRunning (0 : Nat) (1 : Fin (4 : Nat))).pend : Thread }),
        ((2 : Nat), (getTh dbgRunning (0 : Nat) (1 : Fin (4 : Nat))).ix,
          { acc := (getTh dbgRunning (0 : Nat) (1 : Fin (4 : Nat))).acc,
            acg := (getTh dbgRunning (0 : Nat) (1 : Fin (4 : Nat))).acg, ix := (7 : Word),
            iy := (getTh dbgRunning (0 : Nat) (1 : Fin (4 : Nat))).iy,
            flags := (getTh dbgRunning (0 : Nat) (1 : Fin (4 : Nat))).flags,
            pc := (getTh dbgRunning (0 : Nat) (1 : Fin (4 : Nat))).pc,
            rs := (getTh dbgRunning (0 : Nat) (1 : Fin (4 : Nat))).rs,
            pcc := (getTh dbgRunning (0 : Nat) (1 : Fin (4 : Nat))).pcc,
            ddc := (getTh dbgRunning (0 : Nat) (1 : Fin (4 : Nat))).ddc,
            c1 := (getTh dbgRunning (0 : Nat) (1 : Fin (4 : Nat))).c1,
            c2 := (getTh dbgRunning (0 : Nat) (1 : Fin (4 : Nat))).c2,
            c3 := (getTh dbgRunning (0 : Nat) (1 : Fin (4 : Nat))).c3,
            c4 := (getTh dbgRunning (0 : Nat) (1 : Fin (4 : Nat))).c4,
            c5 := (getTh dbgRunning (0 : Nat) (1 : Fin (4 : Nat))).c5,
            c6 := (getTh dbgRunning (0 : Nat) (1 : Fin (4 : Nat))).c6,
            sfc := (getTh dbgRunning (0 : Nat) (1 : Fin (4 : Nat))).sfc,
            glink := (getTh dbgRunning (0 : Nat) (1 : Fin (4 : Nat))).glink,
            closeEnd := (getTh dbgRunning (0 : Nat) (1 : Fin (4 : Nat))).closeEnd,
            st := (getTh dbgRunning (0 : Nat) (1 : Fin (4 : Nat))).st,
            ev := (getTh dbgRunning (0 : Nat) (1 : Fin (4 : Nat))).ev,
            cause := (getTh dbgRunning (0 : Nat) (1 : Fin (4 : Nat))).cause,
            wait := (getTh dbgRunning (0 : Nat) (1 : Fin (4 : Nat))).wait,
            waitFrom := (getTh dbgRunning (0 : Nat) (1 : Fin (4 : Nat))).waitFrom,
            block := (getTh dbgRunning (0 : Nat) (1 : Fin (4 : Nat))).block,
            staged := (getTh dbgRunning (0 : Nat) (1 : Fin (4 : Nat))).staged,
            recvd := (getTh dbgRunning (0 : Nat) (1 : Fin (4 : Nat))).recvd,
            stopReq := (getTh dbgRunning (0 : Nat) (1 : Fin (4 : Nat))).stopReq,
            stepping := (getTh dbgRunning (0 : Nat) (1 : Fin (4 : Nat))).stepping,
            kept := (getTh dbgRunning (0 : Nat) (1 : Fin (4 : Nat))).kept,
            pend := (getTh dbgRunning (0 : Nat) (1 : Fin (4 : Nat))).pend : Thread }),
        ((3 : Nat), (getTh dbgRunning (0 : Nat) (1 : Fin (4 : Nat))).iy,
          { acc := (getTh dbgRunning (0 : Nat) (1 : Fin (4 : Nat))).acc,
            acg := (getTh dbgRunning (0 : Nat) (1 : Fin (4 : Nat))).acg,
            ix := (getTh dbgRunning (0 : Nat) (1 : Fin (4 : Nat))).ix, iy := (7 : Word),
            flags := (getTh dbgRunning (0 : Nat) (1 : Fin (4 : Nat))).flags,
            pc := (getTh dbgRunning (0 : Nat) (1 : Fin (4 : Nat))).pc,
            rs := (getTh dbgRunning (0 : Nat) (1 : Fin (4 : Nat))).rs,
            pcc := (getTh dbgRunning (0 : Nat) (1 : Fin (4 : Nat))).pcc,
            ddc := (getTh dbgRunning (0 : Nat) (1 : Fin (4 : Nat))).ddc,
            c1 := (getTh dbgRunning (0 : Nat) (1 : Fin (4 : Nat))).c1,
            c2 := (getTh dbgRunning (0 : Nat) (1 : Fin (4 : Nat))).c2,
            c3 := (getTh dbgRunning (0 : Nat) (1 : Fin (4 : Nat))).c3,
            c4 := (getTh dbgRunning (0 : Nat) (1 : Fin (4 : Nat))).c4,
            c5 := (getTh dbgRunning (0 : Nat) (1 : Fin (4 : Nat))).c5,
            c6 := (getTh dbgRunning (0 : Nat) (1 : Fin (4 : Nat))).c6,
            sfc := (getTh dbgRunning (0 : Nat) (1 : Fin (4 : Nat))).sfc,
            glink := (getTh dbgRunning (0 : Nat) (1 : Fin (4 : Nat))).glink,
            closeEnd := (getTh dbgRunning (0 : Nat) (1 : Fin (4 : Nat))).closeEnd,
            st := (getTh dbgRunning (0 : Nat) (1 : Fin (4 : Nat))).st,
            ev := (getTh dbgRunning (0 : Nat) (1 : Fin (4 : Nat))).ev,
            cause := (getTh dbgRunning (0 : Nat) (1 : Fin (4 : Nat))).cause,
            wait := (getTh dbgRunning (0 : Nat) (1 : Fin (4 : Nat))).wait,
            waitFrom := (getTh dbgRunning (0 : Nat) (1 : Fin (4 : Nat))).waitFrom,
            block := (getTh dbgRunning (0 : Nat) (1 : Fin (4 : Nat))).block,
            staged := (getTh dbgRunning (0 : Nat) (1 : Fin (4 : Nat))).staged,
            recvd := (getTh dbgRunning (0 : Nat) (1 : Fin (4 : Nat))).recvd,
            stopReq := (getTh dbgRunning (0 : Nat) (1 : Fin (4 : Nat))).stopReq,
            stepping := (getTh dbgRunning (0 : Nat) (1 : Fin (4 : Nat))).stepping,
            kept := (getTh dbgRunning (0 : Nat) (1 : Fin (4 : Nat))).kept,
            pend := (getTh dbgRunning (0 : Nat) (1 : Fin (4 : Nat))).pend : Thread }),
        ((5 : Nat), (getTh dbgRunning (0 : Nat) (1 : Fin (4 : Nat))).pc,
          { acc := (getTh dbgRunning (0 : Nat) (1 : Fin (4 : Nat))).acc,
            acg := (getTh dbgRunning (0 : Nat) (1 : Fin (4 : Nat))).acg,
            ix := (getTh dbgRunning (0 : Nat) (1 : Fin (4 : Nat))).ix,
            iy := (getTh dbgRunning (0 : Nat) (1 : Fin (4 : Nat))).iy,
            flags := (getTh dbgRunning (0 : Nat) (1 : Fin (4 : Nat))).flags, pc := (7 : Word),
            rs := (getTh dbgRunning (0 : Nat) (1 : Fin (4 : Nat))).rs,
            pcc := (getTh dbgRunning (0 : Nat) (1 : Fin (4 : Nat))).pcc,
            ddc := (getTh dbgRunning (0 : Nat) (1 : Fin (4 : Nat))).ddc,
            c1 := (getTh dbgRunning (0 : Nat) (1 : Fin (4 : Nat))).c1,
            c2 := (getTh dbgRunning (0 : Nat) (1 : Fin (4 : Nat))).c2,
            c3 := (getTh dbgRunning (0 : Nat) (1 : Fin (4 : Nat))).c3,
            c4 := (getTh dbgRunning (0 : Nat) (1 : Fin (4 : Nat))).c4,
            c5 := (getTh dbgRunning (0 : Nat) (1 : Fin (4 : Nat))).c5,
            c6 := (getTh dbgRunning (0 : Nat) (1 : Fin (4 : Nat))).c6,
            sfc := (getTh dbgRunning (0 : Nat) (1 : Fin (4 : Nat))).sfc,
            glink := (getTh dbgRunning (0 : Nat) (1 : Fin (4 : Nat))).glink,
            closeEnd := (getTh dbgRunning (0 : Nat) (1 : Fin (4 : Nat))).closeEnd,
            st := (getTh dbgRunning (0 : Nat) (1 : Fin (4 : Nat))).st,
            ev := (getTh dbgRunning (0 : Nat) (1 : Fin (4 : Nat))).ev,
            cause := (getTh dbgRunning (0 : Nat) (1 : Fin (4 : Nat))).cause,
            wait := (getTh dbgRunning (0 : Nat) (1 : Fin (4 : Nat))).wait,
            waitFrom := (getTh dbgRunning (0 : Nat) (1 : Fin (4 : Nat))).waitFrom,
            block := (getTh dbgRunning (0 : Nat) (1 : Fin (4 : Nat))).block,
            staged := (getTh dbgRunning (0 : Nat) (1 : Fin (4 : Nat))).staged,
            recvd := (getTh dbgRunning (0 : Nat) (1 : Fin (4 : Nat))).recvd,
            stopReq := (getTh dbgRunning (0 : Nat) (1 : Fin (4 : Nat))).stopReq,
            stepping := (getTh dbgRunning (0 : Nat) (1 : Fin (4 : Nat))).stepping,
            kept := (getTh dbgRunning (0 : Nat) (1 : Fin (4 : Nat))).kept,
            pend := (getTh dbgRunning (0 : Nat) (1 : Fin (4 : Nat))).pend : Thread })]) ∧
    dbgSel (getCore dbgRunning 0) = (1, 5) ∧
    ((getTh dbgRunning 0 1).st = TState.running ∨ (getTh dbgRunning 0 1).st = TState.waiting) :=
  by decide +kernel

theorem witness_DebugData_2 :
    slotOf jtagged (Cpu.core 0) = some 0 ∧
    (getCore jtagged 0).held = false ∧
    dark jtagged = false ∧
    ((JtagAct.select, true) ∈ [(JtagAct.select, true), (JtagAct.deselect, false)]) ∧
    (getCore jtagged 0).jtag = true ∧
    (((5 : Nat), (256 : Word),
        let __src := run;
        { acc := __src.acc, acg := __src.acg, ix := __src.ix, iy := __src.iy, flags := __src.flags,
          pc := (7 : Word), rs := __src.rs, pcc := __src.pcc, ddc := __src.ddc, c1 := __src.c1, c2 := __src.c2,
          c3 := __src.c3, c4 := __src.c4, c5 := __src.c5, c6 := __src.c6, sfc := __src.sfc, glink := __src.glink,
          closeEnd := __src.closeEnd, st := TState.stoppedFault, ev := __src.ev, cause := __src.cause,
          wait := __src.wait, waitFrom := __src.waitFrom, block := __src.block, staged := __src.staged,
          recvd := __src.recvd, stopReq := __src.stopReq, stepping := __src.stepping, kept := __src.kept,
          pend := __src.pend : Thread }) ∈
      [((0 : Nat), (getTh jtagged (0 : Nat) (1 : Fin (4 : Nat))).acc,
          { acc := (7 : Word), acg := (getTh jtagged (0 : Nat) (1 : Fin (4 : Nat))).acg,
            ix := (getTh jtagged (0 : Nat) (1 : Fin (4 : Nat))).ix,
            iy := (getTh jtagged (0 : Nat) (1 : Fin (4 : Nat))).iy,
            flags := (getTh jtagged (0 : Nat) (1 : Fin (4 : Nat))).flags,
            pc := (getTh jtagged (0 : Nat) (1 : Fin (4 : Nat))).pc,
            rs := (getTh jtagged (0 : Nat) (1 : Fin (4 : Nat))).rs,
            pcc := (getTh jtagged (0 : Nat) (1 : Fin (4 : Nat))).pcc,
            ddc := (getTh jtagged (0 : Nat) (1 : Fin (4 : Nat))).ddc,
            c1 := (getTh jtagged (0 : Nat) (1 : Fin (4 : Nat))).c1,
            c2 := (getTh jtagged (0 : Nat) (1 : Fin (4 : Nat))).c2,
            c3 := (getTh jtagged (0 : Nat) (1 : Fin (4 : Nat))).c3,
            c4 := (getTh jtagged (0 : Nat) (1 : Fin (4 : Nat))).c4,
            c5 := (getTh jtagged (0 : Nat) (1 : Fin (4 : Nat))).c5,
            c6 := (getTh jtagged (0 : Nat) (1 : Fin (4 : Nat))).c6,
            sfc := (getTh jtagged (0 : Nat) (1 : Fin (4 : Nat))).sfc,
            glink := (getTh jtagged (0 : Nat) (1 : Fin (4 : Nat))).glink,
            closeEnd := (getTh jtagged (0 : Nat) (1 : Fin (4 : Nat))).closeEnd,
            st := (getTh jtagged (0 : Nat) (1 : Fin (4 : Nat))).st,
            ev := (getTh jtagged (0 : Nat) (1 : Fin (4 : Nat))).ev,
            cause := (getTh jtagged (0 : Nat) (1 : Fin (4 : Nat))).cause,
            wait := (getTh jtagged (0 : Nat) (1 : Fin (4 : Nat))).wait,
            waitFrom := (getTh jtagged (0 : Nat) (1 : Fin (4 : Nat))).waitFrom,
            block := (getTh jtagged (0 : Nat) (1 : Fin (4 : Nat))).block,
            staged := (getTh jtagged (0 : Nat) (1 : Fin (4 : Nat))).staged,
            recvd := (getTh jtagged (0 : Nat) (1 : Fin (4 : Nat))).recvd,
            stopReq := (getTh jtagged (0 : Nat) (1 : Fin (4 : Nat))).stopReq,
            stepping := (getTh jtagged (0 : Nat) (1 : Fin (4 : Nat))).stepping,
            kept := (getTh jtagged (0 : Nat) (1 : Fin (4 : Nat))).kept,
            pend := (getTh jtagged (0 : Nat) (1 : Fin (4 : Nat))).pend : Thread }),
        ((1 : Nat), BitVec.setWidth (32 : Nat) (getTh jtagged (0 : Nat) (1 : Fin (4 : Nat))).acg,
          { acc := (getTh jtagged (0 : Nat) (1 : Fin (4 : Nat))).acc, acg := BitVec.setWidth (8 : Nat) (7 : Word),
            ix := (getTh jtagged (0 : Nat) (1 : Fin (4 : Nat))).ix,
            iy := (getTh jtagged (0 : Nat) (1 : Fin (4 : Nat))).iy,
            flags := (getTh jtagged (0 : Nat) (1 : Fin (4 : Nat))).flags,
            pc := (getTh jtagged (0 : Nat) (1 : Fin (4 : Nat))).pc,
            rs := (getTh jtagged (0 : Nat) (1 : Fin (4 : Nat))).rs,
            pcc := (getTh jtagged (0 : Nat) (1 : Fin (4 : Nat))).pcc,
            ddc := (getTh jtagged (0 : Nat) (1 : Fin (4 : Nat))).ddc,
            c1 := (getTh jtagged (0 : Nat) (1 : Fin (4 : Nat))).c1,
            c2 := (getTh jtagged (0 : Nat) (1 : Fin (4 : Nat))).c2,
            c3 := (getTh jtagged (0 : Nat) (1 : Fin (4 : Nat))).c3,
            c4 := (getTh jtagged (0 : Nat) (1 : Fin (4 : Nat))).c4,
            c5 := (getTh jtagged (0 : Nat) (1 : Fin (4 : Nat))).c5,
            c6 := (getTh jtagged (0 : Nat) (1 : Fin (4 : Nat))).c6,
            sfc := (getTh jtagged (0 : Nat) (1 : Fin (4 : Nat))).sfc,
            glink := (getTh jtagged (0 : Nat) (1 : Fin (4 : Nat))).glink,
            closeEnd := (getTh jtagged (0 : Nat) (1 : Fin (4 : Nat))).closeEnd,
            st := (getTh jtagged (0 : Nat) (1 : Fin (4 : Nat))).st,
            ev := (getTh jtagged (0 : Nat) (1 : Fin (4 : Nat))).ev,
            cause := (getTh jtagged (0 : Nat) (1 : Fin (4 : Nat))).cause,
            wait := (getTh jtagged (0 : Nat) (1 : Fin (4 : Nat))).wait,
            waitFrom := (getTh jtagged (0 : Nat) (1 : Fin (4 : Nat))).waitFrom,
            block := (getTh jtagged (0 : Nat) (1 : Fin (4 : Nat))).block,
            staged := (getTh jtagged (0 : Nat) (1 : Fin (4 : Nat))).staged,
            recvd := (getTh jtagged (0 : Nat) (1 : Fin (4 : Nat))).recvd,
            stopReq := (getTh jtagged (0 : Nat) (1 : Fin (4 : Nat))).stopReq,
            stepping := (getTh jtagged (0 : Nat) (1 : Fin (4 : Nat))).stepping,
            kept := (getTh jtagged (0 : Nat) (1 : Fin (4 : Nat))).kept,
            pend := (getTh jtagged (0 : Nat) (1 : Fin (4 : Nat))).pend : Thread }),
        ((2 : Nat), (getTh jtagged (0 : Nat) (1 : Fin (4 : Nat))).ix,
          { acc := (getTh jtagged (0 : Nat) (1 : Fin (4 : Nat))).acc,
            acg := (getTh jtagged (0 : Nat) (1 : Fin (4 : Nat))).acg, ix := (7 : Word),
            iy := (getTh jtagged (0 : Nat) (1 : Fin (4 : Nat))).iy,
            flags := (getTh jtagged (0 : Nat) (1 : Fin (4 : Nat))).flags,
            pc := (getTh jtagged (0 : Nat) (1 : Fin (4 : Nat))).pc,
            rs := (getTh jtagged (0 : Nat) (1 : Fin (4 : Nat))).rs,
            pcc := (getTh jtagged (0 : Nat) (1 : Fin (4 : Nat))).pcc,
            ddc := (getTh jtagged (0 : Nat) (1 : Fin (4 : Nat))).ddc,
            c1 := (getTh jtagged (0 : Nat) (1 : Fin (4 : Nat))).c1,
            c2 := (getTh jtagged (0 : Nat) (1 : Fin (4 : Nat))).c2,
            c3 := (getTh jtagged (0 : Nat) (1 : Fin (4 : Nat))).c3,
            c4 := (getTh jtagged (0 : Nat) (1 : Fin (4 : Nat))).c4,
            c5 := (getTh jtagged (0 : Nat) (1 : Fin (4 : Nat))).c5,
            c6 := (getTh jtagged (0 : Nat) (1 : Fin (4 : Nat))).c6,
            sfc := (getTh jtagged (0 : Nat) (1 : Fin (4 : Nat))).sfc,
            glink := (getTh jtagged (0 : Nat) (1 : Fin (4 : Nat))).glink,
            closeEnd := (getTh jtagged (0 : Nat) (1 : Fin (4 : Nat))).closeEnd,
            st := (getTh jtagged (0 : Nat) (1 : Fin (4 : Nat))).st,
            ev := (getTh jtagged (0 : Nat) (1 : Fin (4 : Nat))).ev,
            cause := (getTh jtagged (0 : Nat) (1 : Fin (4 : Nat))).cause,
            wait := (getTh jtagged (0 : Nat) (1 : Fin (4 : Nat))).wait,
            waitFrom := (getTh jtagged (0 : Nat) (1 : Fin (4 : Nat))).waitFrom,
            block := (getTh jtagged (0 : Nat) (1 : Fin (4 : Nat))).block,
            staged := (getTh jtagged (0 : Nat) (1 : Fin (4 : Nat))).staged,
            recvd := (getTh jtagged (0 : Nat) (1 : Fin (4 : Nat))).recvd,
            stopReq := (getTh jtagged (0 : Nat) (1 : Fin (4 : Nat))).stopReq,
            stepping := (getTh jtagged (0 : Nat) (1 : Fin (4 : Nat))).stepping,
            kept := (getTh jtagged (0 : Nat) (1 : Fin (4 : Nat))).kept,
            pend := (getTh jtagged (0 : Nat) (1 : Fin (4 : Nat))).pend : Thread }),
        ((3 : Nat), (getTh jtagged (0 : Nat) (1 : Fin (4 : Nat))).iy,
          { acc := (getTh jtagged (0 : Nat) (1 : Fin (4 : Nat))).acc,
            acg := (getTh jtagged (0 : Nat) (1 : Fin (4 : Nat))).acg,
            ix := (getTh jtagged (0 : Nat) (1 : Fin (4 : Nat))).ix, iy := (7 : Word),
            flags := (getTh jtagged (0 : Nat) (1 : Fin (4 : Nat))).flags,
            pc := (getTh jtagged (0 : Nat) (1 : Fin (4 : Nat))).pc,
            rs := (getTh jtagged (0 : Nat) (1 : Fin (4 : Nat))).rs,
            pcc := (getTh jtagged (0 : Nat) (1 : Fin (4 : Nat))).pcc,
            ddc := (getTh jtagged (0 : Nat) (1 : Fin (4 : Nat))).ddc,
            c1 := (getTh jtagged (0 : Nat) (1 : Fin (4 : Nat))).c1,
            c2 := (getTh jtagged (0 : Nat) (1 : Fin (4 : Nat))).c2,
            c3 := (getTh jtagged (0 : Nat) (1 : Fin (4 : Nat))).c3,
            c4 := (getTh jtagged (0 : Nat) (1 : Fin (4 : Nat))).c4,
            c5 := (getTh jtagged (0 : Nat) (1 : Fin (4 : Nat))).c5,
            c6 := (getTh jtagged (0 : Nat) (1 : Fin (4 : Nat))).c6,
            sfc := (getTh jtagged (0 : Nat) (1 : Fin (4 : Nat))).sfc,
            glink := (getTh jtagged (0 : Nat) (1 : Fin (4 : Nat))).glink,
            closeEnd := (getTh jtagged (0 : Nat) (1 : Fin (4 : Nat))).closeEnd,
            st := (getTh jtagged (0 : Nat) (1 : Fin (4 : Nat))).st,
            ev := (getTh jtagged (0 : Nat) (1 : Fin (4 : Nat))).ev,
            cause := (getTh jtagged (0 : Nat) (1 : Fin (4 : Nat))).cause,
            wait := (getTh jtagged (0 : Nat) (1 : Fin (4 : Nat))).wait,
            waitFrom := (getTh jtagged (0 : Nat) (1 : Fin (4 : Nat))).waitFrom,
            block := (getTh jtagged (0 : Nat) (1 : Fin (4 : Nat))).block,
            staged := (getTh jtagged (0 : Nat) (1 : Fin (4 : Nat))).staged,
            recvd := (getTh jtagged (0 : Nat) (1 : Fin (4 : Nat))).recvd,
            stopReq := (getTh jtagged (0 : Nat) (1 : Fin (4 : Nat))).stopReq,
            stepping := (getTh jtagged (0 : Nat) (1 : Fin (4 : Nat))).stepping,
            kept := (getTh jtagged (0 : Nat) (1 : Fin (4 : Nat))).kept,
            pend := (getTh jtagged (0 : Nat) (1 : Fin (4 : Nat))).pend : Thread }),
        ((5 : Nat), (getTh jtagged (0 : Nat) (1 : Fin (4 : Nat))).pc,
          { acc := (getTh jtagged (0 : Nat) (1 : Fin (4 : Nat))).acc,
            acg := (getTh jtagged (0 : Nat) (1 : Fin (4 : Nat))).acg,
            ix := (getTh jtagged (0 : Nat) (1 : Fin (4 : Nat))).ix,
            iy := (getTh jtagged (0 : Nat) (1 : Fin (4 : Nat))).iy,
            flags := (getTh jtagged (0 : Nat) (1 : Fin (4 : Nat))).flags, pc := (7 : Word),
            rs := (getTh jtagged (0 : Nat) (1 : Fin (4 : Nat))).rs,
            pcc := (getTh jtagged (0 : Nat) (1 : Fin (4 : Nat))).pcc,
            ddc := (getTh jtagged (0 : Nat) (1 : Fin (4 : Nat))).ddc,
            c1 := (getTh jtagged (0 : Nat) (1 : Fin (4 : Nat))).c1,
            c2 := (getTh jtagged (0 : Nat) (1 : Fin (4 : Nat))).c2,
            c3 := (getTh jtagged (0 : Nat) (1 : Fin (4 : Nat))).c3,
            c4 := (getTh jtagged (0 : Nat) (1 : Fin (4 : Nat))).c4,
            c5 := (getTh jtagged (0 : Nat) (1 : Fin (4 : Nat))).c5,
            c6 := (getTh jtagged (0 : Nat) (1 : Fin (4 : Nat))).c6,
            sfc := (getTh jtagged (0 : Nat) (1 : Fin (4 : Nat))).sfc,
            glink := (getTh jtagged (0 : Nat) (1 : Fin (4 : Nat))).glink,
            closeEnd := (getTh jtagged (0 : Nat) (1 : Fin (4 : Nat))).closeEnd,
            st := (getTh jtagged (0 : Nat) (1 : Fin (4 : Nat))).st,
            ev := (getTh jtagged (0 : Nat) (1 : Fin (4 : Nat))).ev,
            cause := (getTh jtagged (0 : Nat) (1 : Fin (4 : Nat))).cause,
            wait := (getTh jtagged (0 : Nat) (1 : Fin (4 : Nat))).wait,
            waitFrom := (getTh jtagged (0 : Nat) (1 : Fin (4 : Nat))).waitFrom,
            block := (getTh jtagged (0 : Nat) (1 : Fin (4 : Nat))).block,
            staged := (getTh jtagged (0 : Nat) (1 : Fin (4 : Nat))).staged,
            recvd := (getTh jtagged (0 : Nat) (1 : Fin (4 : Nat))).recvd,
            stopReq := (getTh jtagged (0 : Nat) (1 : Fin (4 : Nat))).stopReq,
            stepping := (getTh jtagged (0 : Nat) (1 : Fin (4 : Nat))).stepping,
            kept := (getTh jtagged (0 : Nat) (1 : Fin (4 : Nat))).kept,
            pend := (getTh jtagged (0 : Nat) (1 : Fin (4 : Nat))).pend : Thread })]) ∧
    dbgSel (getCore jtagged 0) = (1, 5) ∧
    ((getTh jtagged 0 1).st = TState.stoppedDebug ∨
      (getTh jtagged 0 1).st = TState.stoppedFault ∨
        (getTh jtagged 0 1).st = TState.notRunning ∨ (getTh jtagged 0 1).st = TState.halted) :=
  by decide +kernel

theorem witness_DebugData_3 :
    slotOf dbgStopped (Cpu.core 0) = some 0 ∧
    (getCore dbgStopped 0).held = false ∧
    dark dbgStopped = false ∧
    (getCore dbgStopped 0).jtag = false ∧
    (((5 : Nat), (256 : Word),
        let __src := run;
        { acc := __src.acc, acg := __src.acg, ix := __src.ix, iy := __src.iy, flags := __src.flags,
          pc := (7 : Word), rs := __src.rs, pcc := __src.pcc, ddc := __src.ddc, c1 := __src.c1, c2 := __src.c2,
          c3 := __src.c3, c4 := __src.c4, c5 := __src.c5, c6 := __src.c6, sfc := __src.sfc, glink := __src.glink,
          closeEnd := __src.closeEnd, st := TState.stoppedFault, ev := __src.ev, cause := __src.cause,
          wait := __src.wait, waitFrom := __src.waitFrom, block := __src.block, staged := __src.staged,
          recvd := __src.recvd, stopReq := __src.stopReq, stepping := __src.stepping, kept := __src.kept,
          pend := __src.pend : Thread }) ∈
      [((0 : Nat), (getTh dbgStopped (0 : Nat) (1 : Fin (4 : Nat))).acc,
          { acc := (7 : Word), acg := (getTh dbgStopped (0 : Nat) (1 : Fin (4 : Nat))).acg,
            ix := (getTh dbgStopped (0 : Nat) (1 : Fin (4 : Nat))).ix,
            iy := (getTh dbgStopped (0 : Nat) (1 : Fin (4 : Nat))).iy,
            flags := (getTh dbgStopped (0 : Nat) (1 : Fin (4 : Nat))).flags,
            pc := (getTh dbgStopped (0 : Nat) (1 : Fin (4 : Nat))).pc,
            rs := (getTh dbgStopped (0 : Nat) (1 : Fin (4 : Nat))).rs,
            pcc := (getTh dbgStopped (0 : Nat) (1 : Fin (4 : Nat))).pcc,
            ddc := (getTh dbgStopped (0 : Nat) (1 : Fin (4 : Nat))).ddc,
            c1 := (getTh dbgStopped (0 : Nat) (1 : Fin (4 : Nat))).c1,
            c2 := (getTh dbgStopped (0 : Nat) (1 : Fin (4 : Nat))).c2,
            c3 := (getTh dbgStopped (0 : Nat) (1 : Fin (4 : Nat))).c3,
            c4 := (getTh dbgStopped (0 : Nat) (1 : Fin (4 : Nat))).c4,
            c5 := (getTh dbgStopped (0 : Nat) (1 : Fin (4 : Nat))).c5,
            c6 := (getTh dbgStopped (0 : Nat) (1 : Fin (4 : Nat))).c6,
            sfc := (getTh dbgStopped (0 : Nat) (1 : Fin (4 : Nat))).sfc,
            glink := (getTh dbgStopped (0 : Nat) (1 : Fin (4 : Nat))).glink,
            closeEnd := (getTh dbgStopped (0 : Nat) (1 : Fin (4 : Nat))).closeEnd,
            st := (getTh dbgStopped (0 : Nat) (1 : Fin (4 : Nat))).st,
            ev := (getTh dbgStopped (0 : Nat) (1 : Fin (4 : Nat))).ev,
            cause := (getTh dbgStopped (0 : Nat) (1 : Fin (4 : Nat))).cause,
            wait := (getTh dbgStopped (0 : Nat) (1 : Fin (4 : Nat))).wait,
            waitFrom := (getTh dbgStopped (0 : Nat) (1 : Fin (4 : Nat))).waitFrom,
            block := (getTh dbgStopped (0 : Nat) (1 : Fin (4 : Nat))).block,
            staged := (getTh dbgStopped (0 : Nat) (1 : Fin (4 : Nat))).staged,
            recvd := (getTh dbgStopped (0 : Nat) (1 : Fin (4 : Nat))).recvd,
            stopReq := (getTh dbgStopped (0 : Nat) (1 : Fin (4 : Nat))).stopReq,
            stepping := (getTh dbgStopped (0 : Nat) (1 : Fin (4 : Nat))).stepping,
            kept := (getTh dbgStopped (0 : Nat) (1 : Fin (4 : Nat))).kept,
            pend := (getTh dbgStopped (0 : Nat) (1 : Fin (4 : Nat))).pend : Thread }),
        ((1 : Nat), BitVec.setWidth (32 : Nat) (getTh dbgStopped (0 : Nat) (1 : Fin (4 : Nat))).acg,
          { acc := (getTh dbgStopped (0 : Nat) (1 : Fin (4 : Nat))).acc,
            acg := BitVec.setWidth (8 : Nat) (7 : Word),
            ix := (getTh dbgStopped (0 : Nat) (1 : Fin (4 : Nat))).ix,
            iy := (getTh dbgStopped (0 : Nat) (1 : Fin (4 : Nat))).iy,
            flags := (getTh dbgStopped (0 : Nat) (1 : Fin (4 : Nat))).flags,
            pc := (getTh dbgStopped (0 : Nat) (1 : Fin (4 : Nat))).pc,
            rs := (getTh dbgStopped (0 : Nat) (1 : Fin (4 : Nat))).rs,
            pcc := (getTh dbgStopped (0 : Nat) (1 : Fin (4 : Nat))).pcc,
            ddc := (getTh dbgStopped (0 : Nat) (1 : Fin (4 : Nat))).ddc,
            c1 := (getTh dbgStopped (0 : Nat) (1 : Fin (4 : Nat))).c1,
            c2 := (getTh dbgStopped (0 : Nat) (1 : Fin (4 : Nat))).c2,
            c3 := (getTh dbgStopped (0 : Nat) (1 : Fin (4 : Nat))).c3,
            c4 := (getTh dbgStopped (0 : Nat) (1 : Fin (4 : Nat))).c4,
            c5 := (getTh dbgStopped (0 : Nat) (1 : Fin (4 : Nat))).c5,
            c6 := (getTh dbgStopped (0 : Nat) (1 : Fin (4 : Nat))).c6,
            sfc := (getTh dbgStopped (0 : Nat) (1 : Fin (4 : Nat))).sfc,
            glink := (getTh dbgStopped (0 : Nat) (1 : Fin (4 : Nat))).glink,
            closeEnd := (getTh dbgStopped (0 : Nat) (1 : Fin (4 : Nat))).closeEnd,
            st := (getTh dbgStopped (0 : Nat) (1 : Fin (4 : Nat))).st,
            ev := (getTh dbgStopped (0 : Nat) (1 : Fin (4 : Nat))).ev,
            cause := (getTh dbgStopped (0 : Nat) (1 : Fin (4 : Nat))).cause,
            wait := (getTh dbgStopped (0 : Nat) (1 : Fin (4 : Nat))).wait,
            waitFrom := (getTh dbgStopped (0 : Nat) (1 : Fin (4 : Nat))).waitFrom,
            block := (getTh dbgStopped (0 : Nat) (1 : Fin (4 : Nat))).block,
            staged := (getTh dbgStopped (0 : Nat) (1 : Fin (4 : Nat))).staged,
            recvd := (getTh dbgStopped (0 : Nat) (1 : Fin (4 : Nat))).recvd,
            stopReq := (getTh dbgStopped (0 : Nat) (1 : Fin (4 : Nat))).stopReq,
            stepping := (getTh dbgStopped (0 : Nat) (1 : Fin (4 : Nat))).stepping,
            kept := (getTh dbgStopped (0 : Nat) (1 : Fin (4 : Nat))).kept,
            pend := (getTh dbgStopped (0 : Nat) (1 : Fin (4 : Nat))).pend : Thread }),
        ((2 : Nat), (getTh dbgStopped (0 : Nat) (1 : Fin (4 : Nat))).ix,
          { acc := (getTh dbgStopped (0 : Nat) (1 : Fin (4 : Nat))).acc,
            acg := (getTh dbgStopped (0 : Nat) (1 : Fin (4 : Nat))).acg, ix := (7 : Word),
            iy := (getTh dbgStopped (0 : Nat) (1 : Fin (4 : Nat))).iy,
            flags := (getTh dbgStopped (0 : Nat) (1 : Fin (4 : Nat))).flags,
            pc := (getTh dbgStopped (0 : Nat) (1 : Fin (4 : Nat))).pc,
            rs := (getTh dbgStopped (0 : Nat) (1 : Fin (4 : Nat))).rs,
            pcc := (getTh dbgStopped (0 : Nat) (1 : Fin (4 : Nat))).pcc,
            ddc := (getTh dbgStopped (0 : Nat) (1 : Fin (4 : Nat))).ddc,
            c1 := (getTh dbgStopped (0 : Nat) (1 : Fin (4 : Nat))).c1,
            c2 := (getTh dbgStopped (0 : Nat) (1 : Fin (4 : Nat))).c2,
            c3 := (getTh dbgStopped (0 : Nat) (1 : Fin (4 : Nat))).c3,
            c4 := (getTh dbgStopped (0 : Nat) (1 : Fin (4 : Nat))).c4,
            c5 := (getTh dbgStopped (0 : Nat) (1 : Fin (4 : Nat))).c5,
            c6 := (getTh dbgStopped (0 : Nat) (1 : Fin (4 : Nat))).c6,
            sfc := (getTh dbgStopped (0 : Nat) (1 : Fin (4 : Nat))).sfc,
            glink := (getTh dbgStopped (0 : Nat) (1 : Fin (4 : Nat))).glink,
            closeEnd := (getTh dbgStopped (0 : Nat) (1 : Fin (4 : Nat))).closeEnd,
            st := (getTh dbgStopped (0 : Nat) (1 : Fin (4 : Nat))).st,
            ev := (getTh dbgStopped (0 : Nat) (1 : Fin (4 : Nat))).ev,
            cause := (getTh dbgStopped (0 : Nat) (1 : Fin (4 : Nat))).cause,
            wait := (getTh dbgStopped (0 : Nat) (1 : Fin (4 : Nat))).wait,
            waitFrom := (getTh dbgStopped (0 : Nat) (1 : Fin (4 : Nat))).waitFrom,
            block := (getTh dbgStopped (0 : Nat) (1 : Fin (4 : Nat))).block,
            staged := (getTh dbgStopped (0 : Nat) (1 : Fin (4 : Nat))).staged,
            recvd := (getTh dbgStopped (0 : Nat) (1 : Fin (4 : Nat))).recvd,
            stopReq := (getTh dbgStopped (0 : Nat) (1 : Fin (4 : Nat))).stopReq,
            stepping := (getTh dbgStopped (0 : Nat) (1 : Fin (4 : Nat))).stepping,
            kept := (getTh dbgStopped (0 : Nat) (1 : Fin (4 : Nat))).kept,
            pend := (getTh dbgStopped (0 : Nat) (1 : Fin (4 : Nat))).pend : Thread }),
        ((3 : Nat), (getTh dbgStopped (0 : Nat) (1 : Fin (4 : Nat))).iy,
          { acc := (getTh dbgStopped (0 : Nat) (1 : Fin (4 : Nat))).acc,
            acg := (getTh dbgStopped (0 : Nat) (1 : Fin (4 : Nat))).acg,
            ix := (getTh dbgStopped (0 : Nat) (1 : Fin (4 : Nat))).ix, iy := (7 : Word),
            flags := (getTh dbgStopped (0 : Nat) (1 : Fin (4 : Nat))).flags,
            pc := (getTh dbgStopped (0 : Nat) (1 : Fin (4 : Nat))).pc,
            rs := (getTh dbgStopped (0 : Nat) (1 : Fin (4 : Nat))).rs,
            pcc := (getTh dbgStopped (0 : Nat) (1 : Fin (4 : Nat))).pcc,
            ddc := (getTh dbgStopped (0 : Nat) (1 : Fin (4 : Nat))).ddc,
            c1 := (getTh dbgStopped (0 : Nat) (1 : Fin (4 : Nat))).c1,
            c2 := (getTh dbgStopped (0 : Nat) (1 : Fin (4 : Nat))).c2,
            c3 := (getTh dbgStopped (0 : Nat) (1 : Fin (4 : Nat))).c3,
            c4 := (getTh dbgStopped (0 : Nat) (1 : Fin (4 : Nat))).c4,
            c5 := (getTh dbgStopped (0 : Nat) (1 : Fin (4 : Nat))).c5,
            c6 := (getTh dbgStopped (0 : Nat) (1 : Fin (4 : Nat))).c6,
            sfc := (getTh dbgStopped (0 : Nat) (1 : Fin (4 : Nat))).sfc,
            glink := (getTh dbgStopped (0 : Nat) (1 : Fin (4 : Nat))).glink,
            closeEnd := (getTh dbgStopped (0 : Nat) (1 : Fin (4 : Nat))).closeEnd,
            st := (getTh dbgStopped (0 : Nat) (1 : Fin (4 : Nat))).st,
            ev := (getTh dbgStopped (0 : Nat) (1 : Fin (4 : Nat))).ev,
            cause := (getTh dbgStopped (0 : Nat) (1 : Fin (4 : Nat))).cause,
            wait := (getTh dbgStopped (0 : Nat) (1 : Fin (4 : Nat))).wait,
            waitFrom := (getTh dbgStopped (0 : Nat) (1 : Fin (4 : Nat))).waitFrom,
            block := (getTh dbgStopped (0 : Nat) (1 : Fin (4 : Nat))).block,
            staged := (getTh dbgStopped (0 : Nat) (1 : Fin (4 : Nat))).staged,
            recvd := (getTh dbgStopped (0 : Nat) (1 : Fin (4 : Nat))).recvd,
            stopReq := (getTh dbgStopped (0 : Nat) (1 : Fin (4 : Nat))).stopReq,
            stepping := (getTh dbgStopped (0 : Nat) (1 : Fin (4 : Nat))).stepping,
            kept := (getTh dbgStopped (0 : Nat) (1 : Fin (4 : Nat))).kept,
            pend := (getTh dbgStopped (0 : Nat) (1 : Fin (4 : Nat))).pend : Thread }),
        ((5 : Nat), (getTh dbgStopped (0 : Nat) (1 : Fin (4 : Nat))).pc,
          { acc := (getTh dbgStopped (0 : Nat) (1 : Fin (4 : Nat))).acc,
            acg := (getTh dbgStopped (0 : Nat) (1 : Fin (4 : Nat))).acg,
            ix := (getTh dbgStopped (0 : Nat) (1 : Fin (4 : Nat))).ix,
            iy := (getTh dbgStopped (0 : Nat) (1 : Fin (4 : Nat))).iy,
            flags := (getTh dbgStopped (0 : Nat) (1 : Fin (4 : Nat))).flags, pc := (7 : Word),
            rs := (getTh dbgStopped (0 : Nat) (1 : Fin (4 : Nat))).rs,
            pcc := (getTh dbgStopped (0 : Nat) (1 : Fin (4 : Nat))).pcc,
            ddc := (getTh dbgStopped (0 : Nat) (1 : Fin (4 : Nat))).ddc,
            c1 := (getTh dbgStopped (0 : Nat) (1 : Fin (4 : Nat))).c1,
            c2 := (getTh dbgStopped (0 : Nat) (1 : Fin (4 : Nat))).c2,
            c3 := (getTh dbgStopped (0 : Nat) (1 : Fin (4 : Nat))).c3,
            c4 := (getTh dbgStopped (0 : Nat) (1 : Fin (4 : Nat))).c4,
            c5 := (getTh dbgStopped (0 : Nat) (1 : Fin (4 : Nat))).c5,
            c6 := (getTh dbgStopped (0 : Nat) (1 : Fin (4 : Nat))).c6,
            sfc := (getTh dbgStopped (0 : Nat) (1 : Fin (4 : Nat))).sfc,
            glink := (getTh dbgStopped (0 : Nat) (1 : Fin (4 : Nat))).glink,
            closeEnd := (getTh dbgStopped (0 : Nat) (1 : Fin (4 : Nat))).closeEnd,
            st := (getTh dbgStopped (0 : Nat) (1 : Fin (4 : Nat))).st,
            ev := (getTh dbgStopped (0 : Nat) (1 : Fin (4 : Nat))).ev,
            cause := (getTh dbgStopped (0 : Nat) (1 : Fin (4 : Nat))).cause,
            wait := (getTh dbgStopped (0 : Nat) (1 : Fin (4 : Nat))).wait,
            waitFrom := (getTh dbgStopped (0 : Nat) (1 : Fin (4 : Nat))).waitFrom,
            block := (getTh dbgStopped (0 : Nat) (1 : Fin (4 : Nat))).block,
            staged := (getTh dbgStopped (0 : Nat) (1 : Fin (4 : Nat))).staged,
            recvd := (getTh dbgStopped (0 : Nat) (1 : Fin (4 : Nat))).recvd,
            stopReq := (getTh dbgStopped (0 : Nat) (1 : Fin (4 : Nat))).stopReq,
            stepping := (getTh dbgStopped (0 : Nat) (1 : Fin (4 : Nat))).stepping,
            kept := (getTh dbgStopped (0 : Nat) (1 : Fin (4 : Nat))).kept,
            pend := (getTh dbgStopped (0 : Nat) (1 : Fin (4 : Nat))).pend : Thread })]) ∧
    dbgSel (getCore dbgStopped 0) = (1, 5) ∧
    ((getTh dbgStopped 0 1).st = TState.stoppedDebug ∨
      (getTh dbgStopped 0 1).st = TState.stoppedFault ∨
        (getTh dbgStopped 0 1).st = TState.notRunning ∨ (getTh dbgStopped 0 1).st = TState.halted) :=
  by decide +kernel

theorem witness_StagingAndReading :
    Ready staged3 (Cpu.core 0) 1 0 ∧
    (getTh staged3 0 1).pcc.perms &&& 1024 = 1024 ∧
    (getTh staged3 0 1).staged.length < 4 ∧
    ((Instr.pget 0 1 3, 0, 1024) ∈
      [(Instr.pget 0 1 3, BitVec.extractLsb' (32 * 3) 32 (getTh staged3 0 1).recvd, 1024#16),
        (Instr.fget 0 1 63, BitVec.setWidth 32 (flagGet (getCore staged3 0) 63), 2048#16)]) :=
  ⟨⟨by decide +kernel, by decide +kernel, by decide +kernel⟩, by decide +kernel⟩

theorem witness_PostsLeave_1 :
    Ready chanOpen (Cpu.core 0) 1 0 ∧
    logicalOf chanOpen 0 = some 0 ∧
    3 ≤ (getTh chanOpen 0 1).staged.length ∧
    (getTh chanOpen 0 1).staged.length ≤ 4 ∧
    (getTh chanOpen 0 1).pcc.perms &&& 1024 = 1024 ∧
    BitVec.getLsbD (csrGet (getCore chanOpen 0) (28932 + 8 * 31)) 31 = true ∧
    tget closedDefault (getCore chanOpen 0).chClosed 31 = false ∧
    tget creditDefault (getCore chanOpen 0).credit 31 ≠ 0 ∧
    (getTh chanOpen 0 1).pend = [] ∧
    BitVec.extractLsb' 16 16 (csrGet (getCore chanOpen 0) (28928 + 8 * 31)) = fabDev chanOpen ∧
    (BitVec.extractLsb' 0 10 (csrGet (getCore chanOpen 0) (28928 + 8 * 31))).toNat < logicalCount chanOpen :=
  ⟨⟨by decide +kernel, by decide +kernel, by decide +kernel⟩, by decide +kernel⟩

theorem witness_PostsLeave_2 :
    Ready chanInvalid (Cpu.core 0) 1 0 ∧
    logicalOf chanInvalid 0 = some 0 ∧
    3 ≤ (getTh chanInvalid 0 1).staged.length ∧
    (getTh chanInvalid 0 1).staged.length ≤ 4 ∧
    (getTh chanInvalid 0 1).pcc.perms &&& 1024 = 1024 ∧
    (BitVec.getLsbD (csrGet (getCore chanInvalid 0) (28932 + 8 * 31)) 31 = false ∧ 5 = 5 ∨
      BitVec.getLsbD (csrGet (getCore chanInvalid 0) (28932 + 8 * 31)) 31 = true ∧
          tget closedDefault (getCore chanInvalid 0).chClosed 31 = true ∧ 5 = 2 ∨
        BitVec.getLsbD (csrGet (getCore chanInvalid 0) (28932 + 8 * 31)) 31 = true ∧
          tget closedDefault (getCore chanInvalid 0).chClosed 31 = false ∧
            tget creditDefault (getCore chanInvalid 0).credit 31 = 0 ∧ 5 = 1) :=
  ⟨⟨by decide +kernel, by decide +kernel, by decide +kernel⟩, by decide +kernel⟩

theorem witness_PostsLeave_3 :
    Ready chanClosed (Cpu.core 0) 1 0 ∧
    logicalOf chanClosed 0 = some 0 ∧
    3 ≤ (getTh chanClosed 0 1).staged.length ∧
    (getTh chanClosed 0 1).staged.length ≤ 4 ∧
    (getTh chanClosed 0 1).pcc.perms &&& 1024 = 1024 ∧
    (BitVec.getLsbD (csrGet (getCore chanClosed 0) (28932 + 8 * 31)) 31 = false ∧ 2 = 5 ∨
      BitVec.getLsbD (csrGet (getCore chanClosed 0) (28932 + 8 * 31)) 31 = true ∧
          tget closedDefault (getCore chanClosed 0).chClosed 31 = true ∧ 2 = 2 ∨
        BitVec.getLsbD (csrGet (getCore chanClosed 0) (28932 + 8 * 31)) 31 = true ∧
          tget closedDefault (getCore chanClosed 0).chClosed 31 = false ∧
            tget creditDefault (getCore chanClosed 0).credit 31 = 0 ∧ 2 = 1) :=
  ⟨⟨by decide +kernel, by decide +kernel, by decide +kernel⟩, by decide +kernel⟩

theorem witness_PostsLeave_4 :
    Ready chanSpent (Cpu.core 0) 1 0 ∧
    logicalOf chanSpent 0 = some 0 ∧
    3 ≤ (getTh chanSpent 0 1).staged.length ∧
    (getTh chanSpent 0 1).staged.length ≤ 4 ∧
    (getTh chanSpent 0 1).pcc.perms &&& 1024 = 1024 ∧
    (BitVec.getLsbD (csrGet (getCore chanSpent 0) (28932 + 8 * 31)) 31 = false ∧ 1 = 5 ∨
      BitVec.getLsbD (csrGet (getCore chanSpent 0) (28932 + 8 * 31)) 31 = true ∧
          tget closedDefault (getCore chanSpent 0).chClosed 31 = true ∧ 1 = 2 ∨
        BitVec.getLsbD (csrGet (getCore chanSpent 0) (28932 + 8 * 31)) 31 = true ∧
          tget closedDefault (getCore chanSpent 0).chClosed 31 = false ∧
            tget creditDefault (getCore chanSpent 0).credit 31 = 0 ∧ 1 = 1) :=
  ⟨⟨by decide +kernel, by decide +kernel, by decide +kernel⟩, by decide +kernel⟩

theorem witness_FlagWaits_1 :
    Ready flagUp (Cpu.core 0) 1 0 ∧
    5 < 6 ∧
    (getTh flagUp 0 1).pcc.perms &&& 2048 = 2048 ∧
    scopeFault (getCore flagUp 0) 63 5 = none ∧
    flagGet (getCore flagUp 0) 63 ≠ 0 :=
  ⟨⟨by decide +kernel, by decide +kernel, by decide +kernel⟩, by decide +kernel⟩

theorem witness_FlagWaits_2 :
    Ready flagZero (Cpu.core 0) 1 0 ∧
    5 < 6 ∧
    (getTh flagZero 0 1).pcc.perms &&& 2048 = 2048 ∧
    scopeFault (getCore flagZero 0) 63 5 = none ∧
    flagGet (getCore flagZero 0) 63 = 0 :=
  ⟨⟨by decide +kernel, by decide +kernel, by decide +kernel⟩, by decide +kernel⟩

theorem witness_FlagSignalsLeave :
    Ready chanOpen (Cpu.core 0) 1 0 ∧
    logicalOf chanOpen 0 = some 0 ∧
    5 < 6 ∧
    (getTh chanOpen 0 1).pcc.perms &&& 2048 = 2048 ∧
    scopeFault (getCore chanOpen 0) 63 5 = none ∧
    (getTh chanOpen 0 1).pend = [] ∧
    (∀ (u : Fin 4), (getCore chanOpen 0).th[u].wait ≠ some (WaitFor.flag 63)) ∧
    flagGet (getCore chanOpen 0) 63 ≠ 255 ∧
    BitVec.getLsbD (csrGet (getCore chanOpen 0) (28932 + 8 * 31)) 31 = true ∧
    tget closedDefault (getCore chanOpen 0).chClosed 31 = false ∧
    BitVec.extractLsb' 16 16 (csrGet (getCore chanOpen 0) (28928 + 8 * 31)) = fabDev chanOpen ∧
    (BitVec.extractLsb' 0 10 (csrGet (getCore chanOpen 0) (28928 + 8 * 31))).toNat < logicalCount chanOpen :=
  ⟨⟨by decide +kernel, by decide +kernel, by decide +kernel⟩, by decide +kernel⟩

/-! ### Posts, flags, barriers and numbers -/

def msgs (s : State) (l : List Msg) : State := { s with msgs := l }
/-- Queue 3 of core 1 is open; one unit is on its way there. -/
def toOne (m : Msg) : State := msgs (modCore (mach 1 run) 1 fun c => csrSet (csrSet c 0x701C 0x80000000) 0x1054 8) [m]
def inPost : State := toOne (.post (.here 0 31 1) 1 3 77)
def inPostBad : State := toOne (.post (.here 0 31 1) 1 2 77)
def inSignal : State := toOne (.signal (.here 0 31 1) 1 63 5)
def inRouted : State := toOne (.routed 1 63)
def inCredit : State := toOne (.credit 1 31 1)
def inDead : State := toOne (.dead 1 ⟨77, 2, 0, 31⟩)
def entry0 : QEntry := ⟨77, some (.here 1 3 4)⟩
/-- A descriptor waits in queue 3 of core 0, whose handler waits in WFE. -/
def dispatch0 : State := modCore (mach 3 { full with st := .waiting, wait := some .event }) 0 fun c =>
  { csrSet c 0x701C 0x80000000 with queues := c.queues.set 3 [entry0], gates := tset gateDefault c.gates 0 (some (codeCap, dataCap)) }
def inHandler : State := modCore (mach 3 { full with glink := [(codeCap, dataCap)] }) 0 fun c =>
  { c with pdActive := true, pdThread := 3 }
/-- Cores 0 and 1 are members of network 15; core 1 has arrived or not. -/
def members (a0 a1 : BitVec 16) : State :=
  modCore (modCore (mach 1 full) 0 fun c => { csrSet c 0x8080 0x8000 with barArr := a0 }) 1 fun c =>
    { csrSet c 0x8080 0x8000 with barArr := a1 }
def barFirst : State := members 0 0
def barIn : State := members 0x8000 0
def barLast : State := members 0 0x8000
def barReady : State := { members 0x8000 0x8000 with barDue := 0x8000 }
/-- Both cores are members of every network. -/
def allNets : State := modCore (modCore (mach 1 full) 0 fun c => csrSet c 0x8080 0xFFFF) 1 fun c => csrSet c 0x8080 0xFFFF
/-- Route 63 adds two INT32 words of cores 0 and 1 for core 1, whose queue 3 is open. -/
def reduce : State :=
  devs (modCore (mach 1 { full with ix := 0x1000 }) 1 fun c => csrSet c 0x701C 0x80000000)
    [(0x783F0, 0x4C010001), (0x783F4, 0x00010000), (0x783F8, 0x30000000)]
def full2 : Round := ⟨[(0, [1, 2]), (1, [3, 0x7FFFFFFF])], false⟩
def reduced : State := { reduce with rounds := tset roundDefault reduce.rounds 63 (some full2) }
/-- Route 63 signals flag 63 of cores 0 and 1. -/
def flagsOnly : State := devs (mach 1 full) [(0x783F0, 0x80000000), (0x783F4, 0x00010000), (0x783F8, 63)]
def pair0 : State := mach 1 { full with acc := 0x40490FDB, ix := 3 }
def vec1 : BitVec 512 := 0x3f8000004000000040490fdb7f7fffff00000001800000007f800000ffc12345
/-- V1 to V3 hold numbers. -/
def vecs : State := modCore pair0 0 fun c => { c with vregs := [(1, vec1), (2, vec1 <<< 256), (3, 5)] }
def vop : VecOp :=
  { t := 1, pc := 0x100, vd := some (3, vec1), cls := 3, scale := none, sat := 2, flush := 3, nan := 4, flags := 0x15, trap := false,
    nanEl := none, kept := none }
def numBusy : State := modCore pair0 0 fun c => { c with vq := [vop] }
def numWaits : State := modCore pair0 0 fun c => { c with numPend := [⟨.thread 1, 0x3000, 7, 0⟩] }
def keptDraws : State := modTh vecs 0 1 fun th => { th with kept := some ⟨0x100, .vlsum 0 1 3 1 0 0, 9⟩ }
def handle1 : BitVec 128 := BitVec.ofNat 128 (0x1000 + 8 * 2 ^ 44 + 0x1000 * 2 ^ 64 + 7 * 2 ^ 125)
/-- Handle 63 covers 0x1000 bytes at 0x1000 of local memory. -/
def vecMem : State := modCore vecs 0 fun c => { c with handles := [(63, handle1)] }

theorem witness_TransitArrivals_1 :
    inPost.msgs[0]? = some (Msg.post (Org.here 0 31 1) 1 3 77) ∧
    siteOf inPost (msgDst (Msg.post (Org.here 0 31 1) 1 3 77)) = some 1 ∧
    msgDst (Msg.post (Org.here 0 31 1) 1 3 77) ≠ 1023 ∧
    coreServes inPost 1 = true ∧
    asleep inPost (clusterOf 1) = false ∧
    (∀ (c e g d : Nat) (q : BitVec 2) (w : BitVec 128),
      Msg.post (Org.here 0 31 1) 1 3 77 = Msg.post (Org.here c e g) d q w →
        ∀ (x : Msg),
          x ∈ List.take 0 inPost.msgs →
            ∀ (g' d' : Nat) (q' : BitVec 2) (w' : BitVec 128), x ≠ Msg.post (Org.here c e g') d' q' w') ∧
    flowHolds inPost 0 (Msg.post (Org.here 0 31 1) 1 3 77) = false ∧
    queueOpen (getCore inPost 1) 3 = true ∧
    (getCore inPost 1).queues[3].length < 16 :=
  join5 (by decide +kernel) ⟨by simp, by decide +kernel⟩

theorem witness_TransitArrivals_2 :
    inPostBad.msgs[0]? = some (Msg.post (Org.here 0 31 1) 1 2 77) ∧
    siteOf inPostBad (msgDst (Msg.post (Org.here 0 31 1) 1 2 77)) = some 1 ∧
    msgDst (Msg.post (Org.here 0 31 1) 1 2 77) ≠ 1023 ∧
    coreServes inPostBad 1 = true ∧
    asleep inPostBad (clusterOf 1) = false ∧
    (∀ (c e g d : Nat) (q : BitVec 2) (w : BitVec 128),
      Msg.post (Org.here 0 31 1) 1 2 77 = Msg.post (Org.here c e g) d q w →
        ∀ (x : Msg),
          x ∈ List.take 0 inPostBad.msgs →
            ∀ (g' d' : Nat) (q' : BitVec 2) (w' : BitVec 128), x ≠ Msg.post (Org.here c e g') d' q' w') ∧
    flowHolds inPostBad 0 (Msg.post (Org.here 0 31 1) 1 2 77) = false ∧
    queueRefuses (getCore inPostBad 1) (Fin.ofNat 4 2) = some 2 :=
  join5 (by decide +kernel) ⟨by simp, by decide +kernel⟩

theorem witness_TransitArrivals_3 :
    inSignal.msgs[0]? = some (Msg.signal (Org.here 0 31 1) 1 63 5) ∧
    siteOf inSignal (msgDst (Msg.signal (Org.here 0 31 1) 1 63 5)) = some 1 ∧
    msgDst (Msg.signal (Org.here 0 31 1) 1 63 5) ≠ 1023 ∧
    coreServes inSignal 1 = true ∧
    asleep inSignal (clusterOf 1) = false ∧
    (∀ (c e g d : Nat) (q : BitVec 2) (w : BitVec 128),
      Msg.signal (Org.here 0 31 1) 1 63 5 = Msg.post (Org.here c e g) d q w →
        ∀ (x : Msg),
          x ∈ List.take 0 inSignal.msgs →
            ∀ (g' d' : Nat) (q' : BitVec 2) (w' : BitVec 128), x ≠ Msg.post (Org.here c e g') d' q' w') ∧
    flowHolds inSignal 0 (Msg.signal (Org.here 0 31 1) 1 63 5) = false ∧
    ((∃ org d w, Msg.signal (Org.here 0 31 1) 1 63 5 = Msg.signal org d 63 w) ∨
      ∃ d, Msg.signal (Org.here 0 31 1) 1 63 5 = Msg.routed d 63) ∧
    (∀ (u : Fin 4), (getCore inSignal 1).th[u].wait ≠ some (WaitFor.flag 63)) :=
  join5 (by decide +kernel) ⟨by simp, by decide +kernel, by simp, by decide +kernel⟩

theorem witness_TransitArrivals_4 :
    inRouted.msgs[0]? = some (Msg.routed 1 63) ∧
    siteOf inRouted (msgDst (Msg.routed 1 63)) = some 1 ∧
    msgDst (Msg.routed 1 63) ≠ 1023 ∧
    coreServes inRouted 1 = true ∧
    asleep inRouted (clusterOf 1) = false ∧
    (∀ (c e g d : Nat) (q : BitVec 2) (w : BitVec 128),
      Msg.routed 1 63 = Msg.post (Org.here c e g) d q w →
        ∀ (x : Msg),
          x ∈ List.take 0 inRouted.msgs →
            ∀ (g' d' : Nat) (q' : BitVec 2) (w' : BitVec 128), x ≠ Msg.post (Org.here c e g') d' q' w') ∧
    flowHolds inRouted 0 (Msg.routed 1 63) = false ∧
    ((∃ org d w, Msg.routed 1 63 = Msg.signal org d 63 w) ∨ ∃ d, Msg.routed 1 63 = Msg.routed d 63) ∧
    (∀ (u : Fin 4), (getCore inRouted 1).th[u].wait ≠ some (WaitFor.flag 63)) :=
  join5 (by decide +kernel) ⟨by simp, by decide +kernel, by simp, by decide +kernel⟩

theorem witness_TransitArrivals_5 :
    inCredit.msgs[0]? = some (Msg.credit 1 31 1) ∧
    siteOf inCredit (msgDst (Msg.credit 1 31 1)) = some 1 ∧
    msgDst (Msg.credit 1 31 1) ≠ 1023 ∧
    coreServes inCredit 1 = true ∧
    asleep inCredit (clusterOf 1) = false ∧
    (∀ (c e g d : Nat) (q : BitVec 2) (w : BitVec 128),
      Msg.credit 1 31 1 = Msg.post (Org.here c e g) d q w →
        ∀ (x : Msg),
          x ∈ List.take 0 inCredit.msgs →
            ∀ (g' d' : Nat) (q' : BitVec 2) (w' : BitVec 128), x ≠ Msg.post (Org.here c e g') d' q' w') ∧
    flowHolds inCredit 0 (Msg.credit 1 31 1) = false :=
  join5 (by decide +kernel) ⟨by simp, by decide +kernel⟩

theorem witness_TransitArrivals_6 :
    inDead.msgs[0]? = some (Msg.dead 1 { words := 77, status := 2, kind := 0, origin := 31 }) ∧
    siteOf inDead (msgDst (Msg.dead 1 { words := 77, status := 2, kind := 0, origin := 31 })) = some 1 ∧
    msgDst (Msg.dead 1 { words := 77, status := 2, kind := 0, origin := 31 }) ≠ 1023 ∧
    coreServes inDead 1 = true ∧
    asleep inDead (clusterOf 1) = false ∧
    (∀ (c e g d : Nat) (q : BitVec 2) (w : BitVec 128),
      Msg.dead 1 { words := 77, status := 2, kind := 0, origin := 31 } = Msg.post (Org.here c e g) d q w →
        ∀ (x : Msg),
          x ∈ List.take 0 inDead.msgs →
            ∀ (g' d' : Nat) (q' : BitVec 2) (w' : BitVec 128), x ≠ Msg.post (Org.here c e g') d' q' w') ∧
    flowHolds inDead 0 (Msg.dead 1 { words := 77, status := 2, kind := 0, origin := 31 }) = false ∧
    (getCore inDead 1).dlq.length < 8 ∧
    BitVec.getLsbD (csrGet (getCore inDead 1) 28672) 14 = false :=
  join5 (by decide +kernel) ⟨by simp, by decide +kernel⟩

theorem witness_DispatchAndReturn_1 :
    slotOf dispatch0 (Cpu.core 0) = some 0 ∧
    (getCore dispatch0 0).held = false ∧
    dispatchable dispatch0 0 = true ∧
    nextQueue (getCore dispatch0 0) = some 3 ∧
    (getCore dispatch0 0).queues[3] = [entry0] ∧
    (∀ (d : BitVec 16) (v : BitVec 3) (x : BitVec 16), entry0.org ≠ some (Org.far d v x)) ∧
    (getTh dispatch0 0 (handlerOf (getCore dispatch0 0))).glink.length < 4 ∧
    tileBeforeCommit dispatch0 0 (handlerOf (getCore dispatch0 0)) = none ∧
    gateGet (getCore dispatch0 0) (BitVec.extractLsb' 8 3 (csrGet (getCore dispatch0 0) (28688 + 4 * 3))).toNat =
      some (codeCap, dataCap) :=
  join5 (by decide +kernel) ⟨by simp [entry0], by decide +kernel⟩

theorem witness_DispatchAndReturn_2 :
    slotOf inHandler (Cpu.core 0) = some 0 ∧
    (getCore inHandler 0).held = false ∧
    Ready inHandler (Cpu.core 0) (handlerOf (getCore inHandler 0)) 0 ∧
    (getCore inHandler 0).pdActive = true ∧
    (getCore inHandler 0).pdThread = handlerOf (getCore inHandler 0) ∧
    (getTh inHandler 0 (handlerOf (getCore inHandler 0))).pcc.perms &&& 1024 = 1024 ∧
    (getTh inHandler 0 (handlerOf (getCore inHandler 0))).glink = [] ++ [(codeCap, dataCap)] :=
  join2 (by decide +kernel) ⟨⟨by decide +kernel, by decide +kernel, by decide +kernel⟩, by decide +kernel⟩

theorem witness_PostRegisters :
    slotOf dispatch0 (Cpu.core 0) = some 0 ∧
    (getCore dispatch0 0).held = false ∧
    BitVec.getLsbD (csrGet (getCore dispatch0 0) (28688 + 4 * 3)) 31 = true ∧
    BitVec.getLsbD (0 : Word) (31 : Nat) = false ∧
    (∀ (x : QEntry), x ∈ (getCore dispatch0 0).queues[3] → ∃ c k g, x.org = some (Org.here c k g)) :=
  join4 (by decide +kernel) (by rw [show (getCore dispatch0 0).queues[3] = [entry0] from by decide +kernel]; intro x h; simp at h; subst h; exact ⟨1,
    3, 4, rfl⟩)

theorem witness_BarrierInstructions_1 :
    Ready barFirst (Cpu.core 0) 1 0 ∧
    (getTh barFirst 0 1).pcc.perms &&& 2048 = 2048 ∧
    isMember (getCore barFirst 0) 15 = true ∧
    (1 ∈ barMembers barFirst 15) ∧
    (getCore barFirst 1).barArr.getLsbD 15 = false ∧
    (getTh barFirst 0 1).pend = [] ∧
    (getCore barFirst 0).barArr.getLsbD 15 = false :=
  ⟨⟨by decide +kernel, by decide +kernel, by decide +kernel⟩, by decide +kernel⟩

theorem witness_BarrierInstructions_2 :
    Ready barIn (Cpu.core 0) 1 0 ∧
    (getTh barIn 0 1).pcc.perms &&& 2048 = 2048 ∧
    isMember (getCore barIn 0) 15 = true ∧
    (1 ∈ barMembers barIn 15) ∧
    (getCore barIn 1).barArr.getLsbD 15 = false ∧
    (getTh barIn 0 1).pend = [] ∧
    (getCore barIn 0).barArr.getLsbD 15 = true :=
  ⟨⟨by decide +kernel, by decide +kernel, by decide +kernel⟩, by decide +kernel⟩

theorem witness_BarrierInstructions_3 :
    Ready barFirst (Cpu.core 0) 1 0 ∧
    (getTh barFirst 0 1).pcc.perms &&& 2048 = 2048 ∧
    isMember (getCore barFirst 0) 14 = false :=
  ⟨⟨by decide +kernel, by decide +kernel, by decide +kernel⟩, by decide +kernel⟩

theorem witness_BarrierRelease_1 :
    slotOf barLast (Cpu.core 0) = some 0 ∧
    (getCore barLast 0).held = false ∧
    isMember (getCore barLast 0) 15 = true ∧
    (getCore barLast 0).barArr.getLsbD 15 = false ∧
    spans barLast 15 = false ∧
    (0 ∈ barMembers barLast 15) ∧
    (∀ (m : Nat), m ∈ barMembers barLast 15 → m ≠ 0 → (getCore barLast m).barArr.getLsbD 15 = true) :=
  by decide +kernel

theorem witness_BarrierRelease_2 :
    barReady.barDue.getLsbD 15 = true ∧
    (∀ (p : Nat × Option Nat),
      p ∈ barReady.coreSite → ∀ (x : Nat), p.snd = some x → asleep barReady (clusterOf x) = false) :=
  by decide +kernel

theorem witness_DebugFlagsAndMembership :
    slotOf allNets (Cpu.core 0) = some 0 ∧
    (getCore allNets 0).held = false ∧
    (∀ (u : Fin 4), (getCore allNets 0).th[u].wait ≠ some (WaitFor.flag 63)) ∧
    allNets.barDue.getLsbD 15 = false ∧
    spans allNets 15 = false ∧
    (∀ (k : Nat), k < 16 → ∃ m, m ≠ 0 ∧ m ∈ barMembers allNets k ∧ (getCore allNets m).barArr.getLsbD k = false) :=
  join5 (by decide +kernel) (by intro k hk; refine ⟨1, by decide, ?_, ?_⟩ <;> revert k <;> decide +kernel)

theorem witness_MeshRoutes_1 :
    dark reduce = false ∧
    Ready reduce (Cpu.core 0) 1 0 ∧
    logicalOf reduce 0 = some 0 ∧
    (getTh reduce 0 1).pcc.perms &&& 1024 = 1024 ∧
    1 ≠ handlerOf (getCore reduce 0) ∧
    capCheck (getTh reduce 0 1).ddc (BitVec.toNat (getTh reduce 0 1).ix) (mrBytes reduce 63) pLOAD = none ∧
    BitVec.toNat (getTh reduce 0 1).ix % 64 = 0 ∧
    BitVec.toNat (getTh reduce 0 1).ix + mrBytes reduce 63 ≤ 524288 ∧
    Clean (getCore reduce 0).mem (BitVec.toNat (getTh reduce 0 1).ix) (mrBytes reduce 63) ∧
    tileHolds reduce 0 (BitVec.toNat (getTh reduce 0 1).ix) (mrBytes reduce 63) false = false ∧
    mrClass reduce 63 = 1 ∧
    mrHasMembers reduce 63 = true ∧
    mrMember reduce 63 0 = true ∧
    (∀ (p : Nat × List Word),
      p ∈ ((tget roundDefault reduce.rounds 63).getD { parts := [], poison := false }).parts → p.fst ≠ 0) :=
  ⟨by decide +kernel, ⟨by decide +kernel, by decide +kernel, by decide +kernel⟩,
    join4 (by decide +kernel) (join2 (by decide +kernel) ⟨by unfold Clean; decide +kernel, by decide +kernel⟩)⟩

theorem witness_MeshRoutes_2 :
    dark flagsOnly = false ∧
    Ready flagsOnly (Cpu.core 0) 1 0 ∧
    logicalOf flagsOnly 0 = some 0 ∧
    5 < 6 ∧
    (getTh flagsOnly 0 1).pcc.perms &&& 2048 = 2048 ∧
    scopeFault (getCore flagsOnly 0) (BitVec.extractLsb' 0 6 (mrDest flagsOnly 63)) 5 = none ∧
    (getTh flagsOnly 0 1).pend = [] ∧
    mrClass flagsOnly 63 = 2 ∧
    mrHasMembers flagsOnly 63 = true :=
  ⟨by decide +kernel, ⟨by decide +kernel, by decide +kernel, by decide +kernel⟩, by decide +kernel⟩

theorem witness_MeshRoutes_3 :
    dark reduced = false ∧
    tget roundDefault reduced.rounds 63 = some full2 ∧
    mrClass reduced 63 = 1 ∧
    mrHasMembers reduced 63 = true ∧
    roundFull reduced 63 full2 = true ∧
    siteOf reduced (mrRoot reduced 63) = some 1 ∧
    asleep reduced (clusterOf 1) = false ∧
    coreServes reduced 1 = true ∧
    treesOf reduced 63 = [] ∧
    full2.poison = false ∧
    queueRefuses (getCore reduced 1) (Fin.ofNat 4 (BitVec.extractLsb' 28 2 (mrDest reduced 63)).toNat) = none ∧
    0 < (List.map (fun x => x.fst) (roundResult reduced 63 full2)).length :=
  by decide +kernel

theorem witness_NumericSettings_1 :
    slotOf pair0 (Cpu.core 0) = some 0 ∧
    (getCore pair0 0).held = false ∧
    (getCore pair0 0).vq = [] ∧
    (getCore pair0 0).tq = [] ∧
    (getCore pair0 0).numPend = [] ∧
    Ready pair0 (Cpu.core 0) 1 0 ∧
    checkCsr (getCore pair0 0).th[1] (getCore pair0 0).th[1].ddc 1060864 4 pSTORE = none :=
  join5 (by decide +kernel) ⟨⟨by decide +kernel, by decide +kernel, by decide +kernel⟩, by decide +kernel⟩

theorem witness_NumericSettings_2 :
    slotOf numBusy (Cpu.core 0) = some 0 ∧
    (getCore numBusy 0).held = false ∧
    (getCore numBusy 0).vq ≠ [] ∧
    Ready numBusy (Cpu.core 0) 1 0 ∧
    checkCsr (getCore numBusy 0).th[1] (getCore numBusy 0).th[1].ddc 1060864 4 pSTORE = none :=
  join3 (by decide +kernel) ⟨⟨by decide +kernel, by decide +kernel, by decide +kernel⟩, by decide +kernel⟩

theorem witness_NumericSettings_3 :
    slotOf numWaits (Cpu.core 0) = some 0 ∧
    (getCore numWaits 0).held = false ∧
    (getCore numWaits 0).vq = [] ∧
    (getCore numWaits 0).tq = [] ∧
    (getCore numWaits (0 : Nat)).numPend =
      [{ who := Requester.thread (1 : Fin (4 : Nat)), off := (12288 : Nat),
          value := BitVec.setWidth (64 : Nat) (7 : Word), ahead := (0 : Nat) : PendSet }] :=
  by decide +kernel

theorem witness_VectorArithmetic :
    Ready vecs (Cpu.core 0) 1 0 ∧
    (getCore vecs 0).numPend = [] ∧
    vFree (getCore vecs 0) 1 ∧
    vFree (getCore vecs 0) 2 ∧
    vFree (getCore vecs 0) 3 ∧
    vvalOk (getCore vecs 0) 1 0 = true ∧
    vvalOk (getCore vecs 0) 2 0 = true ∧
    vvalOk (getCore vecs 0) 3 0 = true ∧
    vscaled (getCore vecs 0) 3 = false :=
  ⟨⟨by decide +kernel, by decide +kernel, by decide +kernel⟩, by decide +kernel, by unfold vFree; decide +kernel,
    by unfold vFree; decide +kernel, by unfold vFree; decide +kernel, by decide +kernel⟩

theorem witness_VectorBits_1 :
    Ready vecs (Cpu.core 0) 1 0 ∧
    (getCore vecs 0).numPend = [] ∧
    vFree (getCore vecs 0) 1 ∧
    vFree (getCore vecs 0) 2 ∧
    vFree (getCore vecs 0) 0 ∧
    6 ≤ 6 ∧
    vvalOk (getCore vecs 0) 1 0 = true ∧
    vvalOk (getCore vecs 0) 2 0 = true ∧
    vvalOk (getCore vecs 0) 3 0 = true ∧
    vscaled (getCore vecs 0) 1 = vscaled (getCore vecs 0) 2 ∧
    vscaled (getCore vecs 0) 1 = vscaled (getCore vecs 0) 3 ∧
    vfmtOk (getCore vecs 0) 0 = true ∧
    8 ≤ fmtWidth 0 :=
  ⟨⟨by decide +kernel, by decide +kernel, by decide +kernel⟩, by decide +kernel, by unfold vFree; decide +kernel,
    by unfold vFree; decide +kernel, by unfold vFree; decide +kernel, by decide +kernel⟩

theorem witness_VectorBits_2 :
    Ready vecs (Cpu.core 0) 1 0 ∧
    (getCore vecs 0).numPend = [] ∧
    vFree (getCore vecs 0) 1 ∧
    vFree (getCore vecs 0) 2 ∧
    vFree (getCore vecs 0) 0 ∧
    (8 = 12 ∨ 8 = 8) ∧
    0 ≤ 6 ∧
    vvalOk (getCore vecs 0) 1 8 = true ∧
    vvalOk (getCore vecs 0) 2 8 = true ∧
    vvalOk (getCore vecs 0) 3 8 = true ∧
    vscaled (getCore vecs 0) 1 = vscaled (getCore vecs 0) 2 ∧
    vscaled (getCore vecs 0) 1 = vscaled (getCore vecs 0) 3 ∧
    vfmtOk (getCore vecs 0) 8 = true ∧
    8 ≤ fmtWidth 8 :=
  ⟨⟨by decide +kernel, by decide +kernel, by decide +kernel⟩, by decide +kernel, by unfold vFree; decide +kernel,
    by unfold vFree; decide +kernel, by unfold vFree; decide +kernel, by decide +kernel⟩

theorem witness_VectorReductions :
    Ready vecs (Cpu.core 0) 1 0 ∧
    (getCore vecs 0).numPend = [] ∧
    vFree (getCore vecs 0) 1 ∧
    vFree (getCore vecs 0) 2 ∧
    vFree (getCore vecs 0) 3 ∧
    vvalOk (getCore vecs 0) 1 0 = true ∧
    vvalOk (getCore vecs 0) 3 0 = true ∧
    vscaled (getCore vecs 0) 3 = false ∧
    coreMode (getCore vecs 0) ≠ NMode.guist ∧
    vvalOk (getCore vecs 0) 2 0 = true ∧
    lanesOf 0 ≤ lanesOf 0 ∧
    lanesOf 0 / lanesOf 0 ≤ 16 ∧
    0 < lanesOf 0 / lanesOf 0 :=
  ⟨⟨by decide +kernel, by decide +kernel, by decide +kernel⟩, by decide +kernel, by unfold vFree; decide +kernel,
    by unfold vFree; decide +kernel, by unfold vFree; decide +kernel, by decide +kernel⟩

theorem witness_LongSums_1 :
    Ready vecs (Cpu.core 0) 1 0 ∧
    (getCore vecs 0).numPend = [] ∧
    vFree (getCore vecs 0) 1 ∧
    vFree (getCore vecs 0) 3 ∧
    vvalOk (getCore vecs 0) 1 0 = true ∧
    vvalOk (getCore vecs 0) 3 0 = true ∧
    vscaled (getCore vecs 0) 3 = false ∧
    coreMode (getCore vecs 0) ≠ NMode.guist ∧
    ((∀ (x : BitVec 64),
          (getCore vecs 0).th[1].kept ≠
            some { pc := (getCore vecs 0).th[1].pc, instr := Instr.vlsum 0 1 3 1 0 0, start := x }) ∧
        (getCore vecs 0).seed = (getCore vecs 0).seed ∧
          (drawList 16 (getCore vecs 0).seed).snd =
            (drawList (min (lanesOf 0) (lanesOf 0)) (getCore vecs 0).seed).snd ∨
      (getCore vecs 0).th[1].kept =
          some
            { pc := (getCore vecs 0).th[1].pc, instr := Instr.vlsum 0 1 3 1 0 0,
              start := (getCore vecs 0).seed } ∧
        (drawList 16 (getCore vecs 0).seed).snd = (getCore vecs 0).seed) :=
  ⟨⟨by decide +kernel, by decide +kernel, by decide +kernel⟩, by decide +kernel, by unfold vFree; decide +kernel,
    by unfold vFree; decide +kernel,
    join4 (by decide +kernel) (.inl ⟨fun x h => (by rw [show (getCore vecs 0).th[1].kept = none from by decide +kernel] at h; cases h),
    rfl, by decide +kernel⟩)⟩

theorem witness_LongSums_2 :
    Ready keptDraws (Cpu.core 0) 1 0 ∧
    (getCore keptDraws 0).numPend = [] ∧
    vFree (getCore keptDraws 0) 1 ∧
    vFree (getCore keptDraws 0) 3 ∧
    vvalOk (getCore keptDraws 0) 1 0 = true ∧
    vvalOk (getCore keptDraws 0) 3 0 = true ∧
    vscaled (getCore keptDraws 0) 3 = false ∧
    coreMode (getCore keptDraws 0) ≠ NMode.guist ∧
    ((∀ (x : BitVec 64),
          (getCore keptDraws 0).th[1].kept ≠
            some { pc := (getCore keptDraws 0).th[1].pc, instr := Instr.vlsum 0 1 3 1 0 0, start := x }) ∧
        9 = (getCore keptDraws 0).seed ∧
          (getCore keptDraws 0).seed = (drawList (min (lanesOf 0) (lanesOf 0)) (getCore keptDraws 0).seed).snd ∨
      (getCore keptDraws 0).th[1].kept =
          some { pc := (getCore keptDraws 0).th[1].pc, instr := Instr.vlsum 0 1 3 1 0 0, start := 9 } ∧
        (getCore keptDraws 0).seed = (getCore keptDraws 0).seed) :=
  ⟨⟨by decide +kernel, by decide +kernel, by decide +kernel⟩, by decide +kernel, by unfold vFree; decide +kernel,
    by unfold vFree; decide +kernel, join4 (by decide +kernel) (.inr ⟨by decide +kernel, rfl⟩)⟩

theorem witness_VectorMemory :
    Ready vecMem (Cpu.core 0) 1 0 ∧
    (getCore vecMem 0).numPend = [] ∧
    (getCore vecMem 0).rebind = none ∧
    (getCore vecMem 0).tq = [] ∧
    vFree (getCore vecMem 0) 2 ∧
    localHandle (getCore vecMem 0) 0 63 false 64
        (63 * 64 + if false = true then BitVec.toNat (getCore vecMem 0).th[1].ix else 0) 64 =
      Except.ok 8128 ∧
    Clean (getCore vecMem 0).mem 8128 64 ∧
    localHandle (getCore vecMem 0) 0 63 true 64
        (63 * 64 + if false = true then BitVec.toNat (getCore vecMem 0).th[1].ix else 0) 64 =
      Except.ok 8128 :=
  ⟨⟨by decide +kernel, by decide +kernel, by decide +kernel⟩,
    join3 (by decide +kernel) ⟨by unfold vFree; decide +kernel, okIs_eq (by decide +kernel),
    by unfold Clean; decide +kernel, okIs_eq (by decide +kernel)⟩⟩

/-! ### Vectors, tiles, handles, streams and couriers -/

def hdl (space dev base len : Nat) : BitVec 128 :=
  BitVec.ofNat 128 (base + space * 2 ^ 44 + dev * 2 ^ 48 + len * 2 ^ 64 + 7 * 2 ^ 125)
def nanTrap : VecOp := { vop with trap := true, nanEl := some 3 }
def retire1 : State := modCore pair0 0 fun c => { c with vq := [vop] }
def retire2 : State := modCore pair0 0 fun c => { c with vq := [nanTrap] }
/-- Tiles 0 and 1 have 8 rows and 8 columns, one element a lane, and the tile engine runs fast arithmetic. -/
def tileState : State :=
  modCore (withCsrs (mach 1 full) [(0x4000, 0x0000F007), (0x4004, 0x0000F007)]) 0 fun c =>
    { c with handles := [(63, handle1)] }
def top : TileOp :=
  { t := 1, pc := 0x100, isMatrix := false, issued := 0, occ := 8, lat := 11, reads := [0], writes := [1], isMma := none,
    span := some (0x2000, 2), spanWrite := true, ttw := [(5, 9)], scw := [(1, 2)], atw := [(7, 8)], atType := none, memw := [1, 2],
    cls := 5, sat := 1, flush := 0, nan := 0, flags := 1, nanEl := none, trap := false, poison := none, kept := none, fences := [] }
def tileBusy : State := modCore (mach 1 full) 0 fun c => { c with tq := [top] }
def tileDue : State := modCl tileBusy 0 fun k => { k with cyc := 11 }
/-- A table of handles at 0x100. -/
def rebindSt : State := modCore (mach 1 full) 0 fun c => { c with mem := memPutBytes c.mem 0x100 (leBytes 16 handle1.toNat) }
def rebound (d : BitVec 128) : State := modCore (mach 1 full) 0 fun c => { c with rebind := some ⟨.window, 0, 63, 0x100, [d], 12⟩ }
def reboundOk : State := rebound handle1
def reboundBad : State := rebound ((3 : BitVec 128) <<< 125)
def rbOk : Rebind := ⟨.window, 0, 63, 0x100, [handle1], 12⟩
def rbBad : Rebind := ⟨.window, 0, 63, 0x100, [(3 : BitVec 128) <<< 125], 12⟩
/-- Unit 3 of core 0 has SCTL `ctl`, program word `w` at 0, and state `su`; handle 0 is a ring of 512 bytes at 0x2000. -/
def unitSt (ctl w : Word) (su : StreamUnit) : State :=
  modCore (withCsrs (devs (mach 1 full) [(0x70000, 5)]) [(0x6460, ctl), (0x6300, w), (0x6484, 8)]) 0 fun c =>
    { c with handles := [(0, hdl 8 0 0x2000 512)], su := c.su.set 3 su }
def ring : StreamUnit := { StreamUnit.reset with ringBase := 0x2000, ringLen := 512 }
def unitIdle : State := unitSt 0 0 ring
def unitRun : State := unitSt 0 0 { ring with st := .run, held := 1 }
def unitOut : State := unitSt 0x80000000 0 { ring with st := .run, held := 1 }
def moving : StreamUnit := { ring with st := .run, far := some (hdl 2 5 0 0x1000) }
def ringHeld : State := unitSt 0 0x70000007 { moving with st := .waitRing, held := 1 }
/-- Unit 3 has room for one unit more, at the end of half 0. -/
def lastRoom : StreamUnit := { moving with held := 2, pos := 3, filled := 3 }
def skipRun : State := unitSt 0 0x70000007 lastRoom
def xferRun : State := unitSt 0 0x60000007 lastRoom
def skipWait : State := unitSt 0 0x70000007 { moving with held := 2, asked := List.replicate 4 ⟨0, 0, .blank⟩ }
def asks (w : SWhat) : State := unitSt 0 0x60000007 { lastRoom with st := .waitData, asked := [⟨0, 0, w⟩] }
def xferWait : State := asks (.here 2 0)
def xferBad : State := asks (.here 2 0x30000000)
def xferFar : State := asks (.far 7 none)
def rowIn : State := unitSt 0 0x60000007 { ring with st := .run, far := some (hdl 2 5 0 0x1000), rows := [[⟨7, 0⟩]] }
def outAck : State := unitSt 0x80000000 0x60000007
  { ring with st := .waitData, far := some (hdl 2 5 0 0x1000), writes := [⟨7, true, 0, 0, some false⟩], held := 0 }
def loop7 : StreamUnit := { ring with loops := [⟨7, 0, 2, 1⟩] }
/-- The ring is full, and the run ends. -/
def endFull : State := unitSt 0 0 { ring with st := .waitRing, held := 2 }
def markFull : State := unitSt 0 0x90000000 { ring with st := .waitRing, held := 2 }
def skipLast : State := unitSt 0 0x70000000 lastRoom
def metRow : State := unitSt 0 0 { lastRoom with pc := 1, asked := [⟨0, 0, .blank⟩], met := some .finish }
/-- Unit 3 of core 0 has a fault that its owner, thread 1, is to take. -/
def streamFault : State :=
  modCore (withCsrs (mach 1 { run with sfc := frames }) [(0x6460, 0x04000000)]) 0 fun c =>
    { c with su := c.su.set 3 { ring with fault := [(5, BitVec.ofNat 32 (3 * 2 ^ 24 + 7 * 2 ^ 16 + 63))] } }
/-- The command block at 0x1000 copies 64 bytes from shared SRAM to local memory. -/
def block0 : List Byte := leBytes 4 0 ++ leBytes 4 64 ++ leBytes 4 64 ++ leBytes 4 0 ++ leBytes 4 0x10000100 ++ leBytes 12 0
def srcH : BitVec 128 := hdl 2 5 0 0x1000
def dstH : BitVec 128 := hdl 8 0 0x2000 0x1000
/-- Channel 15 of cluster 0 belongs to core 0. -/
def doorbell0 : State :=
  modCore (devs (mach 1 full) [(0x70000, 5), (chBase 15 + 0x28, 0x80000000)]) 0 fun c =>
    { c with handles := [(0, srcH), (1, dstH)], mem := memPutBytes c.mem 0x1000 block0 }
def chSt (regs : List (Nat × Word)) (ch : Channel) : State :=
  modCh (devs (mach 1 full) ((0x70000, 5) :: regs)) 15 fun _ => ch
def chGo : State := chSt [(chBase 15 + 0x10, 64), (chBase 15 + 0xC, 0x00052000)] Channel.reset
def chIdle : State := chSt [] Channel.reset
def chActive : State := chSt [] { Channel.reset with st := .active, total := 128 }
def chPausedSt : State := chSt [] { Channel.reset with st := .paused, total := 128 }
def chPausing : State := chSt [(chBase 15 + 0x18, 0x80000000)] { Channel.reset with st := .pausing, total := 128 }
def chUnpausing : State := chSt [] { Channel.reset with st := .pausing, total := 128 }
def chFill : State := chSt [(chBase 15 + 0x8, 0x2FFFFFC0), (chBase 15 + 0xC, 0x00052000), (chBase 15 + 0x18, 0x02000000), (chBase 15 + 0x10, 64)]
  { Channel.reset with st := .active, total := 64 }
def chDone : State := chSt [] { Channel.reset with st := .active, total := 128, doneBytes := 128, block := some (0, 0x1000) }
def farGo : State := modCore (mach 1 full) 0 fun c => { csrSet c 0x6498 64 with handles := [(0, srcH), (1, dstH)] }
def farGo5 : State := devs farGo [(0x70000, 5)]
def far0 : FarRead := ⟨0, 2, 5, 64, 0x2000, true, 63⟩
def farIn : State := modCore (devs (mach 1 full) [(0x70000, 5)]) 0 fun c => { c with far := [far0] }

theorem witness_VectorRetires_1 :
    slotOf retire1 (Cpu.core 0) = some 0 ∧
    (getCore retire1 0).held = false ∧
    (getCore retire1 0).vq = [vop] ∧
    (getCore retire1 0).vscalePend = [] ∧
    (vop.trap = false ∨ vop.nanEl = none) :=
  by decide +kernel

theorem witness_VectorRetires_2 :
    slotOf retire2 (Cpu.core 0) = some 0 ∧
    (getCore retire2 0).held = false ∧
    (getCore retire2 0).vq = [nanTrap] ∧
    (getCore retire2 0).vscalePend = [] ∧
    nanTrap.trap = true ∧
    nanTrap.nanEl = some 3 :=
  by decide +kernel

theorem witness_VectorRetires_3 :
    slotOf pair0 (Cpu.core 0) = some 0 ∧
    (getCore pair0 0).held = false ∧
    (getCore pair0 0).vq = [] :=
  by decide +kernel

theorem witness_TileIssues :
    Ready tileState (Cpu.core 0) 1 0 ∧
    (getCore tileState 0).th[1].pcc.perms &&& 16384 = 16384 ∧
    (getCore tileState 0).numPend = [] ∧
    (getCore tileState 0).tcfgPend = [] ∧
    (getCore tileState 0).tq = [] ∧
    (getCore tileState 0).rebind = none ∧
    coreMode (getCore tileState 0) = NMode.fast ∧
    (∀ (role k : Nat), ownFault (getCore tileState 0) 1 role k = none) ∧
    mmaShape 3 0 1 (getCore tileState 0) = none ∧
    taccShape 0 false 0 (getCore tileState 0) = none ∧
    tupdShape 0 3 false 0 (getCore tileState 0) = none ∧
    fmtReserved 0 = false ∧
    tileBad (getCore tileState 0) 0 0 = none ∧
    (localHandle (getCore tileState 0) 1 63 false 64
          (0 * 64 + if false = true then BitVec.toNat (getCore tileState 0).th[1].ix else 0)
          (imageSize (getCore tileState 0) 0 0 false) =
        Except.ok 4096 ∧
      (false = false → Clean (getCore tileState 0).mem 4096 (imageSize (getCore tileState 0) 0 0 false))) ∧
    (localHandle (getCore tileState 0) 1 63 true 64
          (0 * 64 + if false = true then BitVec.toNat (getCore tileState 0).th[1].ix else 0)
          (imageSize (getCore tileState 0) 0 0 false) =
        Except.ok 4096 ∧
      (true = false → Clean (getCore tileState 0).mem 4096 (imageSize (getCore tileState 0) 0 0 false))) ∧
    (localHandle (getCore tileState 0) 1 63 false 64
          (0 * 64 + if false = true then BitVec.toNat (getCore tileState 0).th[1].ix else 0) 128 =
        Except.ok 4096 ∧
      (false = false → Clean (getCore tileState 0).mem 4096 128)) ∧
    (localHandle (getCore tileState 0) 1 63 true 64
          (0 * 64 + if false = true then BitVec.toNat (getCore tileState 0).th[1].ix else 0) 128 =
        Except.ok 4096 ∧
      (true = false → Clean (getCore tileState 0).mem 4096 128)) ∧
    (localHandle (getCore tileState 0) 1 63 true 64
          (0 * 64 + if false = true then BitVec.toNat (getCore tileState 0).th[1].ix else 0) (32 * pitch 0 32) =
        Except.ok 4096 ∧
      (true = false → Clean (getCore tileState 0).mem 4096 (32 * pitch 0 32))) ∧
    (getCore tileState 0).th[1].kept = none :=
  ⟨⟨by decide +kernel, by decide +kernel, by decide +kernel⟩,
    join4 (by decide +kernel) (join2 (by decide +kernel) ⟨by intro role k; simp [ownFault,
    show csrGet (getCore tileState 0) 0x4020 = 0 by decide +kernel,
    show csrGet (getCore tileState 0) 0x4024 = 0 by decide +kernel, bitOf, bits],
    join5 (by decide +kernel) ⟨⟨okIs_eq (by decide +kernel), fun _ => by unfold Clean; decide +kernel⟩,
    ⟨okIs_eq (by decide +kernel), fun _ => by unfold Clean; decide +kernel⟩, ⟨okIs_eq (by decide +kernel),
    fun _ => by unfold Clean; decide +kernel⟩, ⟨okIs_eq (by decide +kernel),
    fun _ => by unfold Clean; decide +kernel⟩, ⟨okIs_eq (by decide +kernel),
    fun _ => by unfold Clean; decide +kernel⟩, by decide +kernel⟩⟩)⟩

theorem witness_TileRetires_1 :
    slotOf tileBusy (Cpu.core 0) = some 0 ∧
    (getCore tileBusy 0).held = false ∧
    (getCore tileBusy 0).tq = [top] ∧
    (getCore tileBusy 0).tcfgPend = [] ∧
    (∀ (u : Fin 4), (getCore tileBusy 0).th[u].block ≠ some Block.tfence) ∧
    top.poison = none ∧
    (top.trap = false ∨ top.nanEl = none) ∧
    clockOf tileBusy 0 < top.issued + top.lat :=
  by decide +kernel

theorem witness_TileRetires_2 :
    slotOf tileDue (Cpu.core 0) = some 0 ∧
    (getCore tileDue 0).held = false ∧
    (getCore tileDue 0).tq = [top] ∧
    (getCore tileDue 0).tcfgPend = [] ∧
    (∀ (u : Fin 4), (getCore tileDue 0).th[u].block ≠ some Block.tfence) ∧
    top.poison = none ∧
    (top.trap = false ∨ top.nanEl = none) ∧
    top.issued + top.lat ≤ clockOf tileDue 0 :=
  by decide +kernel

theorem witness_TileRetires_3 :
    slotOf pair0 (Cpu.core 0) = some 0 ∧
    (getCore pair0 0).held = false ∧
    (getCore pair0 0).tq = [] ∧
    (getCore pair0 0).tcfgPend = [] ∧
    (∀ (u : Fin 4), (getCore pair0 0).th[u].block ≠ some Block.tfence) ∧
    9 < 10 :=
  by decide +kernel

theorem witness_HandleRebind_1 :
    slotOf rebindSt (Cpu.core 0) = some 0 ∧
    (getCore rebindSt 0).held = false ∧
    (getCore rebindSt 0).rebind = none ∧
    (0 : Nat) < (BitVec.extractLsb' (8 : Nat) (7 : Nat) (1048895 : Word)).toNat ∧
    (BitVec.extractLsb' (0 : Nat) (6 : Nat) (1048895 : Word)).toNat +
        (BitVec.extractLsb' (8 : Nat) (7 : Nat) (1048895 : Word)).toNat ≤
      (64 : Nat) ∧
    (16 : Nat) * (BitVec.extractLsb' (16 : Nat) (15 : Nat) (1048895 : Word)).toNat +
        (16 : Nat) * (BitVec.extractLsb' (8 : Nat) (7 : Nat) (1048895 : Word)).toNat ≤
      (524288 : Nat) ∧
    Clean (getCore rebindSt (0 : Nat)).mem
      ((16 : Nat) * (BitVec.extractLsb' (16 : Nat) (15 : Nat) (1048895 : Word)).toNat)
      ((16 : Nat) * (BitVec.extractLsb' (8 : Nat) (7 : Nat) (1048895 : Word)).toNat) ∧
    Ready rebindSt (Cpu.core 0) 1 0 ∧
    checkCsr (getCore rebindSt 0).th[1] (getCore rebindSt 0).th[1].ddc 1070080 4 pSTORE = none ∧
    capCheck (getCore rebindSt (0 : Nat)).th[(1 : Fin (4 : Nat))].ddc
        ((16 : Nat) * (BitVec.extractLsb' (16 : Nat) (15 : Nat) (1048895 : Word)).toNat)
        ((16 : Nat) * (BitVec.extractLsb' (8 : Nat) (7 : Nat) (1048895 : Word)).toNat) pLOAD =
      none ∧
    (∀ (i : Nat),
      i < (BitVec.extractLsb' (8 : Nat) (7 : Nat) (1048895 : Word)).toNat →
        descBad
            (BitVec.ofNat (128 : Nat)
              (memNat (getCore rebindSt (0 : Nat)).mem
                ((16 : Nat) * (BitVec.extractLsb' (16 : Nat) (15 : Nat) (1048895 : Word)).toNat + (16 : Nat) * i)
                (16 : Nat))) =
          none) :=
  join4 (by decide +kernel) (join2 (by decide +kernel) ⟨by unfold Clean; decide +kernel, ⟨by decide +kernel,
    by decide +kernel, by decide +kernel⟩, by decide +kernel⟩)

theorem witness_HandleRebind_2 :
    slotOf reboundOk (Cpu.core 0) = some 0 ∧
    (getCore reboundOk 0).held = false ∧
    (getCore reboundOk 0).rebind = some rbOk ∧
    rbOk.who = Requester.window ∧
    (∀ (d : BitVec 128), d ∈ rbOk.descs → descBad d = none) :=
  join4 (by decide +kernel) (by intro d hd; rw [show d = handle1 by simpa [rbOk] using hd]; decide +kernel)

theorem witness_HandleRebind_3 :
    slotOf reboundBad (Cpu.core 0) = some 0 ∧
    (getCore reboundBad 0).held = false ∧
    (getCore reboundBad 0).rebind = some rbBad ∧
    rbBad.who = Requester.window ∧
    (∃ d, d ∈ rbBad.descs ∧ descBad d ≠ none) :=
  join4 (by decide +kernel) ⟨(3 : BitVec 128) <<< 125, by simp [rbBad], by decide +kernel⟩

theorem witness_StreamControl_1 :
    slotOf unitIdle (Cpu.core 0) = some 0 ∧
    (getCore unitIdle 0).held = false ∧
    ((getCore unitIdle 0).su[3].st = SState.idle ∨ (getCore unitIdle 0).su[3].st = SState.fault) ∧
    ringOk (handleGet (getCore unitIdle 0) (BitVec.extractLsb' 8 6 (sctl (getCore unitIdle 0) 3)).toNat) = true ∧
    Ready unitIdle (Cpu.core 0) 1 0 ∧
    checkCsr (getCore unitIdle 0).th[1] (getCore unitIdle 0).th[1].ddc (1074180 + 32 * 3) 4 pSTORE = none ∧
    (getCore unitIdle 0).su[3].writes = [] ∧
    unitIdle.fab.behind = [] ∧
    (getCore unitIdle 0).su[3].held.getLsbD (getCore unitIdle 0).su[3].nextHalf.toNat = false :=
  join4 (by decide +kernel) ⟨⟨by decide +kernel, by decide +kernel, by decide +kernel⟩, by decide +kernel⟩

theorem witness_StreamControl_2 :
    slotOf unitRun (Cpu.core 0) = some 0 ∧
    (getCore unitRun 0).held = false ∧
    (getCore unitRun 0).su[3].st ≠ SState.idle ∧
    (getCore unitRun 0).su[3].st ≠ SState.fault ∧
    (getCore unitRun 0).su[3].writes = [] ∧
    unitRun.fab.behind = [] ∧
    (getCore unitRun 0).su[3].held.getLsbD (getCore unitRun 0).su[3].nextHalf.toNat = true ∧
    isOut (getCore unitRun 0) 3 = false :=
  by decide +kernel

theorem witness_StreamControl_3 :
    slotOf outAck (Cpu.core 0) = some 0 ∧
    (getCore outAck 0).held = false ∧
    (getCore outAck 0).su[3].st ≠ SState.idle ∧
    (getCore outAck 0).su[3].st ≠ SState.fault ∧
    (getCore outAck 0).su[3].writes ≠ [] ∧
    outAck.fab.behind = [] ∧
    (getCore outAck 0).su[3].held.getLsbD (getCore outAck 0).su[3].nextHalf.toNat = false :=
  by decide +kernel

theorem witness_StreamControl_4 :
    slotOf unitOut (Cpu.core 0) = some 0 ∧
    (getCore unitOut 0).held = false ∧
    (getCore unitOut 0).su[3].st ≠ SState.idle ∧
    (getCore unitOut 0).su[3].st ≠ SState.fault ∧
    (getCore unitOut 0).su[3].writes = [] ∧
    unitOut.fab.behind = [] ∧
    (getCore unitOut 0).su[3].held.getLsbD (getCore unitOut 0).su[3].nextHalf.toNat = true ∧
    isOut (getCore unitOut 0) 3 = true ∧
    4 ≤ (getCore unitOut 0).su[3].ringLen / 128 :=
  by decide +kernel

theorem witness_StreamControl_5 :
    slotOf unitOut (Cpu.core 0) = some 0 ∧
    (getCore unitOut 0).held = false ∧
    (getCore unitOut 0).su[3].st ≠ SState.idle ∧
    (getCore unitOut 0).su[3].st ≠ SState.fault ∧
    (getCore unitOut 0).su[3].writes = [] ∧
    unitOut.fab.behind = [] ∧
    (getCore unitOut 0).su[3].held.getLsbD (getCore unitOut 0).su[3].nextHalf.toNat = true ∧
    isOut (getCore unitOut 0) 3 = true ∧
    (getCore unitOut 0).su[3].ringLen / 128 < 5 :=
  by decide +kernel

theorem witness_StreamPrograms_1 :
    (∀ (y : SLoop), y ∈ ring.loops → y.level ≠ 7) ∧
    (ring.loops = [] ∨ ∃ y rest, ring.loops = y :: rest ∧ y.level ≠ 7) ∧
    10 ≤ 10 :=
  ⟨by decide +kernel, by simp [ring, StreamUnit.reset], by decide +kernel⟩

theorem witness_StreamPrograms_2 :
    loop7.loops = [{ level := 7, idx := 0, cnt := 2, top := 1 }] ∧
    { level := (7 : Nat), idx := (0 : Nat), cnt := (2 : Nat), top := (1 : Nat) : SLoop }.level = (7 : Nat) ∧
    10 ≤ 10 :=
  by decide +kernel

theorem witness_StreamMoves_1 :
    slotOf ringHeld (Cpu.core 0) = some 0 ∧
    (getCore ringHeld 0).held = false ∧
    isOut (getCore ringHeld 0) 3 = false ∧
    (getCore ringHeld 0).su[3].stopping = false ∧
    ((getCore ringHeld 0).su[3].st = SState.run ∨
      (getCore ringHeld 0).su[3].st = SState.waitRing ∨ (getCore ringHeld 0).su[3].st = SState.waitData) ∧
    (getCore ringHeld 0).su[3].rows = [] ∧
    (getCore ringHeld 0).su[3].asked = [] ∧
    (getCore ringHeld 0).su[3].met = none ∧
    heldHalf (getCore ringHeld 0).su[3] (halfOf (getCore ringHeld 0).su[3] (getCore ringHeld 0).su[3].pos) = true ∧
    ((getCore ringHeld 0).su[3].pc < 64 ∧
      (BitVec.extractLsb' 28 4 (sprog (getCore ringHeld 0) 3 (getCore ringHeld 0).su[3].pc) = 6 ∨
          BitVec.extractLsb' 28 4 (sprog (getCore ringHeld 0) 3 (getCore ringHeld 0).su[3].pc) = 7) ∧
        BitVec.extractLsb' 8 20 (sprog (getCore ringHeld 0) 3 (getCore ringHeld 0).su[3].pc) = 0 ∧
          (getCore ringHeld 0).su[3].far ≠ none) ∧
    BitVec.extractLsb' 0 24 (csrGet (getCore ringHeld 0) 25732) ≠ 0 ∧
    clocked ringHeld 0 = true ∧
    (getCore ringHeld 0).su[3].st ≠ SState.idle ∧
    (getCore ringHeld 0).su[3].st ≠ SState.fault ∧
    ringHeld.fab.behind = [] ∧
    unanswered (getCore ringHeld 0).su[3] = false ∧
    (getCore ringHeld 0).su[3].writes = [] :=
  by decide +kernel

theorem witness_StreamMoves_2 :
    slotOf skipRun (Cpu.core 0) = some 0 ∧
    (getCore skipRun 0).held = false ∧
    isOut (getCore skipRun 0) 3 = false ∧
    (getCore skipRun 0).su[3].stopping = false ∧
    ((getCore skipRun 0).su[3].st = SState.run ∨
      (getCore skipRun 0).su[3].st = SState.waitRing ∨ (getCore skipRun 0).su[3].st = SState.waitData) ∧
    (getCore skipRun 0).su[3].rows = [] ∧
    (getCore skipRun 0).su[3].asked = [] ∧
    (getCore skipRun 0).su[3].met = none ∧
    heldHalf (getCore skipRun 0).su[3] (halfOf (getCore skipRun 0).su[3] (getCore skipRun 0).su[3].pos) = false ∧
    ringRoom (getCore skipRun 0).su[3] = 1 ∧
    ((getCore skipRun 0).su[3].pc < 64 ∧
      BitVec.extractLsb' 28 4 (sprog (getCore skipRun 0) 3 (getCore skipRun 0).su[3].pc) = 7 ∧
        BitVec.extractLsb' 8 20 (sprog (getCore skipRun 0) 3 (getCore skipRun 0).su[3].pc) = 0 ∧
          (getCore skipRun 0).su[3].far ≠ none) ∧
    ((if
              (getCore skipRun (0 : Nat)).su[(3 : Fin (4 : Nat))].done + (1 : Nat) <
                (BitVec.extractLsb' (0 : Nat) (8 : Nat)
                      (sprog (getCore skipRun (0 : Nat)) (3 : Fin (4 : Nat))
                        (getCore skipRun (0 : Nat)).su[(3 : Fin (4 : Nat))].pc)).toNat +
                  (1 : Nat) then
            { st := (getCore skipRun (0 : Nat)).su[(3 : Fin (4 : Nat))].st,
              ringBase := (getCore skipRun (0 : Nat)).su[(3 : Fin (4 : Nat))].ringBase,
              ringLen := (getCore skipRun (0 : Nat)).su[(3 : Fin (4 : Nat))].ringLen,
              pc := (getCore skipRun (0 : Nat)).su[(3 : Fin (4 : Nat))].pc,
              loops := (getCore skipRun (0 : Nat)).su[(3 : Fin (4 : Nat))].loops,
              a := (getCore skipRun (0 : Nat)).su[(3 : Fin (4 : Nat))].a,
              win := (getCore skipRun (0 : Nat)).su[(3 : Fin (4 : Nat))].win,
              strides := (getCore skipRun (0 : Nat)).su[(3 : Fin (4 : Nat))].strides,
              far := (getCore skipRun (0 : Nat)).su[(3 : Fin (4 : Nat))].far,
              done := (getCore skipRun (0 : Nat)).su[(3 : Fin (4 : Nat))].done + (1 : Nat),
              asked := (getCore skipRun (0 : Nat)).su[(3 : Fin (4 : Nat))].asked,
              met := (getCore skipRun (0 : Nat)).su[(3 : Fin (4 : Nat))].met,
              pos := (getCore skipRun (0 : Nat)).su[(3 : Fin (4 : Nat))].pos,
              filled := (getCore skipRun (0 : Nat)).su[(3 : Fin (4 : Nat))].filled,
              rows := (getCore skipRun (0 : Nat)).su[(3 : Fin (4 : Nat))].rows,
              left := (getCore skipRun (0 : Nat)).su[(3 : Fin (4 : Nat))].left,
              writes := (getCore skipRun (0 : Nat)).su[(3 : Fin (4 : Nat))].writes,
              held := (getCore skipRun (0 : Nat)).su[(3 : Fin (4 : Nat))].held,
              count0 := (getCore skipRun (0 : Nat)).su[(3 : Fin (4 : Nat))].count0,
              count1 := (getCore skipRun (0 : Nat)).su[(3 : Fin (4 : Nat))].count1,
              nextHalf := (getCore skipRun (0 : Nat)).su[(3 : Fin (4 : Nat))].nextHalf,
              last := (getCore skipRun (0 : Nat)).su[(3 : Fin (4 : Nat))].last,
              ending := (getCore skipRun (0 : Nat)).su[(3 : Fin (4 : Nat))].ending,
              stopping := (getCore skipRun (0 : Nat)).su[(3 : Fin (4 : Nat))].stopping,
              err := (getCore skipRun (0 : Nat)).su[(3 : Fin (4 : Nat))].err,
              fault := (getCore skipRun (0 : Nat)).su[(3 : Fin (4 : Nat))].fault : StreamUnit }
          else
            { st := (getCore skipRun (0 : Nat)).su[(3 : Fin (4 : Nat))].st,
              ringBase := (getCore skipRun (0 : Nat)).su[(3 : Fin (4 : Nat))].ringBase,
              ringLen := (getCore skipRun (0 : Nat)).su[(3 : Fin (4 : Nat))].ringLen,
              pc := (getCore skipRun (0 : Nat)).su[(3 : Fin (4 : Nat))].pc + (1 : Nat),
              loops := (getCore skipRun (0 : Nat)).su[(3 : Fin (4 : Nat))].loops,
              a := (getCore skipRun (0 : Nat)).su[(3 : Fin (4 : Nat))].a,
              win := (getCore skipRun (0 : Nat)).su[(3 : Fin (4 : Nat))].win,
              strides := (getCore skipRun (0 : Nat)).su[(3 : Fin (4 : Nat))].strides,
              far := (getCore skipRun (0 : Nat)).su[(3 : Fin (4 : Nat))].far, done := (0 : Nat),
              asked := (getCore skipRun (0 : Nat)).su[(3 : Fin (4 : Nat))].asked,
              met := (getCore skipRun (0 : Nat)).su[(3 : Fin (4 : Nat))].met,
              pos := (getCore skipRun (0 : Nat)).su[(3 : Fin (4 : Nat))].pos,
              filled := (getCore skipRun (0 : Nat)).su[(3 : Fin (4 : Nat))].filled,
              rows := (getCore skipRun (0 : Nat)).su[(3 : Fin (4 : Nat))].rows,
              left := (getCore skipRun (0 : Nat)).su[(3 : Fin (4 : Nat))].left,
              writes := (getCore skipRun (0 : Nat)).su[(3 : Fin (4 : Nat))].writes,
              held := (getCore skipRun (0 : Nat)).su[(3 : Fin (4 : Nat))].held,
              count0 := (getCore skipRun (0 : Nat)).su[(3 : Fin (4 : Nat))].count0,
              count1 := (getCore skipRun (0 : Nat)).su[(3 : Fin (4 : Nat))].count1,
              nextHalf := (getCore skipRun (0 : Nat)).su[(3 : Fin (4 : Nat))].nextHalf,
              last := (getCore skipRun (0 : Nat)).su[(3 : Fin (4 : Nat))].last,
              ending := (getCore skipRun (0 : Nat)).su[(3 : Fin (4 : Nat))].ending,
              stopping := (getCore skipRun (0 : Nat)).su[(3 : Fin (4 : Nat))].stopping,
              err := (getCore skipRun (0 : Nat)).su[(3 : Fin (4 : Nat))].err,
              fault := (getCore skipRun (0 : Nat)).su[(3 : Fin (4 : Nat))].fault : StreamUnit }).pc <
        (64 : Nat) ∧
      (BitVec.extractLsb' (28 : Nat) (4 : Nat)
              (sprog (getCore skipRun (0 : Nat)) (3 : Fin (4 : Nat))
                (if
                      (getCore skipRun (0 : Nat)).su[(3 : Fin (4 : Nat))].done + (1 : Nat) <
                        (BitVec.extractLsb' (0 : Nat) (8 : Nat)
                              (sprog (getCore skipRun (0 : Nat)) (3 : Fin (4 : Nat))
                                (getCore skipRun (0 : Nat)).su[(3 : Fin (4 : Nat))].pc)).toNat +
                          (1 : Nat) then
                    { st := (getCore skipRun (0 : Nat)).su[(3 : Fin (4 : Nat))].st,
                      ringBase := (getCore skipRun (0 : Nat)).su[(3 : Fin (4 : Nat))].ringBase,
                      ringLen := (getCore skipRun (0 : Nat)).su[(3 : Fin (4 : Nat))].ringLen,
                      pc := (getCore skipRun (0 : Nat)).su[(3 : Fin (4 : Nat))].pc,
                      loops := (getCore skipRun (0 : Nat)).su[(3 : Fin (4 : Nat))].loops,
                      a := (getCore skipRun (0 : Nat)).su[(3 : Fin (4 : Nat))].a,
                      win := (getCore skipRun (0 : Nat)).su[(3 : Fin (4 : Nat))].win,
                      strides := (getCore skipRun (0 : Nat)).su[(3 : Fin (4 : Nat))].strides,
                      far := (getCore skipRun (0 : Nat)).su[(3 : Fin (4 : Nat))].far,
                      done := (getCore skipRun (0 : Nat)).su[(3 : Fin (4 : Nat))].done + (1 : Nat),
                      asked := (getCore skipRun (0 : Nat)).su[(3 : Fin (4 : Nat))].asked,
                      met := (getCore skipRun (0 : Nat)).su[(3 : Fin (4 : Nat))].met,
                      pos := (getCore skipRun (0 : Nat)).su[(3 : Fin (4 : Nat))].pos,
                      filled := (getCore skipRun (0 : Nat)).su[(3 : Fin (4 : Nat))].filled,
                      rows := (getCore skipRun (0 : Nat)).su[(3 : Fin (4 : Nat))].rows,
                      left := (getCore skipRun (0 : Nat)).su[(3 : Fin (4 : Nat))].left,
                      writes := (getCore skipRun (0 : Nat)).su[(3 : Fin (4 : Nat))].writes,
                      held := (getCore skipRun (0 : Nat)).su[(3 : Fin (4 : Nat))].held,
                      count0 := (getCore skipRun (0 : Nat)).su[(3 : Fin (4 : Nat))].count0,
                      count1 := (getCore skipRun (0 : Nat)).su[(3 : Fin (4 : Nat))].count1,
                      nextHalf := (getCore skipRun (0 : Nat)).su[(3 : Fin (4 : Nat))].nextHalf,
                      last := (getCore skipRun (0 : Nat)).su[(3 : Fin (4 : Nat))].last,
                      ending := (getCore skipRun (0 : Nat)).su[(3 : Fin (4 : Nat))].ending,
                      stopping := (getCore skipRun (0 : Nat)).su[(3 : Fin (4 : Nat))].stopping,
                      err := (getCore skipRun (0 : Nat)).su[(3 : Fin (4 : Nat))].err,
                      fault := (getCore skipRun (0 : Nat)).su[(3 : Fin (4 : Nat))].fault : StreamUnit }
                  else
                    { st := (getCore skipRun (0 : Nat)).su[(3 : Fin (4 : Nat))].st,
                      ringBase := (getCore skipRun (0 : Nat)).su[(3 : Fin (4 : Nat))].ringBase,
                      ringLen := (getCore skipRun (0 : Nat)).su[(3 : Fin (4 : Nat))].ringLen,
                      pc := (getCore skipRun (0 : Nat)).su[(3 : Fin (4 : Nat))].pc + (1 : Nat),
                      loops := (getCore skipRun (0 : Nat)).su[(3 : Fin (4 : Nat))].loops,
                      a := (getCore skipRun (0 : Nat)).su[(3 : Fin (4 : Nat))].a,
                      win := (getCore skipRun (0 : Nat)).su[(3 : Fin (4 : Nat))].win,
                      strides := (getCore skipRun (0 : Nat)).su[(3 : Fin (4 : Nat))].strides,
                      far := (getCore skipRun (0 : Nat)).su[(3 : Fin (4 : Nat))].far, done := (0 : Nat),
                      asked := (getCore skipRun (0 : Nat)).su[(3 : Fin (4 : Nat))].asked,
                      met := (getCore skipRun (0 : Nat)).su[(3 : Fin (4 : Nat))].met,
                      pos := (getCore skipRun (0 : Nat)).su[(3 : Fin (4 : Nat))].pos,
                      filled := (getCore skipRun (0 : Nat)).su[(3 : Fin (4 : Nat))].filled,
                      rows := (getCore skipRun (0 : Nat)).su[(3 : Fin (4 : Nat))].rows,
                      left := (getCore skipRun (0 : Nat)).su[(3 : Fin (4 : Nat))].left,
                      writes := (getCore skipRun (0 : Nat)).su[(3 : Fin (4 : Nat))].writes,
                      held := (getCore skipRun (0 : Nat)).su[(3 : Fin (4 : Nat))].held,
                      count0 := (getCore skipRun (0 : Nat)).su[(3 : Fin (4 : Nat))].count0,
                      count1 := (getCore skipRun (0 : Nat)).su[(3 : Fin (4 : Nat))].count1,
                      nextHalf := (getCore skipRun (0 : Nat)).su[(3 : Fin (4 : Nat))].nextHalf,
                      last := (getCore skipRun (0 : Nat)).su[(3 : Fin (4 : Nat))].last,
                      ending := (getCore skipRun (0 : Nat)).su[(3 : Fin (4 : Nat))].ending,
                      stopping := (getCore skipRun (0 : Nat)).su[(3 : Fin (4 : Nat))].stopping,
                      err := (getCore skipRun (0 : Nat)).su[(3 : Fin (4 : Nat))].err,
                      fault := (getCore skipRun (0 : Nat)).su[(3 : Fin (4 : Nat))].fault : StreamUnit }).pc) =
            (6 : BitVec (4 : Nat)) ∨
          BitVec.extractLsb' (28 : Nat) (4 : Nat)
              (sprog (getCore skipRun (0 : Nat)) (3 : Fin (4 : Nat))
                (if
                      (getCore skipRun (0 : Nat)).su[(3 : Fin (4 : Nat))].done + (1 : Nat) <
                        (BitVec.extractLsb' (0 : Nat) (8 : Nat)
                              (sprog (getCore skipRun (0 : Nat)) (3 : Fin (4 : Nat))
                                (getCore skipRun (0 : Nat)).su[(3 : Fin (4 : Nat))].pc)).toNat +
                          (1 : Nat) then
                    { st := (getCore skipRun (0 : Nat)).su[(3 : Fin (4 : Nat))].st,
                      ringBase := (getCore skipRun (0 : Nat)).su[(3 : Fin (4 : Nat))].ringBase,
                      ringLen := (getCore skipRun (0 : Nat)).su[(3 : Fin (4 : Nat))].ringLen,
                      pc := (getCore skipRun (0 : Nat)).su[(3 : Fin (4 : Nat))].pc,
                      loops := (getCore skipRun (0 : Nat)).su[(3 : Fin (4 : Nat))].loops,
                      a := (getCore skipRun (0 : Nat)).su[(3 : Fin (4 : Nat))].a,
                      win := (getCore skipRun (0 : Nat)).su[(3 : Fin (4 : Nat))].win,
                      strides := (getCore skipRun (0 : Nat)).su[(3 : Fin (4 : Nat))].strides,
                      far := (getCore skipRun (0 : Nat)).su[(3 : Fin (4 : Nat))].far,
                      done := (getCore skipRun (0 : Nat)).su[(3 : Fin (4 : Nat))].done + (1 : Nat),
                      asked := (getCore skipRun (0 : Nat)).su[(3 : Fin (4 : Nat))].asked,
                      met := (getCore skipRun (0 : Nat)).su[(3 : Fin (4 : Nat))].met,
                      pos := (getCore skipRun (0 : Nat)).su[(3 : Fin (4 : Nat))].pos,
                      filled := (getCore skipRun (0 : Nat)).su[(3 : Fin (4 : Nat))].filled,
                      rows := (getCore skipRun (0 : Nat)).su[(3 : Fin (4 : Nat))].rows,
                      left := (getCore skipRun (0 : Nat)).su[(3 : Fin (4 : Nat))].left,
                      writes := (getCore skipRun (0 : Nat)).su[(3 : Fin (4 : Nat))].writes,
                      held := (getCore skipRun (0 : Nat)).su[(3 : Fin (4 : Nat))].held,
                      count0 := (getCore skipRun (0 : Nat)).su[(3 : Fin (4 : Nat))].count0,
                      count1 := (getCore skipRun (0 : Nat)).su[(3 : Fin (4 : Nat))].count1,
                      nextHalf := (getCore skipRun (0 : Nat)).su[(3 : Fin (4 : Nat))].nextHalf,
                      last := (getCore skipRun (0 : Nat)).su[(3 : Fin (4 : Nat))].last,
                      ending := (getCore skipRun (0 : Nat)).su[(3 : Fin (4 : Nat))].ending,
                      stopping := (getCore skipRun (0 : Nat)).su[(3 : Fin (4 : Nat))].stopping,
                      err := (getCore skipRun (0 : Nat)).su[(3 : Fin (4 : Nat))].err,
                      fault := (getCore skipRun (0 : Nat)).su[(3 : Fin (4 : Nat))].fault : StreamUnit }
                  else
                    { st := (getCore skipRun (0 : Nat)).su[(3 : Fin (4 : Nat))].st,
                      ringBase := (getCore skipRun (0 : Nat)).su[(3 : Fin (4 : Nat))].ringBase,
                      ringLen := (getCore skipRun (0 : Nat)).su[(3 : Fin (4 : Nat))].ringLen,
                      pc := (getCore skipRun (0 : Nat)).su[(3 : Fin (4 : Nat))].pc + (1 : Nat),
                      loops := (getCore skipRun (0 : Nat)).su[(3 : Fin (4 : Nat))].loops,
                      a := (getCore skipRun (0 : Nat)).su[(3 : Fin (4 : Nat))].a,
                      win := (getCore skipRun (0 : Nat)).su[(3 : Fin (4 : Nat))].win,
                      strides := (getCore skipRun (0 : Nat)).su[(3 : Fin (4 : Nat))].strides,
                      far := (getCore skipRun (0 : Nat)).su[(3 : Fin (4 : Nat))].far, done := (0 : Nat),
                      asked := (getCore skipRun (0 : Nat)).su[(3 : Fin (4 : Nat))].asked,
                      met := (getCore skipRun (0 : Nat)).su[(3 : Fin (4 : Nat))].met,
                      pos := (getCore skipRun (0 : Nat)).su[(3 : Fin (4 : Nat))].pos,
                      filled := (getCore skipRun (0 : Nat)).su[(3 : Fin (4 : Nat))].filled,
                      rows := (getCore skipRun (0 : Nat)).su[(3 : Fin (4 : Nat))].rows,
                      left := (getCore skipRun (0 : Nat)).su[(3 : Fin (4 : Nat))].left,
                      writes := (getCore skipRun (0 : Nat)).su[(3 : Fin (4 : Nat))].writes,
                      held := (getCore skipRun (0 : Nat)).su[(3 : Fin (4 : Nat))].held,
                      count0 := (getCore skipRun (0 : Nat)).su[(3 : Fin (4 : Nat))].count0,
                      count1 := (getCore skipRun (0 : Nat)).su[(3 : Fin (4 : Nat))].count1,
                      nextHalf := (getCore skipRun (0 : Nat)).su[(3 : Fin (4 : Nat))].nextHalf,
                      last := (getCore skipRun (0 : Nat)).su[(3 : Fin (4 : Nat))].last,
                      ending := (getCore skipRun (0 : Nat)).su[(3 : Fin (4 : Nat))].ending,
                      stopping := (getCore skipRun (0 : Nat)).su[(3 : Fin (4 : Nat))].stopping,
                      err := (getCore skipRun (0 : Nat)).su[(3 : Fin (4 : Nat))].err,
                      fault := (getCore skipRun (0 : Nat)).su[(3 : Fin (4 : Nat))].fault : StreamUnit }).pc) =
            (7 : BitVec (4 : Nat))) ∧
        BitVec.extractLsb' (8 : Nat) (20 : Nat)
              (sprog (getCore skipRun (0 : Nat)) (3 : Fin (4 : Nat))
                (if
                      (getCore skipRun (0 : Nat)).su[(3 : Fin (4 : Nat))].done + (1 : Nat) <
                        (BitVec.extractLsb' (0 : Nat) (8 : Nat)
                              (sprog (getCore skipRun (0 : Nat)) (3 : Fin (4 : Nat))
                                (getCore skipRun (0 : Nat)).su[(3 : Fin (4 : Nat))].pc)).toNat +
                          (1 : Nat) then
                    { st := (getCore skipRun (0 : Nat)).su[(3 : Fin (4 : Nat))].st,
                      ringBase := (getCore skipRun (0 : Nat)).su[(3 : Fin (4 : Nat))].ringBase,
                      ringLen := (getCore skipRun (0 : Nat)).su[(3 : Fin (4 : Nat))].ringLen,
                      pc := (getCore skipRun (0 : Nat)).su[(3 : Fin (4 : Nat))].pc,
                      loops := (getCore skipRun (0 : Nat)).su[(3 : Fin (4 : Nat))].loops,
                      a := (getCore skipRun (0 : Nat)).su[(3 : Fin (4 : Nat))].a,
                      win := (getCore skipRun (0 : Nat)).su[(3 : Fin (4 : Nat))].win,
                      strides := (getCore skipRun (0 : Nat)).su[(3 : Fin (4 : Nat))].strides,
                      far := (getCore skipRun (0 : Nat)).su[(3 : Fin (4 : Nat))].far,
                      done := (getCore skipRun (0 : Nat)).su[(3 : Fin (4 : Nat))].done + (1 : Nat),
                      asked := (getCore skipRun (0 : Nat)).su[(3 : Fin (4 : Nat))].asked,
                      met := (getCore skipRun (0 : Nat)).su[(3 : Fin (4 : Nat))].met,
                      pos := (getCore skipRun (0 : Nat)).su[(3 : Fin (4 : Nat))].pos,
                      filled := (getCore skipRun (0 : Nat)).su[(3 : Fin (4 : Nat))].filled,
                      rows := (getCore skipRun (0 : Nat)).su[(3 : Fin (4 : Nat))].rows,
                      left := (getCore skipRun (0 : Nat)).su[(3 : Fin (4 : Nat))].left,
                      writes := (getCore skipRun (0 : Nat)).su[(3 : Fin (4 : Nat))].writes,
                      held := (getCore skipRun (0 : Nat)).su[(3 : Fin (4 : Nat))].held,
                      count0 := (getCore skipRun (0 : Nat)).su[(3 : Fin (4 : Nat))].count0,
                      count1 := (getCore skipRun (0 : Nat)).su[(3 : Fin (4 : Nat))].count1,
                      nextHalf := (getCore skipRun (0 : Nat)).su[(3 : Fin (4 : Nat))].nextHalf,
                      last := (getCore skipRun (0 : Nat)).su[(3 : Fin (4 : Nat))].last,
                      ending := (getCore skipRun (0 : Nat)).su[(3 : Fin (4 : Nat))].ending,
                      stopping := (getCore skipRun (0 : Nat)).su[(3 : Fin (4 : Nat))].stopping,
                      err := (getCore skipRun (0 : Nat)).su[(3 : Fin (4 : Nat))].err,
                      fault := (getCore skipRun (0 : Nat)).su[(3 : Fin (4 : Nat))].fault : StreamUnit }
                  else
                    { st := (getCore skipRun (0 : Nat)).su[(3 : Fin (4 : Nat))].st,
                      ringBase := (getCore skipRun (0 : Nat)).su[(3 : Fin (4 : Nat))].ringBase,
                      ringLen := (getCore skipRun (0 : Nat)).su[(3 : Fin (4 : Nat))].ringLen,
                      pc := (getCore skipRun (0 : Nat)).su[(3 : Fin (4 : Nat))].pc + (1 : Nat),
                      loops := (getCore skipRun (0 : Nat)).su[(3 : Fin (4 : Nat))].loops,
                      a := (getCore skipRun (0 : Nat)).su[(3 : Fin (4 : Nat))].a,
                      win := (getCore skipRun (0 : Nat)).su[(3 : Fin (4 : Nat))].win,
                      strides := (getCore skipRun (0 : Nat)).su[(3 : Fin (4 : Nat))].strides,
                      far := (getCore skipRun (0 : Nat)).su[(3 : Fin (4 : Nat))].far, done := (0 : Nat),
                      asked := (getCore skipRun (0 : Nat)).su[(3 : Fin (4 : Nat))].asked,
                      met := (getCore skipRun (0 : Nat)).su[(3 : Fin (4 : Nat))].met,
                      pos := (getCore skipRun (0 : Nat)).su[(3 : Fin (4 : Nat))].pos,
                      filled := (getCore skipRun (0 : Nat)).su[(3 : Fin (4 : Nat))].filled,
                      rows := (getCore skipRun (0 : Nat)).su[(3 : Fin (4 : Nat))].rows,
                      left := (getCore skipRun (0 : Nat)).su[(3 : Fin (4 : Nat))].left,
                      writes := (getCore skipRun (0 : Nat)).su[(3 : Fin (4 : Nat))].writes,
                      held := (getCore skipRun (0 : Nat)).su[(3 : Fin (4 : Nat))].held,
                      count0 := (getCore skipRun (0 : Nat)).su[(3 : Fin (4 : Nat))].count0,
                      count1 := (getCore skipRun (0 : Nat)).su[(3 : Fin (4 : Nat))].count1,
                      nextHalf := (getCore skipRun (0 : Nat)).su[(3 : Fin (4 : Nat))].nextHalf,
                      last := (getCore skipRun (0 : Nat)).su[(3 : Fin (4 : Nat))].last,
                      ending := (getCore skipRun (0 : Nat)).su[(3 : Fin (4 : Nat))].ending,
                      stopping := (getCore skipRun (0 : Nat)).su[(3 : Fin (4 : Nat))].stopping,
                      err := (getCore skipRun (0 : Nat)).su[(3 : Fin (4 : Nat))].err,
                      fault := (getCore skipRun (0 : Nat)).su[(3 : Fin (4 : Nat))].fault : StreamUnit }).pc) =
            (0 : BitVec (20 : Nat)) ∧
          (if
                  (getCore skipRun (0 : Nat)).su[(3 : Fin (4 : Nat))].done + (1 : Nat) <
                    (BitVec.extractLsb' (0 : Nat) (8 : Nat)
                          (sprog (getCore skipRun (0 : Nat)) (3 : Fin (4 : Nat))
                            (getCore skipRun (0 : Nat)).su[(3 : Fin (4 : Nat))].pc)).toNat +
                      (1 : Nat) then
                { st := (getCore skipRun (0 : Nat)).su[(3 : Fin (4 : Nat))].st,
                  ringBase := (getCore skipRun (0 : Nat)).su[(3 : Fin (4 : Nat))].ringBase,
                  ringLen := (getCore skipRun (0 : Nat)).su[(3 : Fin (4 : Nat))].ringLen,
                  pc := (getCore skipRun (0 : Nat)).su[(3 : Fin (4 : Nat))].pc,
                  loops := (getCore skipRun (0 : Nat)).su[(3 : Fin (4 : Nat))].loops,
                  a := (getCore skipRun (0 : Nat)).su[(3 : Fin (4 : Nat))].a,
                  win := (getCore skipRun (0 : Nat)).su[(3 : Fin (4 : Nat))].win,
                  strides := (getCore skipRun (0 : Nat)).su[(3 : Fin (4 : Nat))].strides,
                  far := (getCore skipRun (0 : Nat)).su[(3 : Fin (4 : Nat))].far,
                  done := (getCore skipRun (0 : Nat)).su[(3 : Fin (4 : Nat))].done + (1 : Nat),
                  asked := (getCore skipRun (0 : Nat)).su[(3 : Fin (4 : Nat))].asked,
                  met := (getCore skipRun (0 : Nat)).su[(3 : Fin (4 : Nat))].met,
                  pos := (getCore skipRun (0 : Nat)).su[(3 : Fin (4 : Nat))].pos,
                  filled := (getCore skipRun (0 : Nat)).su[(3 : Fin (4 : Nat))].filled,
                  rows := (getCore skipRun (0 : Nat)).su[(3 : Fin (4 : Nat))].rows,
                  left := (getCore skipRun (0 : Nat)).su[(3 : Fin (4 : Nat))].left,
                  writes := (getCore skipRun (0 : Nat)).su[(3 : Fin (4 : Nat))].writes,
                  held := (getCore skipRun (0 : Nat)).su[(3 : Fin (4 : Nat))].held,
                  count0 := (getCore skipRun (0 : Nat)).su[(3 : Fin (4 : Nat))].count0,
                  count1 := (getCore skipRun (0 : Nat)).su[(3 : Fin (4 : Nat))].count1,
                  nextHalf := (getCore skipRun (0 : Nat)).su[(3 : Fin (4 : Nat))].nextHalf,
                  last := (getCore skipRun (0 : Nat)).su[(3 : Fin (4 : Nat))].last,
                  ending := (getCore skipRun (0 : Nat)).su[(3 : Fin (4 : Nat))].ending,
                  stopping := (getCore skipRun (0 : Nat)).su[(3 : Fin (4 : Nat))].stopping,
                  err := (getCore skipRun (0 : Nat)).su[(3 : Fin (4 : Nat))].err,
                  fault := (getCore skipRun (0 : Nat)).su[(3 : Fin (4 : Nat))].fault : StreamUnit }
              else
                { st := (getCore skipRun (0 : Nat)).su[(3 : Fin (4 : Nat))].st,
                  ringBase := (getCore skipRun (0 : Nat)).su[(3 : Fin (4 : Nat))].ringBase,
                  ringLen := (getCore skipRun (0 : Nat)).su[(3 : Fin (4 : Nat))].ringLen,
                  pc := (getCore skipRun (0 : Nat)).su[(3 : Fin (4 : Nat))].pc + (1 : Nat),
                  loops := (getCore skipRun (0 : Nat)).su[(3 : Fin (4 : Nat))].loops,
                  a := (getCore skipRun (0 : Nat)).su[(3 : Fin (4 : Nat))].a,
                  win := (getCore skipRun (0 : Nat)).su[(3 : Fin (4 : Nat))].win,
                  strides := (getCore skipRun (0 : Nat)).su[(3 : Fin (4 : Nat))].strides,
                  far := (getCore skipRun (0 : Nat)).su[(3 : Fin (4 : Nat))].far, done := (0 : Nat),
                  asked := (getCore skipRun (0 : Nat)).su[(3 : Fin (4 : Nat))].asked,
                  met := (getCore skipRun (0 : Nat)).su[(3 : Fin (4 : Nat))].met,
                  pos := (getCore skipRun (0 : Nat)).su[(3 : Fin (4 : Nat))].pos,
                  filled := (getCore skipRun (0 : Nat)).su[(3 : Fin (4 : Nat))].filled,
                  rows := (getCore skipRun (0 : Nat)).su[(3 : Fin (4 : Nat))].rows,
                  left := (getCore skipRun (0 : Nat)).su[(3 : Fin (4 : Nat))].left,
                  writes := (getCore skipRun (0 : Nat)).su[(3 : Fin (4 : Nat))].writes,
                  held := (getCore skipRun (0 : Nat)).su[(3 : Fin (4 : Nat))].held,
                  count0 := (getCore skipRun (0 : Nat)).su[(3 : Fin (4 : Nat))].count0,
                  count1 := (getCore skipRun (0 : Nat)).su[(3 : Fin (4 : Nat))].count1,
                  nextHalf := (getCore skipRun (0 : Nat)).su[(3 : Fin (4 : Nat))].nextHalf,
                  last := (getCore skipRun (0 : Nat)).su[(3 : Fin (4 : Nat))].last,
                  ending := (getCore skipRun (0 : Nat)).su[(3 : Fin (4 : Nat))].ending,
                  stopping := (getCore skipRun (0 : Nat)).su[(3 : Fin (4 : Nat))].stopping,
                  err := (getCore skipRun (0 : Nat)).su[(3 : Fin (4 : Nat))].err,
                  fault := (getCore skipRun (0 : Nat)).su[(3 : Fin (4 : Nat))].fault : StreamUnit }).far ≠
            none) ∧
    ((getCore skipRun 0).su[3].st = SState.run ∨ (getCore skipRun 0).su[3].st = SState.waitData) ∧
    BitVec.extractLsb' 0 24 (csrGet (getCore skipRun 0) 25732) ≠ 0 ∧
    clocked skipRun 0 = true ∧
    (getCore skipRun 0).su[3].st ≠ SState.idle ∧
    (getCore skipRun 0).su[3].st ≠ SState.fault ∧
    skipRun.fab.behind = [] ∧
    unanswered (getCore skipRun 0).su[3] = false ∧
    (getCore skipRun 0).su[3].writes = [] :=
  by decide +kernel

theorem witness_StreamMoves_3 :
    slotOf xferRun (Cpu.core 0) = some 0 ∧
    (getCore xferRun 0).held = false ∧
    isOut (getCore xferRun 0) 3 = false ∧
    (getCore xferRun 0).su[3].stopping = false ∧
    ((getCore xferRun 0).su[3].st = SState.run ∨
      (getCore xferRun 0).su[3].st = SState.waitRing ∨ (getCore xferRun 0).su[3].st = SState.waitData) ∧
    (getCore xferRun 0).su[3].rows = [] ∧
    (getCore xferRun 0).su[3].asked = [] ∧
    (getCore xferRun 0).su[3].met = none ∧
    heldHalf (getCore xferRun 0).su[3] (halfOf (getCore xferRun 0).su[3] (getCore xferRun 0).su[3].pos) = false ∧
    ringRoom (getCore xferRun 0).su[3] = 1 ∧
    ((getCore xferRun 0).su[3].pc < 64 ∧
      BitVec.extractLsb' 28 4 (sprog (getCore xferRun 0) 3 (getCore xferRun 0).su[3].pc) = 6 ∧
        BitVec.extractLsb' 8 20 (sprog (getCore xferRun 0) 3 (getCore xferRun 0).su[3].pc) = 0 ∧
          (getCore xferRun 0).su[3].far ≠ none) ∧
    (getCore xferRun 0).su[3].far = some (hdl 2 5 0 4096) ∧
    moveIndex (getCore xferRun 0).su[3] = ↑0 ∧
    64 * 0 + 64 ≤ hLen (hdl 2 5 0 4096) ∧
    isHere xferRun (farOf xferRun 0 (hdl 2 5 0 4096) (64 * 0)) = true ∧
    ((if
              (getCore xferRun (0 : Nat)).su[(3 : Fin (4 : Nat))].done + (1 : Nat) <
                (BitVec.extractLsb' (0 : Nat) (8 : Nat)
                      (sprog (getCore xferRun (0 : Nat)) (3 : Fin (4 : Nat))
                        (getCore xferRun (0 : Nat)).su[(3 : Fin (4 : Nat))].pc)).toNat +
                  (1 : Nat) then
            { st := (getCore xferRun (0 : Nat)).su[(3 : Fin (4 : Nat))].st,
              ringBase := (getCore xferRun (0 : Nat)).su[(3 : Fin (4 : Nat))].ringBase,
              ringLen := (getCore xferRun (0 : Nat)).su[(3 : Fin (4 : Nat))].ringLen,
              pc := (getCore xferRun (0 : Nat)).su[(3 : Fin (4 : Nat))].pc,
              loops := (getCore xferRun (0 : Nat)).su[(3 : Fin (4 : Nat))].loops,
              a := (getCore xferRun (0 : Nat)).su[(3 : Fin (4 : Nat))].a,
              win := (getCore xferRun (0 : Nat)).su[(3 : Fin (4 : Nat))].win,
              strides := (getCore xferRun (0 : Nat)).su[(3 : Fin (4 : Nat))].strides,
              far := (getCore xferRun (0 : Nat)).su[(3 : Fin (4 : Nat))].far,
              done := (getCore xferRun (0 : Nat)).su[(3 : Fin (4 : Nat))].done + (1 : Nat),
              asked := (getCore xferRun (0 : Nat)).su[(3 : Fin (4 : Nat))].asked,
              met := (getCore xferRun (0 : Nat)).su[(3 : Fin (4 : Nat))].met,
              pos := (getCore xferRun (0 : Nat)).su[(3 : Fin (4 : Nat))].pos,
              filled := (getCore xferRun (0 : Nat)).su[(3 : Fin (4 : Nat))].filled,
              rows := (getCore xferRun (0 : Nat)).su[(3 : Fin (4 : Nat))].rows,
              left := (getCore xferRun (0 : Nat)).su[(3 : Fin (4 : Nat))].left,
              writes := (getCore xferRun (0 : Nat)).su[(3 : Fin (4 : Nat))].writes,
              held := (getCore xferRun (0 : Nat)).su[(3 : Fin (4 : Nat))].held,
              count0 := (getCore xferRun (0 : Nat)).su[(3 : Fin (4 : Nat))].count0,
              count1 := (getCore xferRun (0 : Nat)).su[(3 : Fin (4 : Nat))].count1,
              nextHalf := (getCore xferRun (0 : Nat)).su[(3 : Fin (4 : Nat))].nextHalf,
              last := (getCore xferRun (0 : Nat)).su[(3 : Fin (4 : Nat))].last,
              ending := (getCore xferRun (0 : Nat)).su[(3 : Fin (4 : Nat))].ending,
              stopping := (getCore xferRun (0 : Nat)).su[(3 : Fin (4 : Nat))].stopping,
              err := (getCore xferRun (0 : Nat)).su[(3 : Fin (4 : Nat))].err,
              fault := (getCore xferRun (0 : Nat)).su[(3 : Fin (4 : Nat))].fault : StreamUnit }
          else
            { st := (getCore xferRun (0 : Nat)).su[(3 : Fin (4 : Nat))].st,
              ringBase := (getCore xferRun (0 : Nat)).su[(3 : Fin (4 : Nat))].ringBase,
              ringLen := (getCore xferRun (0 : Nat)).su[(3 : Fin (4 : Nat))].ringLen,
              pc := (getCore xferRun (0 : Nat)).su[(3 : Fin (4 : Nat))].pc + (1 : Nat),
              loops := (getCore xferRun (0 : Nat)).su[(3 : Fin (4 : Nat))].loops,
              a := (getCore xferRun (0 : Nat)).su[(3 : Fin (4 : Nat))].a,
              win := (getCore xferRun (0 : Nat)).su[(3 : Fin (4 : Nat))].win,
              strides := (getCore xferRun (0 : Nat)).su[(3 : Fin (4 : Nat))].strides,
              far := (getCore xferRun (0 : Nat)).su[(3 : Fin (4 : Nat))].far, done := (0 : Nat),
              asked := (getCore xferRun (0 : Nat)).su[(3 : Fin (4 : Nat))].asked,
              met := (getCore xferRun (0 : Nat)).su[(3 : Fin (4 : Nat))].met,
              pos := (getCore xferRun (0 : Nat)).su[(3 : Fin (4 : Nat))].pos,
              filled := (getCore xferRun (0 : Nat)).su[(3 : Fin (4 : Nat))].filled,
              rows := (getCore xferRun (0 : Nat)).su[(3 : Fin (4 : Nat))].rows,
              left := (getCore xferRun (0 : Nat)).su[(3 : Fin (4 : Nat))].left,
              writes := (getCore xferRun (0 : Nat)).su[(3 : Fin (4 : Nat))].writes,
              held := (getCore xferRun (0 : Nat)).su[(3 : Fin (4 : Nat))].held,
              count0 := (getCore xferRun (0 : Nat)).su[(3 : Fin (4 : Nat))].count0,
              count1 := (getCore xferRun (0 : Nat)).su[(3 : Fin (4 : Nat))].count1,
              nextHalf := (getCore xferRun (0 : Nat)).su[(3 : Fin (4 : Nat))].nextHalf,
              last := (getCore xferRun (0 : Nat)).su[(3 : Fin (4 : Nat))].last,
              ending := (getCore xferRun (0 : Nat)).su[(3 : Fin (4 : Nat))].ending,
              stopping := (getCore xferRun (0 : Nat)).su[(3 : Fin (4 : Nat))].stopping,
              err := (getCore xferRun (0 : Nat)).su[(3 : Fin (4 : Nat))].err,
              fault := (getCore xferRun (0 : Nat)).su[(3 : Fin (4 : Nat))].fault : StreamUnit }).pc <
        (64 : Nat) ∧
      (BitVec.extractLsb' (28 : Nat) (4 : Nat)
              (sprog (getCore xferRun (0 : Nat)) (3 : Fin (4 : Nat))
                (if
                      (getCore xferRun (0 : Nat)).su[(3 : Fin (4 : Nat))].done + (1 : Nat) <
                        (BitVec.extractLsb' (0 : Nat) (8 : Nat)
                              (sprog (getCore xferRun (0 : Nat)) (3 : Fin (4 : Nat))
                                (getCore xferRun (0 : Nat)).su[(3 : Fin (4 : Nat))].pc)).toNat +
                          (1 : Nat) then
                    { st := (getCore xferRun (0 : Nat)).su[(3 : Fin (4 : Nat))].st,
                      ringBase := (getCore xferRun (0 : Nat)).su[(3 : Fin (4 : Nat))].ringBase,
                      ringLen := (getCore xferRun (0 : Nat)).su[(3 : Fin (4 : Nat))].ringLen,
                      pc := (getCore xferRun (0 : Nat)).su[(3 : Fin (4 : Nat))].pc,
                      loops := (getCore xferRun (0 : Nat)).su[(3 : Fin (4 : Nat))].loops,
                      a := (getCore xferRun (0 : Nat)).su[(3 : Fin (4 : Nat))].a,
                      win := (getCore xferRun (0 : Nat)).su[(3 : Fin (4 : Nat))].win,
                      strides := (getCore xferRun (0 : Nat)).su[(3 : Fin (4 : Nat))].strides,
                      far := (getCore xferRun (0 : Nat)).su[(3 : Fin (4 : Nat))].far,
                      done := (getCore xferRun (0 : Nat)).su[(3 : Fin (4 : Nat))].done + (1 : Nat),
                      asked := (getCore xferRun (0 : Nat)).su[(3 : Fin (4 : Nat))].asked,
                      met := (getCore xferRun (0 : Nat)).su[(3 : Fin (4 : Nat))].met,
                      pos := (getCore xferRun (0 : Nat)).su[(3 : Fin (4 : Nat))].pos,
                      filled := (getCore xferRun (0 : Nat)).su[(3 : Fin (4 : Nat))].filled,
                      rows := (getCore xferRun (0 : Nat)).su[(3 : Fin (4 : Nat))].rows,
                      left := (getCore xferRun (0 : Nat)).su[(3 : Fin (4 : Nat))].left,
                      writes := (getCore xferRun (0 : Nat)).su[(3 : Fin (4 : Nat))].writes,
                      held := (getCore xferRun (0 : Nat)).su[(3 : Fin (4 : Nat))].held,
                      count0 := (getCore xferRun (0 : Nat)).su[(3 : Fin (4 : Nat))].count0,
                      count1 := (getCore xferRun (0 : Nat)).su[(3 : Fin (4 : Nat))].count1,
                      nextHalf := (getCore xferRun (0 : Nat)).su[(3 : Fin (4 : Nat))].nextHalf,
                      last := (getCore xferRun (0 : Nat)).su[(3 : Fin (4 : Nat))].last,
                      ending := (getCore xferRun (0 : Nat)).su[(3 : Fin (4 : Nat))].ending,
                      stopping := (getCore xferRun (0 : Nat)).su[(3 : Fin (4 : Nat))].stopping,
                      err := (getCore xferRun (0 : Nat)).su[(3 : Fin (4 : Nat))].err,
                      fault := (getCore xferRun (0 : Nat)).su[(3 : Fin (4 : Nat))].fault : StreamUnit }
                  else
                    { st := (getCore xferRun (0 : Nat)).su[(3 : Fin (4 : Nat))].st,
                      ringBase := (getCore xferRun (0 : Nat)).su[(3 : Fin (4 : Nat))].ringBase,
                      ringLen := (getCore xferRun (0 : Nat)).su[(3 : Fin (4 : Nat))].ringLen,
                      pc := (getCore xferRun (0 : Nat)).su[(3 : Fin (4 : Nat))].pc + (1 : Nat),
                      loops := (getCore xferRun (0 : Nat)).su[(3 : Fin (4 : Nat))].loops,
                      a := (getCore xferRun (0 : Nat)).su[(3 : Fin (4 : Nat))].a,
                      win := (getCore xferRun (0 : Nat)).su[(3 : Fin (4 : Nat))].win,
                      strides := (getCore xferRun (0 : Nat)).su[(3 : Fin (4 : Nat))].strides,
                      far := (getCore xferRun (0 : Nat)).su[(3 : Fin (4 : Nat))].far, done := (0 : Nat),
                      asked := (getCore xferRun (0 : Nat)).su[(3 : Fin (4 : Nat))].asked,
                      met := (getCore xferRun (0 : Nat)).su[(3 : Fin (4 : Nat))].met,
                      pos := (getCore xferRun (0 : Nat)).su[(3 : Fin (4 : Nat))].pos,
                      filled := (getCore xferRun (0 : Nat)).su[(3 : Fin (4 : Nat))].filled,
                      rows := (getCore xferRun (0 : Nat)).su[(3 : Fin (4 : Nat))].rows,
                      left := (getCore xferRun (0 : Nat)).su[(3 : Fin (4 : Nat))].left,
                      writes := (getCore xferRun (0 : Nat)).su[(3 : Fin (4 : Nat))].writes,
                      held := (getCore xferRun (0 : Nat)).su[(3 : Fin (4 : Nat))].held,
                      count0 := (getCore xferRun (0 : Nat)).su[(3 : Fin (4 : Nat))].count0,
                      count1 := (getCore xferRun (0 : Nat)).su[(3 : Fin (4 : Nat))].count1,
                      nextHalf := (getCore xferRun (0 : Nat)).su[(3 : Fin (4 : Nat))].nextHalf,
                      last := (getCore xferRun (0 : Nat)).su[(3 : Fin (4 : Nat))].last,
                      ending := (getCore xferRun (0 : Nat)).su[(3 : Fin (4 : Nat))].ending,
                      stopping := (getCore xferRun (0 : Nat)).su[(3 : Fin (4 : Nat))].stopping,
                      err := (getCore xferRun (0 : Nat)).su[(3 : Fin (4 : Nat))].err,
                      fault := (getCore xferRun (0 : Nat)).su[(3 : Fin (4 : Nat))].fault : StreamUnit }).pc) =
            (6 : BitVec (4 : Nat)) ∨
          BitVec.extractLsb' (28 : Nat) (4 : Nat)
              (sprog (getCore xferRun (0 : Nat)) (3 : Fin (4 : Nat))
                (if
                      (getCore xferRun (0 : Nat)).su[(3 : Fin (4 : Nat))].done + (1 : Nat) <
                        (BitVec.extractLsb' (0 : Nat) (8 : Nat)
                              (sprog (getCore xferRun (0 : Nat)) (3 : Fin (4 : Nat))
                                (getCore xferRun (0 : Nat)).su[(3 : Fin (4 : Nat))].pc)).toNat +
                          (1 : Nat) then
                    { st := (getCore xferRun (0 : Nat)).su[(3 : Fin (4 : Nat))].st,
                      ringBase := (getCore xferRun (0 : Nat)).su[(3 : Fin (4 : Nat))].ringBase,
                      ringLen := (getCore xferRun (0 : Nat)).su[(3 : Fin (4 : Nat))].ringLen,
                      pc := (getCore xferRun (0 : Nat)).su[(3 : Fin (4 : Nat))].pc,
                      loops := (getCore xferRun (0 : Nat)).su[(3 : Fin (4 : Nat))].loops,
                      a := (getCore xferRun (0 : Nat)).su[(3 : Fin (4 : Nat))].a,
                      win := (getCore xferRun (0 : Nat)).su[(3 : Fin (4 : Nat))].win,
                      strides := (getCore xferRun (0 : Nat)).su[(3 : Fin (4 : Nat))].strides,
                      far := (getCore xferRun (0 : Nat)).su[(3 : Fin (4 : Nat))].far,
                      done := (getCore xferRun (0 : Nat)).su[(3 : Fin (4 : Nat))].done + (1 : Nat),
                      asked := (getCore xferRun (0 : Nat)).su[(3 : Fin (4 : Nat))].asked,
                      met := (getCore xferRun (0 : Nat)).su[(3 : Fin (4 : Nat))].met,
                      pos := (getCore xferRun (0 : Nat)).su[(3 : Fin (4 : Nat))].pos,
                      filled := (getCore xferRun (0 : Nat)).su[(3 : Fin (4 : Nat))].filled,
                      rows := (getCore xferRun (0 : Nat)).su[(3 : Fin (4 : Nat))].rows,
                      left := (getCore xferRun (0 : Nat)).su[(3 : Fin (4 : Nat))].left,
                      writes := (getCore xferRun (0 : Nat)).su[(3 : Fin (4 : Nat))].writes,
                      held := (getCore xferRun (0 : Nat)).su[(3 : Fin (4 : Nat))].held,
                      count0 := (getCore xferRun (0 : Nat)).su[(3 : Fin (4 : Nat))].count0,
                      count1 := (getCore xferRun (0 : Nat)).su[(3 : Fin (4 : Nat))].count1,
                      nextHalf := (getCore xferRun (0 : Nat)).su[(3 : Fin (4 : Nat))].nextHalf,
                      last := (getCore xferRun (0 : Nat)).su[(3 : Fin (4 : Nat))].last,
                      ending := (getCore xferRun (0 : Nat)).su[(3 : Fin (4 : Nat))].ending,
                      stopping := (getCore xferRun (0 : Nat)).su[(3 : Fin (4 : Nat))].stopping,
                      err := (getCore xferRun (0 : Nat)).su[(3 : Fin (4 : Nat))].err,
                      fault := (getCore xferRun (0 : Nat)).su[(3 : Fin (4 : Nat))].fault : StreamUnit }
                  else
                    { st := (getCore xferRun (0 : Nat)).su[(3 : Fin (4 : Nat))].st,
                      ringBase := (getCore xferRun (0 : Nat)).su[(3 : Fin (4 : Nat))].ringBase,
                      ringLen := (getCore xferRun (0 : Nat)).su[(3 : Fin (4 : Nat))].ringLen,
                      pc := (getCore xferRun (0 : Nat)).su[(3 : Fin (4 : Nat))].pc + (1 : Nat),
                      loops := (getCore xferRun (0 : Nat)).su[(3 : Fin (4 : Nat))].loops,
                      a := (getCore xferRun (0 : Nat)).su[(3 : Fin (4 : Nat))].a,
                      win := (getCore xferRun (0 : Nat)).su[(3 : Fin (4 : Nat))].win,
                      strides := (getCore xferRun (0 : Nat)).su[(3 : Fin (4 : Nat))].strides,
                      far := (getCore xferRun (0 : Nat)).su[(3 : Fin (4 : Nat))].far, done := (0 : Nat),
                      asked := (getCore xferRun (0 : Nat)).su[(3 : Fin (4 : Nat))].asked,
                      met := (getCore xferRun (0 : Nat)).su[(3 : Fin (4 : Nat))].met,
                      pos := (getCore xferRun (0 : Nat)).su[(3 : Fin (4 : Nat))].pos,
                      filled := (getCore xferRun (0 : Nat)).su[(3 : Fin (4 : Nat))].filled,
                      rows := (getCore xferRun (0 : Nat)).su[(3 : Fin (4 : Nat))].rows,
                      left := (getCore xferRun (0 : Nat)).su[(3 : Fin (4 : Nat))].left,
                      writes := (getCore xferRun (0 : Nat)).su[(3 : Fin (4 : Nat))].writes,
                      held := (getCore xferRun (0 : Nat)).su[(3 : Fin (4 : Nat))].held,
                      count0 := (getCore xferRun (0 : Nat)).su[(3 : Fin (4 : Nat))].count0,
                      count1 := (getCore xferRun (0 : Nat)).su[(3 : Fin (4 : Nat))].count1,
                      nextHalf := (getCore xferRun (0 : Nat)).su[(3 : Fin (4 : Nat))].nextHalf,
                      last := (getCore xferRun (0 : Nat)).su[(3 : Fin (4 : Nat))].last,
                      ending := (getCore xferRun (0 : Nat)).su[(3 : Fin (4 : Nat))].ending,
                      stopping := (getCore xferRun (0 : Nat)).su[(3 : Fin (4 : Nat))].stopping,
                      err := (getCore xferRun (0 : Nat)).su[(3 : Fin (4 : Nat))].err,
                      fault := (getCore xferRun (0 : Nat)).su[(3 : Fin (4 : Nat))].fault : StreamUnit }).pc) =
            (7 : BitVec (4 : Nat))) ∧
        BitVec.extractLsb' (8 : Nat) (20 : Nat)
              (sprog (getCore xferRun (0 : Nat)) (3 : Fin (4 : Nat))
                (if
                      (getCore xferRun (0 : Nat)).su[(3 : Fin (4 : Nat))].done + (1 : Nat) <
                        (BitVec.extractLsb' (0 : Nat) (8 : Nat)
                              (sprog (getCore xferRun (0 : Nat)) (3 : Fin (4 : Nat))
                                (getCore xferRun (0 : Nat)).su[(3 : Fin (4 : Nat))].pc)).toNat +
                          (1 : Nat) then
                    { st := (getCore xferRun (0 : Nat)).su[(3 : Fin (4 : Nat))].st,
                      ringBase := (getCore xferRun (0 : Nat)).su[(3 : Fin (4 : Nat))].ringBase,
                      ringLen := (getCore xferRun (0 : Nat)).su[(3 : Fin (4 : Nat))].ringLen,
                      pc := (getCore xferRun (0 : Nat)).su[(3 : Fin (4 : Nat))].pc,
                      loops := (getCore xferRun (0 : Nat)).su[(3 : Fin (4 : Nat))].loops,
                      a := (getCore xferRun (0 : Nat)).su[(3 : Fin (4 : Nat))].a,
                      win := (getCore xferRun (0 : Nat)).su[(3 : Fin (4 : Nat))].win,
                      strides := (getCore xferRun (0 : Nat)).su[(3 : Fin (4 : Nat))].strides,
                      far := (getCore xferRun (0 : Nat)).su[(3 : Fin (4 : Nat))].far,
                      done := (getCore xferRun (0 : Nat)).su[(3 : Fin (4 : Nat))].done + (1 : Nat),
                      asked := (getCore xferRun (0 : Nat)).su[(3 : Fin (4 : Nat))].asked,
                      met := (getCore xferRun (0 : Nat)).su[(3 : Fin (4 : Nat))].met,
                      pos := (getCore xferRun (0 : Nat)).su[(3 : Fin (4 : Nat))].pos,
                      filled := (getCore xferRun (0 : Nat)).su[(3 : Fin (4 : Nat))].filled,
                      rows := (getCore xferRun (0 : Nat)).su[(3 : Fin (4 : Nat))].rows,
                      left := (getCore xferRun (0 : Nat)).su[(3 : Fin (4 : Nat))].left,
                      writes := (getCore xferRun (0 : Nat)).su[(3 : Fin (4 : Nat))].writes,
                      held := (getCore xferRun (0 : Nat)).su[(3 : Fin (4 : Nat))].held,
                      count0 := (getCore xferRun (0 : Nat)).su[(3 : Fin (4 : Nat))].count0,
                      count1 := (getCore xferRun (0 : Nat)).su[(3 : Fin (4 : Nat))].count1,
                      nextHalf := (getCore xferRun (0 : Nat)).su[(3 : Fin (4 : Nat))].nextHalf,
                      last := (getCore xferRun (0 : Nat)).su[(3 : Fin (4 : Nat))].last,
                      ending := (getCore xferRun (0 : Nat)).su[(3 : Fin (4 : Nat))].ending,
                      stopping := (getCore xferRun (0 : Nat)).su[(3 : Fin (4 : Nat))].stopping,
                      err := (getCore xferRun (0 : Nat)).su[(3 : Fin (4 : Nat))].err,
                      fault := (getCore xferRun (0 : Nat)).su[(3 : Fin (4 : Nat))].fault : StreamUnit }
                  else
                    { st := (getCore xferRun (0 : Nat)).su[(3 : Fin (4 : Nat))].st,
                      ringBase := (getCore xferRun (0 : Nat)).su[(3 : Fin (4 : Nat))].ringBase,
                      ringLen := (getCore xferRun (0 : Nat)).su[(3 : Fin (4 : Nat))].ringLen,
                      pc := (getCore xferRun (0 : Nat)).su[(3 : Fin (4 : Nat))].pc + (1 : Nat),
                      loops := (getCore xferRun (0 : Nat)).su[(3 : Fin (4 : Nat))].loops,
                      a := (getCore xferRun (0 : Nat)).su[(3 : Fin (4 : Nat))].a,
                      win := (getCore xferRun (0 : Nat)).su[(3 : Fin (4 : Nat))].win,
                      strides := (getCore xferRun (0 : Nat)).su[(3 : Fin (4 : Nat))].strides,
                      far := (getCore xferRun (0 : Nat)).su[(3 : Fin (4 : Nat))].far, done := (0 : Nat),
                      asked := (getCore xferRun (0 : Nat)).su[(3 : Fin (4 : Nat))].asked,
                      met := (getCore xferRun (0 : Nat)).su[(3 : Fin (4 : Nat))].met,
                      pos := (getCore xferRun (0 : Nat)).su[(3 : Fin (4 : Nat))].pos,
                      filled := (getCore xferRun (0 : Nat)).su[(3 : Fin (4 : Nat))].filled,
                      rows := (getCore xferRun (0 : Nat)).su[(3 : Fin (4 : Nat))].rows,
                      left := (getCore xferRun (0 : Nat)).su[(3 : Fin (4 : Nat))].left,
                      writes := (getCore xferRun (0 : Nat)).su[(3 : Fin (4 : Nat))].writes,
                      held := (getCore xferRun (0 : Nat)).su[(3 : Fin (4 : Nat))].held,
                      count0 := (getCore xferRun (0 : Nat)).su[(3 : Fin (4 : Nat))].count0,
                      count1 := (getCore xferRun (0 : Nat)).su[(3 : Fin (4 : Nat))].count1,
                      nextHalf := (getCore xferRun (0 : Nat)).su[(3 : Fin (4 : Nat))].nextHalf,
                      last := (getCore xferRun (0 : Nat)).su[(3 : Fin (4 : Nat))].last,
                      ending := (getCore xferRun (0 : Nat)).su[(3 : Fin (4 : Nat))].ending,
                      stopping := (getCore xferRun (0 : Nat)).su[(3 : Fin (4 : Nat))].stopping,
                      err := (getCore xferRun (0 : Nat)).su[(3 : Fin (4 : Nat))].err,
                      fault := (getCore xferRun (0 : Nat)).su[(3 : Fin (4 : Nat))].fault : StreamUnit }).pc) =
            (0 : BitVec (20 : Nat)) ∧
          (if
                  (getCore xferRun (0 : Nat)).su[(3 : Fin (4 : Nat))].done + (1 : Nat) <
                    (BitVec.extractLsb' (0 : Nat) (8 : Nat)
                          (sprog (getCore xferRun (0 : Nat)) (3 : Fin (4 : Nat))
                            (getCore xferRun (0 : Nat)).su[(3 : Fin (4 : Nat))].pc)).toNat +
                      (1 : Nat) then
                { st := (getCore xferRun (0 : Nat)).su[(3 : Fin (4 : Nat))].st,
                  ringBase := (getCore xferRun (0 : Nat)).su[(3 : Fin (4 : Nat))].ringBase,
                  ringLen := (getCore xferRun (0 : Nat)).su[(3 : Fin (4 : Nat))].ringLen,
                  pc := (getCore xferRun (0 : Nat)).su[(3 : Fin (4 : Nat))].pc,
                  loops := (getCore xferRun (0 : Nat)).su[(3 : Fin (4 : Nat))].loops,
                  a := (getCore xferRun (0 : Nat)).su[(3 : Fin (4 : Nat))].a,
                  win := (getCore xferRun (0 : Nat)).su[(3 : Fin (4 : Nat))].win,
                  strides := (getCore xferRun (0 : Nat)).su[(3 : Fin (4 : Nat))].strides,
                  far := (getCore xferRun (0 : Nat)).su[(3 : Fin (4 : Nat))].far,
                  done := (getCore xferRun (0 : Nat)).su[(3 : Fin (4 : Nat))].done + (1 : Nat),
                  asked := (getCore xferRun (0 : Nat)).su[(3 : Fin (4 : Nat))].asked,
                  met := (getCore xferRun (0 : Nat)).su[(3 : Fin (4 : Nat))].met,
                  pos := (getCore xferRun (0 : Nat)).su[(3 : Fin (4 : Nat))].pos,
                  filled := (getCore xferRun (0 : Nat)).su[(3 : Fin (4 : Nat))].filled,
                  rows := (getCore xferRun (0 : Nat)).su[(3 : Fin (4 : Nat))].rows,
                  left := (getCore xferRun (0 : Nat)).su[(3 : Fin (4 : Nat))].left,
                  writes := (getCore xferRun (0 : Nat)).su[(3 : Fin (4 : Nat))].writes,
                  held := (getCore xferRun (0 : Nat)).su[(3 : Fin (4 : Nat))].held,
                  count0 := (getCore xferRun (0 : Nat)).su[(3 : Fin (4 : Nat))].count0,
                  count1 := (getCore xferRun (0 : Nat)).su[(3 : Fin (4 : Nat))].count1,
                  nextHalf := (getCore xferRun (0 : Nat)).su[(3 : Fin (4 : Nat))].nextHalf,
                  last := (getCore xferRun (0 : Nat)).su[(3 : Fin (4 : Nat))].last,
                  ending := (getCore xferRun (0 : Nat)).su[(3 : Fin (4 : Nat))].ending,
                  stopping := (getCore xferRun (0 : Nat)).su[(3 : Fin (4 : Nat))].stopping,
                  err := (getCore xferRun (0 : Nat)).su[(3 : Fin (4 : Nat))].err,
                  fault := (getCore xferRun (0 : Nat)).su[(3 : Fin (4 : Nat))].fault : StreamUnit }
              else
                { st := (getCore xferRun (0 : Nat)).su[(3 : Fin (4 : Nat))].st,
                  ringBase := (getCore xferRun (0 : Nat)).su[(3 : Fin (4 : Nat))].ringBase,
                  ringLen := (getCore xferRun (0 : Nat)).su[(3 : Fin (4 : Nat))].ringLen,
                  pc := (getCore xferRun (0 : Nat)).su[(3 : Fin (4 : Nat))].pc + (1 : Nat),
                  loops := (getCore xferRun (0 : Nat)).su[(3 : Fin (4 : Nat))].loops,
                  a := (getCore xferRun (0 : Nat)).su[(3 : Fin (4 : Nat))].a,
                  win := (getCore xferRun (0 : Nat)).su[(3 : Fin (4 : Nat))].win,
                  strides := (getCore xferRun (0 : Nat)).su[(3 : Fin (4 : Nat))].strides,
                  far := (getCore xferRun (0 : Nat)).su[(3 : Fin (4 : Nat))].far, done := (0 : Nat),
                  asked := (getCore xferRun (0 : Nat)).su[(3 : Fin (4 : Nat))].asked,
                  met := (getCore xferRun (0 : Nat)).su[(3 : Fin (4 : Nat))].met,
                  pos := (getCore xferRun (0 : Nat)).su[(3 : Fin (4 : Nat))].pos,
                  filled := (getCore xferRun (0 : Nat)).su[(3 : Fin (4 : Nat))].filled,
                  rows := (getCore xferRun (0 : Nat)).su[(3 : Fin (4 : Nat))].rows,
                  left := (getCore xferRun (0 : Nat)).su[(3 : Fin (4 : Nat))].left,
                  writes := (getCore xferRun (0 : Nat)).su[(3 : Fin (4 : Nat))].writes,
                  held := (getCore xferRun (0 : Nat)).su[(3 : Fin (4 : Nat))].held,
                  count0 := (getCore xferRun (0 : Nat)).su[(3 : Fin (4 : Nat))].count0,
                  count1 := (getCore xferRun (0 : Nat)).su[(3 : Fin (4 : Nat))].count1,
                  nextHalf := (getCore xferRun (0 : Nat)).su[(3 : Fin (4 : Nat))].nextHalf,
                  last := (getCore xferRun (0 : Nat)).su[(3 : Fin (4 : Nat))].last,
                  ending := (getCore xferRun (0 : Nat)).su[(3 : Fin (4 : Nat))].ending,
                  stopping := (getCore xferRun (0 : Nat)).su[(3 : Fin (4 : Nat))].stopping,
                  err := (getCore xferRun (0 : Nat)).su[(3 : Fin (4 : Nat))].err,
                  fault := (getCore xferRun (0 : Nat)).su[(3 : Fin (4 : Nat))].fault : StreamUnit }).far ≠
            none) ∧
    ((getCore xferRun 0).su[3].st = SState.run ∨ (getCore xferRun 0).su[3].st = SState.waitData) ∧
    BitVec.extractLsb' 0 24 (csrGet (getCore xferRun 0) 25732) ≠ 0 ∧
    clocked xferRun 0 = true ∧
    (getCore xferRun 0).su[3].st ≠ SState.idle ∧
    (getCore xferRun 0).su[3].st ≠ SState.fault ∧
    xferRun.fab.behind = [] ∧
    unanswered (getCore xferRun 0).su[3] = false ∧
    (getCore xferRun 0).su[3].writes = [] :=
  by decide +kernel

theorem witness_StreamMoves_4 :
    slotOf skipWait (Cpu.core 0) = some 0 ∧
    (getCore skipWait 0).held = false ∧
    isOut (getCore skipWait 0) 3 = false ∧
    ((getCore skipWait 0).su[3].st = SState.run ∨ (getCore skipWait 0).su[3].st = SState.waitData) ∧
    (getCore skipWait 0).su[3].rows = [] ∧
    ((getCore skipWait 0).su[3].met = none →
      ((getCore skipWait 0).su[3].pc < 64 ∧
          (BitVec.extractLsb' 28 4 (sprog (getCore skipWait 0) 3 (getCore skipWait 0).su[3].pc) = 6 ∨
              BitVec.extractLsb' 28 4 (sprog (getCore skipWait 0) 3 (getCore skipWait 0).su[3].pc) = 7) ∧
            BitVec.extractLsb' 8 20 (sprog (getCore skipWait 0) 3 (getCore skipWait 0).su[3].pc) = 0 ∧
              (getCore skipWait 0).su[3].far ≠ none) ∧
        ringRoom (getCore skipWait 0).su[3] ≤ (getCore skipWait 0).su[3].asked.length) ∧
    4 - (getCore skipWait 0).su[3].pos % 4 ≤ (getCore skipWait 0).su[3].asked.length ∧
    heldHalf (getCore skipWait 0).su[3] (halfOf (getCore skipWait 0).su[3] (getCore skipWait 0).su[3].pos) = false ∧
    (∀ (m : SMove),
      m ∈ List.take (4 - (getCore skipWait 0).su[3].pos % 4) (getCore skipWait 0).su[3].asked →
        m.what = SWhat.blank) ∧
    BitVec.extractLsb' 0 24 (csrGet (getCore skipWait 0) 25732) ≠ 0 ∧
    clocked skipWait 0 = true ∧
    (getCore skipWait 0).su[3].st ≠ SState.idle ∧
    (getCore skipWait 0).su[3].st ≠ SState.fault ∧
    (getCore skipWait 0).su[3].stopping = false ∧
    skipWait.fab.behind = [] ∧
    unanswered (getCore skipWait 0).su[3] = false ∧
    (getCore skipWait 0).su[3].writes = [] :=
  by decide +kernel

theorem witness_StreamMoves_5 :
    slotOf xferWait (Cpu.core 0) = some 0 ∧
    (getCore xferWait 0).held = false ∧
    isOut (getCore xferWait 0) 3 = false ∧
    ((getCore xferWait 0).su[3].st = SState.run ∨ (getCore xferWait 0).su[3].st = SState.waitData) ∧
    (getCore xferWait 0).su[3].rows = [] ∧
    (getCore xferWait 0).su[3].asked = [{ spc := 0, off := 0, what := SWhat.here 2 0 }] ∧
    (getCore xferWait 0).su[3].pos % 4 = 3 ∧
    readUnit xferWait 2 0 = ((readUnit xferWait 2 0).fst, some { data := 0, poison := 0 }) ∧
    ((getCore xferWait 0).su[3].met = none →
      ((getCore xferWait 0).su[3].pc < 64 ∧
          (BitVec.extractLsb' 28 4 (sprog (getCore xferWait 0) 3 (getCore xferWait 0).su[3].pc) = 6 ∨
              BitVec.extractLsb' 28 4 (sprog (getCore xferWait 0) 3 (getCore xferWait 0).su[3].pc) = 7) ∧
            BitVec.extractLsb' 8 20 (sprog (getCore xferWait 0) 3 (getCore xferWait 0).su[3].pc) = 0 ∧
              (getCore xferWait 0).su[3].far ≠ none) ∧
        ringRoom (getCore xferWait 0).su[3] ≤ (getCore xferWait 0).su[3].asked.length) ∧
    BitVec.extractLsb' 0 24 (csrGet (getCore xferWait 0) 25732) ≠ 0 ∧
    clocked xferWait 0 = true ∧
    (getCore xferWait 0).su[3].st ≠ SState.idle ∧
    (getCore xferWait 0).su[3].st ≠ SState.fault ∧
    (getCore xferWait 0).su[3].stopping = false ∧
    xferWait.fab.behind = [] ∧
    (unanswered (getCore xferWait 0).su[3] = true ∨ (getCore xferWait 0).su[3].writes ≠ []) :=
  by decide +kernel

theorem witness_StreamMoves_6 :
    slotOf xferBad (Cpu.core 0) = some 0 ∧
    (getCore xferBad 0).held = false ∧
    isOut (getCore xferBad 0) 3 = false ∧
    ((getCore xferBad 0).su[3].st = SState.run ∨ (getCore xferBad 0).su[3].st = SState.waitData) ∧
    (getCore xferBad 0).su[3].rows = [] ∧
    (getCore xferBad 0).su[3].asked = [{ spc := 0, off := 0, what := SWhat.here 2 805306368 }] ∧
    (getCore xferBad 0).su[3].pos % 4 = 3 ∧
    readUnit xferBad 2 805306368 = ((readUnit xferBad 2 805306368).fst, none) ∧
    BitVec.extractLsb' 0 24 (csrGet (getCore xferBad 0) 25732) ≠ 0 ∧
    clocked xferBad 0 = true ∧
    (getCore xferBad 0).su[3].st ≠ SState.idle ∧
    (getCore xferBad 0).su[3].st ≠ SState.fault ∧
    (getCore xferBad 0).su[3].stopping = false ∧
    xferBad.fab.behind = [] ∧
    (unanswered (getCore xferBad 0).su[3] = true ∨ (getCore xferBad 0).su[3].writes ≠ []) :=
  by decide +kernel

theorem witness_StreamMoves_7 :
    slotOf xferFar (Cpu.core 0) = some 0 ∧
    (getCore xferFar 0).held = false ∧
    isOut (getCore xferFar 0) 3 = false ∧
    ((getCore xferFar 0).su[3].st = SState.run ∨ (getCore xferFar 0).su[3].st = SState.waitData) ∧
    (getCore xferFar 0).su[3].rows = [] ∧
    (getCore xferFar 0).su[3].asked = [{ spc := 0, off := 0, what := SWhat.far 7 none }] ∧
    BitVec.extractLsb' 0 24 (csrGet (getCore xferFar 0) 25732) ≠ 0 ∧
    clocked xferFar 0 = true ∧
    (getCore xferFar 0).su[3].st ≠ SState.idle ∧
    (getCore xferFar 0).su[3].st ≠ SState.fault ∧
    (getCore xferFar 0).su[3].stopping = false ∧
    xferFar.fab.behind = [] ∧
    (unanswered (getCore xferFar 0).su[3] = true ∨ (getCore xferFar 0).su[3].writes ≠ []) :=
  by decide +kernel

theorem witness_StreamMoves_8 :
    slotOf endFull (Cpu.core 0) = some 0 ∧
    (getCore endFull 0).held = false ∧
    isOut (getCore endFull 0) 3 = false ∧
    (getCore endFull 0).su[3].stopping = false ∧
    ((getCore endFull 0).su[3].st = SState.run ∨
      (getCore endFull 0).su[3].st = SState.waitRing ∨ (getCore endFull 0).su[3].st = SState.waitData) ∧
    (getCore endFull 0).su[3].rows = [] ∧
    (getCore endFull 0).su[3].asked = [] ∧
    (getCore endFull 0).su[3].met = none ∧
    ((getCore endFull 0).su[3].pc < 64 ∧ sprog (getCore endFull 0) 3 (getCore endFull 0).su[3].pc = 0) ∧
    (getCore endFull 0).su[3].filled = 0 ∧
    BitVec.extractLsb' 0 24 (csrGet (getCore endFull 0) 25732) ≠ 0 ∧
    clocked endFull 0 = true ∧
    (getCore endFull 0).su[3].st ≠ SState.idle ∧
    (getCore endFull 0).su[3].st ≠ SState.fault ∧
    endFull.fab.behind = [] ∧
    unanswered (getCore endFull 0).su[3] = false ∧
    (getCore endFull 0).su[3].writes = [] :=
  by decide +kernel

theorem witness_StreamMoves_9 :
    slotOf markFull (Cpu.core 0) = some 0 ∧
    (getCore markFull 0).held = false ∧
    isOut (getCore markFull 0) 3 = false ∧
    (getCore markFull 0).su[3].stopping = false ∧
    ((getCore markFull 0).su[3].st = SState.run ∨
      (getCore markFull 0).su[3].st = SState.waitRing ∨ (getCore markFull 0).su[3].st = SState.waitData) ∧
    (getCore markFull 0).su[3].rows = [] ∧
    (getCore markFull 0).su[3].asked = [] ∧
    (getCore markFull 0).su[3].met = none ∧
    (getCore markFull 0).su[3].pc < 64 ∧
    sprog (getCore markFull 0) 3 (getCore markFull 0).su[3].pc = 2415919104 ∧
    (getCore markFull 0).su[3].filled = 0 ∧
    BitVec.extractLsb' 0 24 (csrGet (getCore markFull 0) 25732) ≠ 0 ∧
    clocked markFull 0 = true ∧
    (getCore markFull 0).su[3].st ≠ SState.idle ∧
    (getCore markFull 0).su[3].st ≠ SState.fault ∧
    markFull.fab.behind = [] ∧
    unanswered (getCore markFull 0).su[3] = false ∧
    (getCore markFull 0).su[3].writes = [] :=
  by decide +kernel

theorem witness_StreamMoves_10 :
    slotOf skipLast (Cpu.core 0) = some 0 ∧
    (getCore skipLast 0).held = false ∧
    isOut (getCore skipLast 0) 3 = false ∧
    (getCore skipLast 0).su[3].stopping = false ∧
    ((getCore skipLast 0).su[3].st = SState.run ∨
      (getCore skipLast 0).su[3].st = SState.waitRing ∨ (getCore skipLast 0).su[3].st = SState.waitData) ∧
    (getCore skipLast 0).su[3].rows = [] ∧
    (getCore skipLast 0).su[3].asked = [] ∧
    (getCore skipLast 0).su[3].met = none ∧
    heldHalf (getCore skipLast 0).su[3] (halfOf (getCore skipLast 0).su[3] (getCore skipLast 0).su[3].pos) = false ∧
    ringRoom (getCore skipLast 0).su[3] = 1 ∧
    ((getCore skipLast 0).su[3].pc < 64 ∧
      BitVec.extractLsb' 28 4 (sprog (getCore skipLast 0) 3 (getCore skipLast 0).su[3].pc) = 7 ∧
        BitVec.extractLsb' 8 20 (sprog (getCore skipLast 0) 3 (getCore skipLast 0).su[3].pc) = 0 ∧
          (getCore skipLast 0).su[3].far ≠ none) ∧
    ((if
              (getCore skipLast (0 : Nat)).su[(3 : Fin (4 : Nat))].done + (1 : Nat) <
                (BitVec.extractLsb' (0 : Nat) (8 : Nat)
                      (sprog (getCore skipLast (0 : Nat)) (3 : Fin (4 : Nat))
                        (getCore skipLast (0 : Nat)).su[(3 : Fin (4 : Nat))].pc)).toNat +
                  (1 : Nat) then
            { st := (getCore skipLast (0 : Nat)).su[(3 : Fin (4 : Nat))].st,
              ringBase := (getCore skipLast (0 : Nat)).su[(3 : Fin (4 : Nat))].ringBase,
              ringLen := (getCore skipLast (0 : Nat)).su[(3 : Fin (4 : Nat))].ringLen,
              pc := (getCore skipLast (0 : Nat)).su[(3 : Fin (4 : Nat))].pc,
              loops := (getCore skipLast (0 : Nat)).su[(3 : Fin (4 : Nat))].loops,
              a := (getCore skipLast (0 : Nat)).su[(3 : Fin (4 : Nat))].a,
              win := (getCore skipLast (0 : Nat)).su[(3 : Fin (4 : Nat))].win,
              strides := (getCore skipLast (0 : Nat)).su[(3 : Fin (4 : Nat))].strides,
              far := (getCore skipLast (0 : Nat)).su[(3 : Fin (4 : Nat))].far,
              done := (getCore skipLast (0 : Nat)).su[(3 : Fin (4 : Nat))].done + (1 : Nat),
              asked := (getCore skipLast (0 : Nat)).su[(3 : Fin (4 : Nat))].asked,
              met := (getCore skipLast (0 : Nat)).su[(3 : Fin (4 : Nat))].met,
              pos := (getCore skipLast (0 : Nat)).su[(3 : Fin (4 : Nat))].pos,
              filled := (getCore skipLast (0 : Nat)).su[(3 : Fin (4 : Nat))].filled,
              rows := (getCore skipLast (0 : Nat)).su[(3 : Fin (4 : Nat))].rows,
              left := (getCore skipLast (0 : Nat)).su[(3 : Fin (4 : Nat))].left,
              writes := (getCore skipLast (0 : Nat)).su[(3 : Fin (4 : Nat))].writes,
              held := (getCore skipLast (0 : Nat)).su[(3 : Fin (4 : Nat))].held,
              count0 := (getCore skipLast (0 : Nat)).su[(3 : Fin (4 : Nat))].count0,
              count1 := (getCore skipLast (0 : Nat)).su[(3 : Fin (4 : Nat))].count1,
              nextHalf := (getCore skipLast (0 : Nat)).su[(3 : Fin (4 : Nat))].nextHalf,
              last := (getCore skipLast (0 : Nat)).su[(3 : Fin (4 : Nat))].last,
              ending := (getCore skipLast (0 : Nat)).su[(3 : Fin (4 : Nat))].ending,
              stopping := (getCore skipLast (0 : Nat)).su[(3 : Fin (4 : Nat))].stopping,
              err := (getCore skipLast (0 : Nat)).su[(3 : Fin (4 : Nat))].err,
              fault := (getCore skipLast (0 : Nat)).su[(3 : Fin (4 : Nat))].fault : StreamUnit }
          else
            { st := (getCore skipLast (0 : Nat)).su[(3 : Fin (4 : Nat))].st,
              ringBase := (getCore skipLast (0 : Nat)).su[(3 : Fin (4 : Nat))].ringBase,
              ringLen := (getCore skipLast (0 : Nat)).su[(3 : Fin (4 : Nat))].ringLen,
              pc := (getCore skipLast (0 : Nat)).su[(3 : Fin (4 : Nat))].pc + (1 : Nat),
              loops := (getCore skipLast (0 : Nat)).su[(3 : Fin (4 : Nat))].loops,
              a := (getCore skipLast (0 : Nat)).su[(3 : Fin (4 : Nat))].a,
              win := (getCore skipLast (0 : Nat)).su[(3 : Fin (4 : Nat))].win,
              strides := (getCore skipLast (0 : Nat)).su[(3 : Fin (4 : Nat))].strides,
              far := (getCore skipLast (0 : Nat)).su[(3 : Fin (4 : Nat))].far, done := (0 : Nat),
              asked := (getCore skipLast (0 : Nat)).su[(3 : Fin (4 : Nat))].asked,
              met := (getCore skipLast (0 : Nat)).su[(3 : Fin (4 : Nat))].met,
              pos := (getCore skipLast (0 : Nat)).su[(3 : Fin (4 : Nat))].pos,
              filled := (getCore skipLast (0 : Nat)).su[(3 : Fin (4 : Nat))].filled,
              rows := (getCore skipLast (0 : Nat)).su[(3 : Fin (4 : Nat))].rows,
              left := (getCore skipLast (0 : Nat)).su[(3 : Fin (4 : Nat))].left,
              writes := (getCore skipLast (0 : Nat)).su[(3 : Fin (4 : Nat))].writes,
              held := (getCore skipLast (0 : Nat)).su[(3 : Fin (4 : Nat))].held,
              count0 := (getCore skipLast (0 : Nat)).su[(3 : Fin (4 : Nat))].count0,
              count1 := (getCore skipLast (0 : Nat)).su[(3 : Fin (4 : Nat))].count1,
              nextHalf := (getCore skipLast (0 : Nat)).su[(3 : Fin (4 : Nat))].nextHalf,
              last := (getCore skipLast (0 : Nat)).su[(3 : Fin (4 : Nat))].last,
              ending := (getCore skipLast (0 : Nat)).su[(3 : Fin (4 : Nat))].ending,
              stopping := (getCore skipLast (0 : Nat)).su[(3 : Fin (4 : Nat))].stopping,
              err := (getCore skipLast (0 : Nat)).su[(3 : Fin (4 : Nat))].err,
              fault := (getCore skipLast (0 : Nat)).su[(3 : Fin (4 : Nat))].fault : StreamUnit }).pc <
        (64 : Nat) ∧
      sprog (getCore skipLast (0 : Nat)) (3 : Fin (4 : Nat))
          (if
                (getCore skipLast (0 : Nat)).su[(3 : Fin (4 : Nat))].done + (1 : Nat) <
                  (BitVec.extractLsb' (0 : Nat) (8 : Nat)
                        (sprog (getCore skipLast (0 : Nat)) (3 : Fin (4 : Nat))
                          (getCore skipLast (0 : Nat)).su[(3 : Fin (4 : Nat))].pc)).toNat +
                    (1 : Nat) then
              { st := (getCore skipLast (0 : Nat)).su[(3 : Fin (4 : Nat))].st,
                ringBase := (getCore skipLast (0 : Nat)).su[(3 : Fin (4 : Nat))].ringBase,
                ringLen := (getCore skipLast (0 : Nat)).su[(3 : Fin (4 : Nat))].ringLen,
                pc := (getCore skipLast (0 : Nat)).su[(3 : Fin (4 : Nat))].pc,
                loops := (getCore skipLast (0 : Nat)).su[(3 : Fin (4 : Nat))].loops,
                a := (getCore skipLast (0 : Nat)).su[(3 : Fin (4 : Nat))].a,
                win := (getCore skipLast (0 : Nat)).su[(3 : Fin (4 : Nat))].win,
                strides := (getCore skipLast (0 : Nat)).su[(3 : Fin (4 : Nat))].strides,
                far := (getCore skipLast (0 : Nat)).su[(3 : Fin (4 : Nat))].far,
                done := (getCore skipLast (0 : Nat)).su[(3 : Fin (4 : Nat))].done + (1 : Nat),
                asked := (getCore skipLast (0 : Nat)).su[(3 : Fin (4 : Nat))].asked,
                met := (getCore skipLast (0 : Nat)).su[(3 : Fin (4 : Nat))].met,
                pos := (getCore skipLast (0 : Nat)).su[(3 : Fin (4 : Nat))].pos,
                filled := (getCore skipLast (0 : Nat)).su[(3 : Fin (4 : Nat))].filled,
                rows := (getCore skipLast (0 : Nat)).su[(3 : Fin (4 : Nat))].rows,
                left := (getCore skipLast (0 : Nat)).su[(3 : Fin (4 : Nat))].left,
                writes := (getCore skipLast (0 : Nat)).su[(3 : Fin (4 : Nat))].writes,
                held := (getCore skipLast (0 : Nat)).su[(3 : Fin (4 : Nat))].held,
                count0 := (getCore skipLast (0 : Nat)).su[(3 : Fin (4 : Nat))].count0,
                count1 := (getCore skipLast (0 : Nat)).su[(3 : Fin (4 : Nat))].count1,
                nextHalf := (getCore skipLast (0 : Nat)).su[(3 : Fin (4 : Nat))].nextHalf,
                last := (getCore skipLast (0 : Nat)).su[(3 : Fin (4 : Nat))].last,
                ending := (getCore skipLast (0 : Nat)).su[(3 : Fin (4 : Nat))].ending,
                stopping := (getCore skipLast (0 : Nat)).su[(3 : Fin (4 : Nat))].stopping,
                err := (getCore skipLast (0 : Nat)).su[(3 : Fin (4 : Nat))].err,
                fault := (getCore skipLast (0 : Nat)).su[(3 : Fin (4 : Nat))].fault : StreamUnit }
            else
              { st := (getCore skipLast (0 : Nat)).su[(3 : Fin (4 : Nat))].st,
                ringBase := (getCore skipLast (0 : Nat)).su[(3 : Fin (4 : Nat))].ringBase,
                ringLen := (getCore skipLast (0 : Nat)).su[(3 : Fin (4 : Nat))].ringLen,
                pc := (getCore skipLast (0 : Nat)).su[(3 : Fin (4 : Nat))].pc + (1 : Nat),
                loops := (getCore skipLast (0 : Nat)).su[(3 : Fin (4 : Nat))].loops,
                a := (getCore skipLast (0 : Nat)).su[(3 : Fin (4 : Nat))].a,
                win := (getCore skipLast (0 : Nat)).su[(3 : Fin (4 : Nat))].win,
                strides := (getCore skipLast (0 : Nat)).su[(3 : Fin (4 : Nat))].strides,
                far := (getCore skipLast (0 : Nat)).su[(3 : Fin (4 : Nat))].far, done := (0 : Nat),
                asked := (getCore skipLast (0 : Nat)).su[(3 : Fin (4 : Nat))].asked,
                met := (getCore skipLast (0 : Nat)).su[(3 : Fin (4 : Nat))].met,
                pos := (getCore skipLast (0 : Nat)).su[(3 : Fin (4 : Nat))].pos,
                filled := (getCore skipLast (0 : Nat)).su[(3 : Fin (4 : Nat))].filled,
                rows := (getCore skipLast (0 : Nat)).su[(3 : Fin (4 : Nat))].rows,
                left := (getCore skipLast (0 : Nat)).su[(3 : Fin (4 : Nat))].left,
                writes := (getCore skipLast (0 : Nat)).su[(3 : Fin (4 : Nat))].writes,
                held := (getCore skipLast (0 : Nat)).su[(3 : Fin (4 : Nat))].held,
                count0 := (getCore skipLast (0 : Nat)).su[(3 : Fin (4 : Nat))].count0,
                count1 := (getCore skipLast (0 : Nat)).su[(3 : Fin (4 : Nat))].count1,
                nextHalf := (getCore skipLast (0 : Nat)).su[(3 : Fin (4 : Nat))].nextHalf,
                last := (getCore skipLast (0 : Nat)).su[(3 : Fin (4 : Nat))].last,
                ending := (getCore skipLast (0 : Nat)).su[(3 : Fin (4 : Nat))].ending,
                stopping := (getCore skipLast (0 : Nat)).su[(3 : Fin (4 : Nat))].stopping,
                err := (getCore skipLast (0 : Nat)).su[(3 : Fin (4 : Nat))].err,
                fault := (getCore skipLast (0 : Nat)).su[(3 : Fin (4 : Nat))].fault : StreamUnit }).pc =
        (0 : Word)) ∧
    ((getCore skipLast 0).su[3].st = SState.run ∨ (getCore skipLast 0).su[3].st = SState.waitData) ∧
    BitVec.extractLsb' 0 24 (csrGet (getCore skipLast 0) 25732) ≠ 0 ∧
    clocked skipLast 0 = true ∧
    (getCore skipLast 0).su[3].st ≠ SState.idle ∧
    (getCore skipLast 0).su[3].st ≠ SState.fault ∧
    skipLast.fab.behind = [] ∧
    unanswered (getCore skipLast 0).su[3] = false ∧
    (getCore skipLast 0).su[3].writes = [] :=
  by decide +kernel

theorem witness_StreamMoves_11 :
    slotOf metRow (Cpu.core 0) = some 0 ∧
    (getCore metRow 0).held = false ∧
    isOut (getCore metRow 0) 3 = false ∧
    ((getCore metRow 0).su[3].st = SState.run ∨ (getCore metRow 0).su[3].st = SState.waitData) ∧
    (getCore metRow 0).su[3].rows = [] ∧
    ((getCore metRow 0).su[3].met = none →
      ((getCore metRow 0).su[3].pc < 64 ∧
          (BitVec.extractLsb' 28 4 (sprog (getCore metRow 0) 3 (getCore metRow 0).su[3].pc) = 6 ∨
              BitVec.extractLsb' 28 4 (sprog (getCore metRow 0) 3 (getCore metRow 0).su[3].pc) = 7) ∧
            BitVec.extractLsb' 8 20 (sprog (getCore metRow 0) 3 (getCore metRow 0).su[3].pc) = 0 ∧
              (getCore metRow 0).su[3].far ≠ none) ∧
        ringRoom (getCore metRow 0).su[3] ≤ (getCore metRow 0).su[3].asked.length) ∧
    4 - (getCore metRow 0).su[3].pos % 4 ≤ (getCore metRow 0).su[3].asked.length ∧
    heldHalf (getCore metRow 0).su[3] (halfOf (getCore metRow 0).su[3] (getCore metRow 0).su[3].pos) = false ∧
    (∀ (m : SMove),
      m ∈ List.take (4 - (getCore metRow 0).su[3].pos % 4) (getCore metRow 0).su[3].asked → m.what = SWhat.blank) ∧
    BitVec.extractLsb' 0 24 (csrGet (getCore metRow 0) 25732) ≠ 0 ∧
    clocked metRow 0 = true ∧
    (getCore metRow 0).su[3].st ≠ SState.idle ∧
    (getCore metRow 0).su[3].st ≠ SState.fault ∧
    (getCore metRow 0).su[3].stopping = false ∧
    metRow.fab.behind = [] ∧
    unanswered (getCore metRow 0).su[3] = false ∧
    (getCore metRow 0).su[3].writes = [] :=
  by decide +kernel

theorem witness_StreamMoves_12 :
    slotOf rowIn (Cpu.core 0) = some 0 ∧
    (getCore rowIn 0).held = false ∧
    clocked rowIn 0 = true ∧
    granted (getCore rowIn 0) = some 3 ∧
    isOut (getCore rowIn 0) 3 = false ∧
    (getCore rowIn 0).su[3].rows = [[{ data := 7, poison := 0 }]] ∧
    { data := (7 : BitVec (512 : Nat)), poison := (0 : BitVec (16 : Nat)) : Unit64 }.poison =
      (0 : BitVec (16 : Nat)) ∧
    (getCore rowIn 0).su[3].met = none ∧
    (getCore rowIn 0).su[3].filled + 1 < halfUnits (getCore rowIn 0).su[3] ∧
    (getCore rowIn 0).su[3].st = SState.run ∧
    BitVec.extractLsb' 0 24 (csrGet (getCore rowIn 0) 25732) ≠ 0 ∧
    (getCore rowIn 0).su[3].st ≠ SState.idle ∧
    (getCore rowIn 0).su[3].st ≠ SState.fault ∧
    (getCore rowIn 0).su[3].stopping = false ∧
    rowIn.fab.behind = [] ∧
    unanswered (getCore rowIn 0).su[3] = false ∧
    (getCore rowIn 0).su[3].writes = [] :=
  by decide +kernel

theorem witness_StreamMoves_13 :
    slotOf outAck (Cpu.core 0) = some 0 ∧
    (getCore outAck 0).held = false ∧
    (getCore outAck 0).su[3].writes = [{ id := 7, half := true, spc := 0, off := 0, err := some false }] ∧
    { id := (7 : Nat), half := true, spc := (0 : Nat), off := (0 : Nat), err := some false : SWrite }.err =
      some false ∧
    (getCore outAck 0).su[3].st = SState.waitData ∧
    (getCore outAck 0).su[3].stopping = false ∧
    isOut (getCore outAck 0) 3 = true ∧
    (getCore outAck 0).su[3].left = [] ∧
    heldHalf (getCore outAck (0 : Nat)).su[(3 : Fin (4 : Nat))]
        { id := (7 : Nat), half := true, spc := (0 : Nat), off := (0 : Nat), err := some false : SWrite }.half =
      false ∧
    (∀ (t : Fin 4),
      (getCore outAck 0).th[t].wait ≠ some (WaitFor.flag (BitVec.extractLsb' 16 6 (sctl (getCore outAck 0) 3)))) ∧
    flagGet (getCore outAck 0) (BitVec.extractLsb' 16 6 (sctl (getCore outAck 0) 3)).toNat ≠ 255 ∧
    BitVec.extractLsb' 0 24 (csrGet (getCore outAck 0) 25732) ≠ 0 ∧
    clocked outAck 0 = true ∧
    (getCore outAck 0).su[3].st ≠ SState.idle ∧
    (getCore outAck 0).su[3].st ≠ SState.fault ∧
    outAck.fab.behind = [] ∧
    (unanswered (getCore outAck 0).su[3] = true ∨ (getCore outAck 0).su[3].writes ≠ []) :=
  by decide +kernel

theorem witness_StreamArbitration :
    granted (getCore rowIn 0) = some 3 ∧
    eligible (getCore rowIn 0) 3 = true :=
  by decide +kernel

theorem witness_StreamFaults_1 :
    slotOf streamFault (Cpu.core 0) = some 0 ∧
    (getCore streamFault 0).held = false ∧
    (getCore streamFault 0).su[3].fault = [(5, BitVec.ofNat 32 (3 * 2 ^ 24 + 7 * 2 ^ 16 + 63))] ∧
    deliverable streamFault 0
        (Fin.ofNat 4 (BitVec.extractLsb' 26 2 (sctl (getCore streamFault 0) 3)).toNat) =
      true ∧
    (getCore streamFault
              0).th[Fin.ofNat 4 (BitVec.extractLsb' 26 2 (sctl (getCore streamFault 0) 3)).toNat].st =
      TState.running ∧
    (getCore streamFault
              0).th[Fin.ofNat 4 (BitVec.extractLsb' 26 2 (sctl (getCore streamFault 0) 3)).toNat].closeEnd =
      none ∧
    (getCore streamFault
              0).th[Fin.ofNat 4 (BitVec.extractLsb' 26 2 (sctl (getCore streamFault 0) 3)).toNat].stopReq =
      false ∧
    tileBeforeCommit streamFault 0
        (Fin.ofNat 4 (BitVec.extractLsb' 26 2 (sctl (getCore streamFault 0) 3)).toNat) =
      none ∧
    Fin.ofNat 4 (BitVec.extractLsb' 26 2 (sctl (getCore streamFault 0) 3)).toNat ≠
      superOf streamFault 0 ∧
    BitVec.getLsbD
        (csrGet (getCore streamFault 0)
          (8192 + 4 * ↑(Fin.ofNat 4 (BitVec.extractLsb' 26 2 (sctl (getCore streamFault 0) 3)).toNat)))
        8 =
      false ∧
    FrameRoom
      (getCore streamFault
              0).th[Fin.ofNat 4 (BitVec.extractLsb' 26 2 (sctl (getCore streamFault 0) 3)).toNat].sfc
      (BitVec.toNat
        (getCore streamFault
                  0).th[Fin.ofNat 4
                (BitVec.extractLsb' 26 2 (sctl (getCore streamFault 0) 3)).toNat].sfc.cursor) :=
  join5 (by decide +kernel) (join5 (by decide +kernel) ⟨by decide +kernel, by decide +kernel, by decide +kernel,
    by decide +kernel, by decide +kernel, by decide +kernel, by decide +kernel⟩)

theorem witness_StreamFaults_2 :
    slotOf pair0 (Cpu.core 0) = some 0 ∧
    (getCore pair0 0).held = false ∧
    (getCore pair0 0).su[3].fault = [] :=
  by decide +kernel

theorem witness_CourierControl_1 :
    Ready doorbell0 (Cpu.core 0) 1 0 ∧
    logicalOf doorbell0 0 = some 0 ∧
    clusterOf 0 = 0 ∧
    checkCsr (getCore doorbell0 0).th[1] (getCore doorbell0 0).th[1].ddc 1074304 4 pSTORE = none ∧
    capCheck (getCore doorbell0 (0 : Nat)).th[(1 : Fin (4 : Nat))].ddc
        ((32 : Nat) * (BitVec.extractLsb' (16 : Nat) (14 : Nat) (8388623 : Word)).toNat) (32 : Nat) pLOAD =
      none ∧
    (32 : Nat) * (BitVec.extractLsb' (16 : Nat) (14 : Nat) (8388623 : Word)).toNat + (32 : Nat) ≤ (524288 : Nat) ∧
    Clean (getCore doorbell0 (0 : Nat)).mem
      ((32 : Nat) * (BitVec.extractLsb' (16 : Nat) (14 : Nat) (8388623 : Word)).toNat) (32 : Nat) ∧
    (getCore doorbell0 0).th[1].pend = [] ∧
    (BitVec.extractLsb' (0 : Nat) (4 : Nat) (8388623 : Word)).toNat = (15 : Nat) ∧
    BitVec.getLsbD (chReg doorbell0 (16 * 0 + 15) 40) 31 = true ∧
    (BitVec.extractLsb' 0 10 (chReg doorbell0 (16 * 0 + 15) 40)).toNat = 0 ∧
    blockOk
        (memBytes (getCore doorbell0 (0 : Nat)).mem
          ((32 : Nat) * (BitVec.extractLsb' (16 : Nat) (14 : Nat) (8388623 : Word)).toNat) (32 : Nat)) =
      true ∧
    (getCh doorbell0 (16 * 0 + 15)).st = CState.idle ∧
    (BitVec.extractLsb' (28 : Nat) (4 : Nat)
          (memWord (getCore doorbell0 (0 : Nat)).mem
            ((32 : Nat) * (BitVec.extractLsb' (16 : Nat) (14 : Nat) (8388623 : Word)).toNat +
              (16 : Nat)))).toNat ≠
      (2 : Nat) ∧
    courierHandle (getCore doorbell0 (0 : Nat))
        (BitVec.extractLsb' (16 : Nat) (6 : Nat)
            (memWord (getCore doorbell0 (0 : Nat)).mem
              ((32 : Nat) * (BitVec.extractLsb' (16 : Nat) (14 : Nat) (8388623 : Word)).toNat +
                (16 : Nat)))).toNat
        false
        (memNat (getCore doorbell0 (0 : Nat)).mem
          ((32 : Nat) * (BitVec.extractLsb' (16 : Nat) (14 : Nat) (8388623 : Word)).toNat) (4 : Nat))
        (memNat (getCore doorbell0 (0 : Nat)).mem
          ((32 : Nat) * (BitVec.extractLsb' (16 : Nat) (14 : Nat) (8388623 : Word)).toNat + (8 : Nat))
          (4 : Nat)) =
      Except.ok srcH ∧
    courierHandle (getCore doorbell0 (0 : Nat))
        (BitVec.extractLsb' (8 : Nat) (6 : Nat)
            (memWord (getCore doorbell0 (0 : Nat)).mem
              ((32 : Nat) * (BitVec.extractLsb' (16 : Nat) (14 : Nat) (8388623 : Word)).toNat +
                (16 : Nat)))).toNat
        (decide
          ((BitVec.extractLsb' (28 : Nat) (4 : Nat)
                (memWord (getCore doorbell0 (0 : Nat)).mem
                  ((32 : Nat) * (BitVec.extractLsb' (16 : Nat) (14 : Nat) (8388623 : Word)).toNat +
                    (16 : Nat)))).toNat ≠
            (3 : Nat)))
        (memNat (getCore doorbell0 (0 : Nat)).mem
          ((32 : Nat) * (BitVec.extractLsb' (16 : Nat) (14 : Nat) (8388623 : Word)).toNat + (4 : Nat)) (4 : Nat))
        (memNat (getCore doorbell0 (0 : Nat)).mem
          ((32 : Nat) * (BitVec.extractLsb' (16 : Nat) (14 : Nat) (8388623 : Word)).toNat + (8 : Nat))
          (4 : Nat)) =
      Except.ok dstH ∧
    overlaps
        (farOf doorbell0 (0 : Nat) srcH
          (memNat (getCore doorbell0 (0 : Nat)).mem
            ((32 : Nat) * (BitVec.extractLsb' (16 : Nat) (14 : Nat) (8388623 : Word)).toNat) (4 : Nat)))
        (farOf doorbell0 (0 : Nat) dstH
          (memNat (getCore doorbell0 (0 : Nat)).mem
            ((32 : Nat) * (BitVec.extractLsb' (16 : Nat) (14 : Nat) (8388623 : Word)).toNat + (4 : Nat))
            (4 : Nat)))
        (memNat (getCore doorbell0 (0 : Nat)).mem
          ((32 : Nat) * (BitVec.extractLsb' (16 : Nat) (14 : Nat) (8388623 : Word)).toNat + (8 : Nat))
          (4 : Nat)) =
      false ∧
    dark doorbell0 = false ∧
    goInvalid
        (devSet doorbell0 (chBase (16 * 0 + 15) + 24)
          ((devReg (chBase (16 * 0 + 15) + 24)).write (devGet doorbell0 (chBase (16 * 0 + 15) + 24))
            (8388623 ||| 536870912)))
        (16 * 0 + 15) =
      true ∧
    BitVec.getLsbD (chReg doorbell0 (16 * 0 + 15) 28) 31 = false ∧
    doorbell0.fab.behind = [] :=
  ⟨⟨by decide +kernel, by decide +kernel, by decide +kernel⟩,
    join5 (by decide +kernel) ⟨by unfold Clean; decide +kernel,
    join5 (by decide +kernel) (join2 (by decide +kernel) ⟨okIs_eq (by decide +kernel), okIs_eq (by decide +kernel),
    by decide +kernel⟩)⟩⟩

theorem witness_CourierControl_2 :
    dark chGo = false ∧
    (getCh chGo (16 * 0 + 15)).st = CState.idle ∧
    goInvalid
        (devSet chGo (chBase (16 * 0 + 15) + 24)
          ((devReg (chBase (16 * 0 + 15) + 24)).write (devGet chGo (chBase (16 * 0 + 15) + 24))
            (33554432 ||| 536870912)))
        (16 * 0 + 15) =
      false :=
  by decide +kernel

theorem witness_CourierControl_3 :
    dark chIdle = false ∧
    (getCh chIdle (16 * 0 + 15)).st = CState.idle ∧
    goInvalid
        (devSet chIdle (chBase (16 * 0 + 15) + 24)
          ((devReg (chBase (16 * 0 + 15) + 24)).write (devGet chIdle (chBase (16 * 0 + 15) + 24))
            (0 ||| 536870912)))
        (16 * 0 + 15) =
      true ∧
    BitVec.getLsbD (chReg chIdle (16 * 0 + 15) 28) 31 = false ∧
    chIdle.fab.behind = [] :=
  by decide +kernel

theorem witness_CourierControl_4 :
    (getCh chActive (16 * 0 + 15)).st = CState.active ∧
    dark chActive = false ∧
    BitVec.getLsbD (chReg chActive (16 * 0 + 15) 24) 30 = false :=
  by decide +kernel

theorem witness_CourierControl_5 :
    dark chPausedSt = false ∧
    (getCh chPausedSt (16 * 0 + 15)).st = CState.paused :=
  by decide +kernel

theorem witness_CourierControl_6 :
    (getCh chPausing (16 * 0 + 15)).st = CState.pausing ∧
    (getCh chPausing (16 * 0 + 15)).aborting = false ∧
    chOutstanding chPausing (16 * 0 + 15) = false ∧
    chPausing.fab.behind = [] ∧
    BitVec.getLsbD (chReg chPausing (16 * 0 + 15) 24) 31 = true :=
  by decide +kernel

theorem witness_CourierControl_7 :
    (getCh chUnpausing (16 * 0 + 15)).st = CState.pausing ∧
    (getCh chUnpausing (16 * 0 + 15)).aborting = false ∧
    chOutstanding chUnpausing (16 * 0 + 15) = false ∧
    chUnpausing.fab.behind = [] ∧
    BitVec.getLsbD (chReg chUnpausing (16 * 0 + 15) 24) 31 = false :=
  by decide +kernel

theorem witness_CourierTransfers_1 :
    burstingCh chFill 0 = none ∧
    grantedCh chFill 0 = some 15 ∧
    chOp chFill 15 = 2 ∧
    15 / 16 = 0 ∧
    (getCh chFill 15).total = (getCh chFill 15).doneBytes + 64 ∧
    (getCh chFill 15).issued = (getCh chFill 15).doneBytes ∧
    globalOf (chPair chFill 15 8) = { space := 2, dev := fabDev chFill, off := 805306304 } ∧
    805306304 % 64 = 0 ∧
    chFill.fab.behind = [] :=
  by decide +kernel

theorem witness_CourierTransfers_2 :
    (getCh chDone (16 * 0 + 15)).st ≠ CState.idle ∧
    chOutstanding chDone (16 * 0 + 15) = false ∧
    (getCh chDone (16 * 0 + 15)).result = none ∧
    (getCh chDone (16 * 0 + 15)).aborting = false ∧
    doorFor chDone (16 * 0 + 15) = none ∧
    (getCh chDone (16 * 0 + 15)).doneBytes = (getCh chDone (16 * 0 + 15)).total ∧
    (getCh chDone (16 * 0 + 15)).block = some (0, 4096) ∧
    siteOf chDone 0 = some 0 ∧
    BitVec.getLsbD (chReg chDone (16 * 0 + 15) 28) 31 = false ∧
    chDone.fab.behind = [] :=
  by decide +kernel

theorem witness_CourierTransfers_3 :
    Ready farGo5 (Cpu.core 0) 1 0 ∧
    logicalOf farGo5 0 = some 0 ∧
    checkCsr (getCore farGo5 0).th[1] (getCore farGo5 0).th[1].ddc (1074324 + 8 * 1) 4 pSTORE = none ∧
    BitVec.toNat (csrGet (getCore farGo5 0) (25744 + 8 * 1)) % 64 = 0 ∧
    (getCore farGo5 0).th[1].pend = [] ∧
    courierHandle (getCore farGo5 (0 : Nat)) (BitVec.extractLsb' (26 : Nat) (6 : Nat) (1048640 : Word)).toNat
        false (BitVec.toNat (csrGet (getCore farGo5 (0 : Nat)) ((25744 : Nat) + (8 : Nat) * (1 : Nat))))
        (64 : Nat) =
      Except.ok srcH ∧
    handleGet (getCore farGo5 (0 : Nat)) (BitVec.extractLsb' (20 : Nat) (6 : Nat) (1048640 : Word)).toNat = dstH ∧
    hValid dstH = true ∧
    hWr dstH = true ∧
    hSpace dstH = 8 ∧
    (BitVec.extractLsb' (7 : Nat) (13 : Nat) (1048640 : Word)).toNat * (64 : Nat) + (64 : Nat) ≤ hLen dstH ∧
    (getCore farGo5 0).far.length < 16 ∧
    isHere farGo5 (farOf farGo5 0 srcH (BitVec.toNat (csrGet (getCore farGo5 0) (25744 + 8 * 1)))) = true :=
  ⟨⟨by decide +kernel, by decide +kernel, by decide +kernel⟩,
    join4 (by decide +kernel) ⟨okIs_eq (by decide +kernel), by decide +kernel⟩⟩

theorem witness_CourierTransfers_4 :
    slotOf farIn (Cpu.core 0) = some 0 ∧
    (getCore farIn 0).held = false ∧
    (getCore farIn 0).far[0]? = some far0 ∧
    far0.dev = fabDev farIn ∧
    readUnit farIn far0.space far0.off = (farIn, some { data := 0, poison := 0 }) ∧
    { data := (0 : BitVec (512 : Nat)), poison := (0 : BitVec (16 : Nat)) : Unit64 }.poison =
      (0 : BitVec (16 : Nat)) ∧
    (∀ (t : Fin 4), (getTh farIn 0 t).wait ≠ some (WaitFor.flag far0.flag)) ∧
    flagGet (getCore farIn 0) far0.flag.toNat ≠ 255 :=
  by decide +kernel

/-! ### External memory and the fabric -/

def badWord : State := { base with fab := { base.fab with hbm := { Mem.empty with check := [(0, .double)] } } }
def stackOff : State := devs base [(0x4013C, 0x40000000)]
def migrating : State := devs base [(0x40000, 0x4000000F), (0x40004, 8847358)]
def migrated : State := devs base [(0x40000, 0x4000000F), (0x40004, 8847359)]
/-- A courier channel draws a paused block to its end. -/
def migratingBusy : State :=
  modCh (withSo migrating fun o => { o with migPaused := [127] }) 127 fun c => { c with st := .pausing }
/-- Device 5 reaches device 9 through fabric port 3, which is in state `st`, changed by `f`. -/
def fabAt (st : Nat) (f : Port → Port) : State :=
  let s := devs base [(0x70000, 5)]
  portAt (devs s [(routeOff s 9, 0x80000003), (portBase 3, 0x40000000)]) 3 st fun q => f { q with cfg := 0x40000000 }
def linkUp : State := fabAt 2 id
def linkDown : State := fabAt 0 id
def unitA : FUnit :=
  { op := 3, vc := 1, src := 9, dst := 5, eseq := 4, space := 2, unit := 7, pzn := false, data := 0x123456789abcdef }
def frameBody : List Byte := [0x96, 0xF0, 0x5A, 0x0F, 0, 0x3D, 9, 0, 4, 0] ++ List.replicate 20 0
def goodFrame : List Byte := frameBody ++ leBytes 2 (crc16 frameBody).toNat
def badFrame : List Byte := frameBody ++ leBytes 2 ((crc16 frameBody).toNat + 1)
def trainIn (f : Port → Port) : State := fabAt 1 f
def trainDetect : State := trainIn fun q => { q with phase := .detect }
def retrainDetect : State := fabAt 4 fun q => { q with phase := .detect, fast := true }
def trainEq (r : Byte) : State := trainIn fun q => { q with phase := .equalise, peerRole := r, peerDev := 9 }
def trainIdent : State := trainIn fun q => { q with phase := .identify, peerRole := 1, peerDev := 9 }
def trainIdentBad : State := trainIn fun q => { q with phase := .identify, peerRole := 3 }
def trainLat : State := trainIn fun q => { q with phase := .latency, ownLat := some 7, proposed := some 9 }
def probing (n : Nat) : State := { trainIn (fun q => { q with phase := .latency, probes := List.replicate n 5 }) with meshCycle := 100 }
def probe14 : State := probing 14
def probe15 : State := probing 15
def allLanes : TrainObs := ⟨0xFF, true, false, 0, true, true, []⟩
def someLanes : TrainObs := ⟨0x7F, true, false, 0, true, true, []⟩
def seg : BitVec 12 × FUnit × Nat := (7, unitA, 9)
def sendLink : State := fabAt 2 fun q => { q with linkDue := true }
/-- The last slot of the fourth unit of a round is due. -/
def nullDue : State :=
  devs (fabAt 2 fun q => { q with unit := List.replicate 63 0, roundCtr := 3 }) [(portBase 3 + 4, 0x50000000)]
def sendAgain : State := fabAt 2 fun q => { q with resend := 1, replay := [seg] }
def sendNew : State := fabAt 2 fun q => { q with txq := [unitA], cred := [(1, 1)] }
def pktIn : BitVec 640 := 0x123456789abcdef4980014002400108000000007000fba6
def pktLate : BitVec 640 := 0x123456789abcdef498001400240010800000000700199a9
def pktBad : BitVec 640 := 0x123456789abcdef49800140024001080000000070000001
/-- A CRC over 78 bytes from the CRCs of its three parts. -/
theorem crc_parts (bs : List Byte) (a b c : BitVec 16)
    (h1 : (bs.take 26).foldl (fun c b => crcBits 8 (c ^^^ (b ++ 0#8))) 0xFFFF = a)
    (h2 : ((bs.drop 26).take 26).foldl (fun c b => crcBits 8 (c ^^^ (b ++ 0#8))) a = b)
    (h3 : ((bs.drop 26).drop 26).foldl (fun c b => crcBits 8 (c ^^^ (b ++ 0#8))) b = c) : crc16 bs = c := by
  rw [crc16, ← List.take_append_drop 26 bs, List.foldl_append, h1, ← List.take_append_drop 26 (bs.drop 26),
    List.foldl_append, h2, h3]
theorem pktIn_crc : flitCrc pktIn = 64422 :=
  crc_parts _ 53926 12212 _ (by decide +kernel) (by decide +kernel) (by decide +kernel)
theorem pktLate_crc : flitCrc pktLate = 39337 :=
  crc_parts _ 33246 21229 _ (by decide +kernel) (by decide +kernel) (by decide +kernel)
theorem pktBad_crc : flitCrc pktBad = 64422 :=
  crc_parts _ 53926 12212 _ (by decide +kernel) (by decide +kernel) (by decide +kernel)
def lpReady : State := devs base [(0x50000, 0x80000000)]
/-- Firmware calibrates the memory of LPDDR5X again. -/
def calibrates : State := withSo base fun o => { o with running := [(1, ⟨5, 0, 0, true⟩)] }
def lpRefreshed : State := devs base [(0x50100, 0x80000000)]
def asking : State := fabAt 2 fun q => { q with waiting := true }
def acked : State := fabAt 2 fun q => { q with replay := [seg] }
def linkAck : BitVec 512 := 0x3007
def nakked (n : Nat) (last : Option (BitVec 12)) : State :=
  fabAt 2 fun q => { q with nakSeq := some 7, replay := [seg], replays := n, lastReplay := last }
def nak6 : State := nakked 6 (some 7)
def nak7 : State := nakked 7 none
def seven : State := nakked 7 (some 7)
def ackOwed : State := fabAt 2 fun q => { q with replay := [seg] }
def quiesced3 : State := fabAt 3 fun q => { q with asked := true, stopTx := true }
def expects (u : FUnit) (s : State) : State := setExpected s (flowKey u.src u.vc) u.eseq
def remote1 (isRead : Bool) (what : Asked) : Remote := { isRead := isRead, dst := 9, tag := 7, vc := 1, eseq := 4, what := what }
def withRemote (r : Remote) (s : State) : State := { s with fab := { s.fab with remote := [r] } }
def unitRead : FUnit := { unitA with op := 1 }
def unitResp : FUnit := { unitA with op := 2, vc := 2, space := 0 }
def unitAck : FUnit := { unitA with op := 4, vc := 2, space := 0, unit := 0x10004 }
def unitPost : FUnit := { unitA with op := 5, vc := 3, space := 5, unit := 63 }
def unitSignal : FUnit := { unitA with op := 6, vc := 3, space := 4, unit := 1023 }
def unitDead : FUnit := { unitA with op := 9, vc := 3, space := 2, unit := 0x10004 }
def askRead : Remote := remote1 true (.soRead 2 0)
def askPost : Remote := remote1 false (.post 0 31 1)
def getsWrite : State := expects unitA linkUp
def getsResp : State := withRemote askRead (expects unitResp linkUp)
def getsAck : State := withRemote askPost (expects unitAck linkUp)
def otherPost : Remote := { askPost with dst := 8 }
def getsOther : State := withRemote otherPost (expects unitAck linkUp)
def getsPost : State := expects unitPost linkUp
def getsSignal : State := expects unitSignal linkUp
def getsDead : State := withRemote askPost (expects unitDead linkUp)
def unitReduce : FUnit := { unitA with op := 7, vc := 4, unit := 0xCF }
def unitBar : FUnit := { unitA with op := 8, vc := 4, unit := 0xF }
def unitRelease : FUnit := { unitA with op := 8, vc := 4, unit := 0x10F }
/-- Tree 15 of this device has the child 9, or the parent 9. -/
def treeChild (u : FUnit) : State := expects u (devs linkUp [(0x723C0, 0x80000001), (0x723C8, 9)])
def treeParent (u : FUnit) : State := expects u (devs linkUp [(0x723C0, 0x80000000), (0x723C4, 9)])
def treeReduce : State := treeChild unitReduce
def treeBar : State := treeChild unitBar
def treeUp : State := treeParent unitRelease
def treeNone : State := expects unitReduce linkUp
def ahead : State := expects { unitA with eseq := 3 } linkUp
def behind : State := expects { unitA with eseq := 5 } linkUp
def unitHeld : FUnit := { unitSignal with eseq := 9 }
def held1 : State := { devs linkUp [(0x70004, 1)] with fab := { linkUp.fab with store := [(unitHeld, 0)] } }
def timedOut : State := withRemote askRead (devs linkUp [(0x70004, 1)])
def epoch1 : State := { linkUp with fab := { linkUp.fab with epochs := tset epochDefault linkUp.fab.epochs 9 (some 0xFFFF) } }
def sending9 : State := fabAt 2 fun q => { q with txq := [{ unitA with src := 5, dst := 9 }] }
def switching : State := { linkUp with fab := { linkUp.fab with routeHold := [(0x71824, 0x80000001)] } }
def managed : State := devs linkUp [(0x70008, 0x80000009)]

theorem witness_ExternalUnits_1 :
    dark base = false ∧
    (32 = 8 → lpCalibrating base = false ∧ lpAvail base = true) ∧
    579820584896 % 64 = 0 ∧
    { data := (5 : BitVec (512 : Nat)), poison := (0 : BitVec (16 : Nat)) : UnitData }.poison =
      (0 : BitVec (16 : Nat)) ∧
    (∀ (w : Nat), w ∈ wordsOf 32 579820584896 64 → memCheck base.fab.hbm w = Check.good) ∧
    BitVec.getLsbD (devGet base 579820584960) 31 = false ∧
    BitVec.getLsbD (devGet base 32) 31 = false ∧
    BitVec.getLsbD (devGet base (262400 + 4 * homeStack base 579820584896)) 31 = false :=
  by decide +kernel

theorem witness_ExternalUnits_2 :
    dark base = false ∧
    (32 = 8 → lpCalibrating base = false ∧ lpAvail base = true) ∧
    579820584960 % 64 = 0 ∧
    579820584960 ≤ 579820584960 ∧
    BitVec.getLsbD (devGet base 579820584960) 31 = false ∧
    BitVec.getLsbD (devGet base 32) 31 = false ∧
    BitVec.getLsbD (devGet base (262400 + 4 * homeStack base 579820584960)) 31 = false :=
  by decide +kernel

theorem witness_ExternalUnits_3 :
    dark lpReady = false ∧
    (8 = 8 → lpCalibrating lpReady = false ∧ lpAvail lpReady = true) ∧
    481036337088 % 64 = 0 ∧
    { data := (5 : BitVec (512 : Nat)), poison := (0 : BitVec (16 : Nat)) : UnitData }.poison =
      (0 : BitVec (16 : Nat)) ∧
    (∀ (w : Nat), w ∈ wordsOf 8 481036337088 64 → memCheck lpReady.fab.lp w = Check.good) ∧
    BitVec.getLsbD (devGet lpReady 481036337152) 31 = false ∧
    BitVec.getLsbD (devGet lpReady 8) 31 = false ∧
    BitVec.getLsbD (devGet lpReady (327936 + 4 * lpPackage 481036337088)) 31 = false :=
  by decide +kernel

theorem witness_ExternalUnits_4 :
    dark calibrates = false ∧
    lpCalibrating calibrates = true ∧
    BitVec.getLsbD (devGet calibrates 0) 31 = false ∧
    BitVec.getLsbD (devGet calibrates 1) 31 = false ∧
    BitVec.getLsbD (devGet calibrates 2) 31 = false ∧
    BitVec.getLsbD (devGet calibrates 3) 31 = false ∧
    BitVec.getLsbD (devGet calibrates 5) 31 = false ∧
    BitVec.getLsbD (devGet calibrates 8) 31 = false :=
  by decide +kernel

theorem witness_ExternalUnits_5 :
    dark lpRefreshed = false ∧
    BitVec.getLsbD (devGet lpRefreshed 327936) 31 = true :=
  by decide +kernel

theorem witness_RefreshAndRetirement_1 :
    dark stackOff = false ∧
    BitVec.getLsbD (devGet stackOff (262400 + 4 * 15)) 30 = true ∧
    BitVec.extractLsb' 30 2 (devGet stackOff 262144) ≠ 1 :=
  by decide +kernel

theorem witness_RefreshAndRetirement_2 :
    dark migrating = false ∧
    BitVec.getLsbD (devGet migrating (262400 + 4 * 15)) 30 = false ∧
    BitVec.extractLsb' 30 2 (devGet migrating 262144) = 1 ∧
    ((upFrom 0 128).any
          (burstIn migrating (BitVec.extractLsb' 0 4 (devGet migrating 262144)).toNat
            (BitVec.extractLsb' 0 24 (devGet migrating 262148)).toNat) ||
        migrating.so.migPaused.any fun c => (getCh migrating c).st == CState.pausing) =
      false ∧
    (∀ (c : Nat),
      c ∈ migrating.so.migPaused →
        c < 128 ∧ ((getCh migrating c).st = CState.idle → BitVec.getLsbD (chReg migrating c 24) 29 = false)) :=
  by decide +kernel

theorem witness_RefreshAndRetirement_3 :
    dark migrated = false ∧
    BitVec.getLsbD (devGet migrated (262400 + 4 * 15)) 30 = false ∧
    BitVec.extractLsb' 30 2 (devGet migrated 262144) = 1 ∧
    ((upFrom 0 128).any
          (burstIn migrated (BitVec.extractLsb' 0 4 (devGet migrated 262144)).toNat
            (BitVec.extractLsb' 0 24 (devGet migrated 262148)).toNat) ||
        migrated.so.migPaused.any fun c => (getCh migrated c).st == CState.pausing) =
      false ∧
    (∀ (c : Nat),
      c ∈ migrated.so.migPaused →
        c < 128 ∧ ((getCh migrated c).st = CState.idle → BitVec.getLsbD (chReg migrated c 24) 29 = false)) :=
  by decide +kernel

theorem witness_RefreshAndRetirement_4 :
    dark migratingBusy = false ∧
    BitVec.getLsbD (devGet migratingBusy (262400 + 4 * 15)) 30 = false ∧
    BitVec.extractLsb' 30 2 (devGet migratingBusy 262144) = 1 ∧
    ((upFrom 0 128).any
          (burstIn migratingBusy (BitVec.extractLsb' 0 4 (devGet migratingBusy 262144)).toNat
            (BitVec.extractLsb' 0 24 (devGet migratingBusy 262148)).toNat) ||
        migratingBusy.so.migPaused.any fun c => (getCh migratingBusy c).st == CState.pausing) =
      true :=
  by decide +kernel

theorem witness_LinkTraining_1 :
    (BitVec.extractLsb' 30 2 (devGet linkUp (portBase 3)) = 1 ∨
      BitVec.extractLsb' 30 2 (devGet linkUp (portBase 3)) = 2) ∧
    inTraining linkUp 3 = false :=
  by decide +kernel

theorem witness_LinkTraining_2 :
    inTraining trainDetect 3 = true ∧
    goodFrame.length = 32 ∧
    List.take 4 goodFrame = [150, 240, 90, 15] ∧
    leAt goodFrame 30 2 = (crc16 (List.take 30 goodFrame)).toNat ∧
    (getPort trainDetect 3).phase = TPhase.detect ∧
    (getPort trainDetect 3).fast = false ∧
    allLanes.lanes = 255 :=
  by decide +kernel

theorem witness_LinkTraining_3 :
    inTraining trainDetect 3 = true ∧
    badFrame.length = 32 ∧
    List.take 4 badFrame = [150, 240, 90, 15] ∧
    leAt badFrame 30 2 ≠ (crc16 (List.take 30 badFrame)).toNat ∧
    (getPort trainDetect 3).phase = TPhase.detect ∧
    (getPort trainDetect 3).fast = false ∧
    someLanes.lanes ≠ 255 :=
  by decide +kernel

theorem witness_LinkTraining_4 :
    inTraining retrainDetect 3 = true ∧
    badFrame.length = 32 ∧
    List.take 4 badFrame = [150, 240, 90, 15] ∧
    leAt badFrame 30 2 ≠ (crc16 (List.take 30 badFrame)).toNat ∧
    (getPort retrainDetect 3).phase = TPhase.detect ∧
    (getPort retrainDetect 3).fast = true ∧
    allLanes.lanes = 255 :=
  by decide +kernel

theorem witness_LinkTraining_5 :
    inTraining (trainEq 17) 3 = true ∧
    badFrame.length = 32 ∧
    List.take 4 badFrame = [150, 240, 90, 15] ∧
    leAt badFrame 30 2 ≠ (crc16 (List.take 30 badFrame)).toNat ∧
    (getPort (trainEq 17) 3).phase = TPhase.equalise :=
  by decide +kernel

theorem witness_LinkTraining_6 :
    inTraining trainIdent 3 = true ∧
    badFrame.length = 32 ∧
    List.take 4 badFrame = [150, 240, 90, 15] ∧
    leAt badFrame 30 2 ≠ (crc16 (List.take 30 badFrame)).toNat ∧
    (getPort trainIdent 3).phase = TPhase.identify ∧
    allLanes.phaseDone = true ∧
    peerOk (getPort trainIdent 3) = true :=
  by decide +kernel

theorem witness_LinkTraining_7 :
    inTraining trainIdentBad 3 = true ∧
    badFrame.length = 32 ∧
    List.take 4 badFrame = [150, 240, 90, 15] ∧
    leAt badFrame 30 2 ≠ (crc16 (List.take 30 badFrame)).toNat ∧
    (getPort trainIdentBad 3).phase = TPhase.identify ∧
    allLanes.phaseDone = true ∧
    peerOk (getPort trainIdentBad 3) = false :=
  by decide +kernel

theorem witness_LinkTraining_8 :
    inTraining trainLat 3 = true ∧
    badFrame.length = 32 ∧
    List.take 4 badFrame = [150, 240, 90, 15] ∧
    leAt badFrame 30 2 ≠ (crc16 (List.take 30 badFrame)).toNat ∧
    (getPort trainLat 3).phase = TPhase.latency ∧
    (getPort trainLat 3).ownLat = some 7 ∧
    (getPort trainLat 3).proposed = some 9 ∧
    (getPort trainLat 3).quiesceThen = 0 ∧
    (getPort trainLat 3).again = false ∧
    (getPort trainLat 3).hole = none ∧
    dataStopped trainLat 3 = false :=
  by decide +kernel

theorem witness_LatencyProbes_1 :
    inTraining probe14 3 = true ∧
    (getPort probe14 3).phase = TPhase.latency ∧
    (getPort probe14 3).ownLat = none ∧
    (getPort probe14 3).probes.length < 15 :=
  by decide +kernel

theorem witness_LatencyProbes_2 :
    inTraining probe15 3 = true ∧
    (getPort probe15 3).phase = TPhase.latency ∧
    (getPort probe15 3).ownLat = none ∧
    (getPort probe15 3).probes.length = 15 :=
  by decide +kernel

theorem witness_FlitsSent_1 :
    portState sendLink 3 = 2 ∧
    mustNull sendLink 3 = false ∧
    ((getPort sendLink 3).nakDue = true ∨ (getPort sendLink 3).linkDue = true) :=
  by decide +kernel

theorem witness_FlitsSent_2 :
    portState nullDue 3 = 2 ∧
    mustNull nullDue 3 = true :=
  by decide +kernel

theorem witness_FlitsSent_3 :
    portState sendAgain 3 = 2 ∧
    mustNull sendAgain 3 = false ∧
    (getPort sendAgain 3).nakDue = false ∧
    (getPort sendAgain 3).linkDue = false ∧
    0 < (getPort sendAgain 3).resend ∧
    (getPort sendAgain 3).replay[(getPort sendAgain 3).replay.length - (getPort sendAgain 3).resend]? =
      some (7, unitA, 9) :=
  by decide +kernel

theorem witness_FlitsSent_4 :
    portState sendNew 3 = 2 ∧
    mustNull sendNew 3 = false ∧
    (getPort sendNew 3).nakDue = false ∧
    (getPort sendNew 3).linkDue = false ∧
    (getPort sendNew 3).resend = 0 ∧
    (getPort sendNew 3).replay.length < 2048 ∧
    (hasCredit (getPort sendNew 3) 0 = false ∨ candidate (getPort sendNew 3) 0 = none) ∧
    ((getPort sendNew 3).changed && decide (16 ≤ (getPort sendNew 3).slots)) = false ∧
    sendNew.fab.resendDue = [] ∧
    nextData sendNew 3 = some unitA ∧
    BitVec.extractLsb' 30 2 (getPort sendNew 3).cfg ≠ 2 :=
  by decide +kernel

theorem witness_FlitsSent_5 :
    portState linkUp 3 = 2 ∧
    mustNull linkUp 3 = false ∧
    (getPort linkUp 3).nakDue = false ∧
    (getPort linkUp 3).linkDue = false ∧
    (getPort linkUp 3).resend = 0 ∧
    (getPort linkUp 3).replay.length < 2048 ∧
    (hasCredit (getPort linkUp 3) 0 = false ∨ candidate (getPort linkUp 3) 0 = none) ∧
    ((getPort linkUp 3).changed && decide (16 ≤ (getPort linkUp 3).slots)) = false ∧
    linkUp.fab.resendDue = [] ∧
    nextData linkUp 3 = none :=
  by decide +kernel

theorem witness_FlitsReceived_1 :
    portState linkUp 3 = 2 ∧
    (BitVec.extractLsb' 126 2 pktIn).toNat = 1 ∧
    BitVec.extractLsb' 0 16 pktIn = flitCrc pktIn ∧
    BitVec.extractLsb' 16 12 pktIn = (getPort linkUp 3).expect ∧
    opVcOk (flitUnit pktIn).op (flitUnit pktIn).vc = true ∧
    opPortOk (isIngest linkUp 3) (flitUnit pktIn).op = true ∧
    (flitUnit pktIn).dst = fabDev linkUp ∧
    strayMgmt (flitUnit pktIn) = false ∧
    (getPort linkUp 3).answer = false ∧
    (getPort linkUp 3).asked = false ∧
    linkUp.fab.stopOwed = [] :=
  join2 (by decide +kernel) ⟨by rw [pktIn_crc]; decide +kernel, by decide +kernel⟩

theorem witness_FlitsReceived_2 :
    portState linkUp 3 = 2 ∧
    (BitVec.extractLsb' 126 2 pktLate).toNat = 1 ∧
    BitVec.extractLsb' 0 16 pktLate = flitCrc pktLate ∧
    BitVec.extractLsb' 16 12 pktLate ≠ (getPort linkUp 3).expect ∧
    (getPort linkUp 3).waiting = false ∧
    (getPort linkUp 3).answer = false ∧
    (getPort linkUp 3).asked = false ∧
    linkUp.fab.stopOwed = [] :=
  join2 (by decide +kernel) ⟨by rw [pktLate_crc]; decide +kernel, by decide +kernel⟩

theorem witness_FlitsReceived_3 :
    portState asking 3 = 2 ∧
    (BitVec.extractLsb' 126 2 pktLate).toNat = 1 ∧
    BitVec.extractLsb' 0 16 pktLate = flitCrc pktLate ∧
    BitVec.extractLsb' 16 12 pktLate ≠ (getPort asking 3).expect ∧
    (getPort asking 3).waiting = true ∧
    (getPort asking 3).answer = false ∧
    (getPort asking 3).asked = false ∧
    asking.fab.stopOwed = [] :=
  join2 (by decide +kernel) ⟨by rw [pktLate_crc]; decide +kernel, by decide +kernel⟩

theorem witness_FlitsReceived_4 :
    portState acked 3 = 2 ∧
    BitVec.extractLsb' 0 16 pktBad ≠ flitCrc pktBad ∧
    ((BitVec.extractLsb' 126 2 pktBad).toNat = 1 ∨ (BitVec.extractLsb' 126 2 pktBad).toNat = 2) ∧
    (getPort acked 3).answer = false ∧
    (getPort acked 3).asked = false ∧
    acked.fab.stopOwed = [] :=
  ⟨by decide +kernel, by rw [pktBad_crc]; decide +kernel, by decide +kernel⟩

theorem witness_ReplayAndRetrain_1 :
    (portState nak6 3 = 2 ∨ portState nak6 3 = 3) ∧
    (getPort nak6 3).nakSeq = some 7 ∧
    (getPort nak6 3).replay[0]? = some seg ∧
    seg.fst = 7 ∧
    (∀ (j : Nat) (x : BitVec 12 × FUnit × Nat), j < 0 → (getPort nak6 3).replay[j]? = some x → x.fst ≠ 7) ∧
    ((getPort nak6 3).replays < 7 ∨ (getPort nak6 3).lastReplay ≠ some 7) ∧
    (getPort nak6 3).resend < (getPort nak6 3).replay.length ∧
    ((getPort nak6 3).replays < 7 ∨ (getPort nak6 3).lastReplay ≠ some seg.fst) ∧
    (BitVec.extractLsb' 30 2 (devGet nak6 (portBase 3)) = 1 ∨
      BitVec.extractLsb' 30 2 (devGet nak6 (portBase 3)) = 2) :=
  join4 (by decide +kernel) ⟨by simp, by decide +kernel⟩

theorem witness_ReplayAndRetrain_2 :
    (portState nak7 3 = 2 ∨ portState nak7 3 = 3) ∧
    (getPort nak7 3).nakSeq = some 7 ∧
    (getPort nak7 3).replay[0]? = some seg ∧
    seg.fst = 7 ∧
    (∀ (j : Nat) (x : BitVec 12 × FUnit × Nat), j < 0 → (getPort nak7 3).replay[j]? = some x → x.fst ≠ 7) ∧
    ((getPort nak7 3).replays < 7 ∨ (getPort nak7 3).lastReplay ≠ some 7) ∧
    (getPort nak7 3).resend < (getPort nak7 3).replay.length ∧
    ((getPort nak7 3).replays < 7 ∨ (getPort nak7 3).lastReplay ≠ some seg.fst) ∧
    (BitVec.extractLsb' 30 2 (devGet nak7 (portBase 3)) = 1 ∨
      BitVec.extractLsb' 30 2 (devGet nak7 (portBase 3)) = 2) :=
  join4 (by decide +kernel) ⟨by simp, by decide +kernel⟩

theorem witness_ReplayAndRetrain_3 :
    (portState seven 3 = 2 ∨ portState seven 3 = 3) ∧
    (BitVec.extractLsb' 30 2 (devGet seven (portBase 3)) = 1 ∨
      BitVec.extractLsb' 30 2 (devGet seven (portBase 3)) = 2) ∧
    (getPort seven 3).replay[0]? = some seg ∧
    (getPort seven 3).resend < (getPort seven 3).replay.length ∧
    7 ≤ (getPort seven 3).replays ∧
    (getPort seven 3).lastReplay = some seg.fst :=
  by decide +kernel

theorem witness_PortQuiesce_1 :
    isFabric linkUp 3 = true ∧
    (portState linkUp 3 = 2 ∨ portState linkUp 3 = 3) :=
  by decide +kernel

theorem witness_PortQuiesce_2 :
    isFabric ackOwed 3 = true ∧
    (portState ackOwed 3 = 2 ∨ portState ackOwed 3 = 3) :=
  by decide +kernel

theorem witness_PortQuiesce_3 :
    isFabric quiesced3 3 = true ∧
    (portState quiesced3 3 = 2 ∨ portState quiesced3 3 = 3) ∧
    (getPort quiesced3 3).asked = true ∧
    (getPort quiesced3 3).quiesceThen = 0 :=
  by decide +kernel

theorem witness_FabricOperations_1 :
    Arrives getsWrite unitA ∧
    unitA.op = 3 ∧
    unitA.space = 2 ∧
    64 * unitA.unit.toNat < 805306368 ∧
    unitA.pzn = false ∧
    egress getsWrite unitA.src 2 = some 3 ∧
    mustWait getsWrite unitA.src = false :=
  ⟨⟨by decide +kernel, by decide +kernel, by decide +kernel, by decide +kernel, by decide +kernel,
    by decide +kernel, by decide +kernel, by decide +kernel⟩, by decide +kernel⟩

theorem witness_FabricOperations_2 :
    Arrives getsWrite unitRead ∧
    unitRead.op = 1 ∧
    unitRead.space = 2 ∧
    64 * unitRead.unit.toNat < 805306368 ∧
    Clean getsWrite.sram (64 * unitRead.unit.toNat) 64 ∧
    egress getsWrite unitRead.src 2 = some 3 ∧
    mustWait getsWrite unitRead.src = false :=
  ⟨⟨by decide +kernel, by decide +kernel, by decide +kernel, by decide +kernel, by decide +kernel,
    by decide +kernel, by decide +kernel, by decide +kernel⟩,
    join3 (by decide +kernel) ⟨by unfold Clean; decide +kernel, by decide +kernel⟩⟩

theorem witness_FabricOperations_3 :
    Arrives getsResp unitResp ∧
    unitResp.op = 2 ∧
    getsResp.fab.remote = [askRead] ∧
    askRead.isRead = true ∧
    askRead.dst = unitResp.src ∧
    askRead.tag = unitResp.unit.toNat ∧
    askRead.what = Asked.soRead 2 0 ∧
    unitResp.space = 0 ∧
    unitResp.pzn = false :=
  ⟨⟨by decide +kernel, by decide +kernel, by decide +kernel, by decide +kernel, by decide +kernel,
    by decide +kernel, by decide +kernel, by decide +kernel⟩, by decide +kernel⟩

theorem witness_FabricOperations_4 :
    Arrives getsAck unitAck ∧
    unitAck.op = 4 ∧
    unitAck.space = 0 ∧
    getsAck.fab.remote = [askPost] ∧
    askPost.isRead = false ∧
    askPost.dst = unitAck.src ∧
    (askPost.vc, askPost.eseq) = (BitVec.extractLsb' 16 3 unitAck.unit, BitVec.extractLsb' 0 16 unitAck.unit) ∧
    askPost.what = Asked.post 0 31 1 :=
  ⟨⟨by decide +kernel, by decide +kernel, by decide +kernel, by decide +kernel, by decide +kernel,
    by decide +kernel, by decide +kernel, by decide +kernel⟩, by decide +kernel⟩

theorem witness_FabricOperations_5 :
    Arrives getsOther unitAck ∧
    (unitAck.op = 2 ∨ unitAck.op = 4) ∧
    unitAck.space = 0 ∧
    getsOther.fab.remote = [otherPost] ∧
    otherPost.dst ≠ unitAck.src ∧
    getsOther.fab.lapsed = [] ∧
    (unitAck.op = 4 →
      isPost otherPost = true ∨
        (otherPost.vc, otherPost.eseq) ≠
          (BitVec.extractLsb' 16 3 unitAck.unit, BitVec.extractLsb' 0 16 unitAck.unit)) :=
  ⟨⟨by decide +kernel, by decide +kernel, by decide +kernel, by decide +kernel, by decide +kernel,
    by decide +kernel, by decide +kernel, by decide +kernel⟩, by decide +kernel⟩

theorem witness_FabricOperations_6 :
    Arrives getsPost unitPost ∧
    unitPost.op = 5 ∧
    unitPost.space = 5 ∧
    unitPost.unit.toNat / 4 < logicalCount getsPost :=
  ⟨⟨by decide +kernel, by decide +kernel, by decide +kernel, by decide +kernel, by decide +kernel,
    by decide +kernel, by decide +kernel, by decide +kernel⟩, by decide +kernel⟩

theorem witness_FabricOperations_7 :
    Arrives getsSignal unitSignal ∧
    unitSignal.op = 6 ∧
    unitSignal.space = 4 ∧
    unitSignal.unit.toNat / 64 < logicalCount getsSignal :=
  ⟨⟨by decide +kernel, by decide +kernel, by decide +kernel, by decide +kernel, by decide +kernel,
    by decide +kernel, by decide +kernel, by decide +kernel⟩, by decide +kernel⟩

theorem witness_FabricOperations_8 :
    Arrives getsDead unitDead ∧
    unitDead.op = 9 ∧
    getsDead.fab.remote = [askPost] ∧
    askPost.dst = unitDead.src ∧
    (askPost.vc, askPost.eseq) = (BitVec.extractLsb' 16 3 unitDead.unit, BitVec.extractLsb' 0 16 unitDead.unit) ∧
    askPost.what = Asked.post 0 31 1 :=
  ⟨⟨by decide +kernel, by decide +kernel, by decide +kernel, by decide +kernel, by decide +kernel,
    by decide +kernel, by decide +kernel, by decide +kernel⟩, by decide +kernel⟩

theorem witness_FabricTrees_1 :
    Arrives treeReduce unitReduce ∧
    (unitReduce.op = 7 ∨ unitReduce.op = 8) ∧
    treeStray treeReduce unitReduce (BitVec.extractLsb' 0 4 unitReduce.unit).toNat = false ∧
    unitReduce.unit.getLsbD 8 = false ∧
    unitReduce.op = 7 ∧
    (getTree treeReduce (BitVec.extractLsb' 0 4 unitReduce.unit).toNat).own = [] :=
  ⟨⟨by decide +kernel, by decide +kernel, by decide +kernel, by decide +kernel, by decide +kernel,
    by decide +kernel, by decide +kernel, by decide +kernel⟩, by decide +kernel⟩

theorem witness_FabricTrees_2 :
    Arrives treeBar unitBar ∧
    (unitBar.op = 7 ∨ unitBar.op = 8) ∧
    treeStray treeBar unitBar (BitVec.extractLsb' 0 4 unitBar.unit).toNat = false ∧
    unitBar.unit.getLsbD 8 = false ∧
    unitBar.op = 8 ∧
    (getTree treeBar (BitVec.extractLsb' 0 4 unitBar.unit).toNat).ownBar = false ∧
    (¬unitBar.src ∈ (getTree treeBar (BitVec.extractLsb' 0 4 unitBar.unit).toNat).bars) :=
  ⟨⟨by decide +kernel, by decide +kernel, by decide +kernel, by decide +kernel, by decide +kernel,
    by decide +kernel, by decide +kernel, by decide +kernel⟩, by decide +kernel⟩

theorem witness_FabricTrees_3 :
    Arrives treeUp unitRelease ∧
    (unitRelease.op = 7 ∨ unitRelease.op = 8) ∧
    treeStray treeUp unitRelease (BitVec.extractLsb' 0 4 unitRelease.unit).toNat = false ∧
    unitRelease.unit.getLsbD 8 = true ∧
    unitRelease.op = 8 ∧
    ftChildren treeUp (BitVec.extractLsb' 0 4 unitRelease.unit).toNat = [] :=
  ⟨⟨by decide +kernel, by decide +kernel, by decide +kernel, by decide +kernel, by decide +kernel,
    by decide +kernel, by decide +kernel, by decide +kernel⟩, by decide +kernel⟩

theorem witness_FabricTrees_4 :
    Arrives treeNone unitReduce ∧
    (unitReduce.op = 7 ∨ unitReduce.op = 8) ∧
    treeStray treeNone unitReduce (BitVec.extractLsb' 0 4 unitReduce.unit).toNat = true :=
  ⟨⟨by decide +kernel, by decide +kernel, by decide +kernel, by decide +kernel, by decide +kernel,
    by decide +kernel, by decide +kernel, by decide +kernel⟩, by decide +kernel⟩

theorem witness_OrderAndTimeouts_1 :
    dark ahead = false ∧
    opVcOk unitA.op unitA.vc = true ∧
    unitA.dst = fabDev ahead ∧
    endpointPort ahead unitA.dst = none ∧
    rxPort ahead unitA = none ∧
    ahead.fab.answers.contains unitA = false ∧
    unitA.op = 3 ∧
    0 < (unitA.eseq - expectedOf ahead (flowKey unitA.src unitA.vc)).toNat ∧
    (unitA.eseq - expectedOf ahead (flowKey unitA.src unitA.vc)).toNat < 32768 ∧
    ahead.fab.store.length < 2048 ∧
    (∀ (x : FUnit × Nat),
      x ∈ ahead.fab.store → flowOf ahead x.fst = flowKey unitA.src unitA.vc → x.fst.eseq ≠ unitA.eseq) :=
  by decide +kernel

theorem witness_OrderAndTimeouts_2 :
    dark behind = false ∧
    opVcOk unitA.op unitA.vc = true ∧
    unitA.dst = fabDev behind ∧
    endpointPort behind unitA.dst = none ∧
    rxPort behind unitA = none ∧
    behind.fab.answers.contains unitA = false ∧
    unitA.op = 3 ∧
    32768 ≤ (unitA.eseq - expectedOf behind (flowKey unitA.src unitA.vc)).toNat :=
  by decide +kernel

theorem witness_OrderAndTimeouts_3 :
    held1.fab.store = [(unitHeld, 0)] ∧
    unitHeld.op = 6 ∧
    unitHeld.space = 4 ∧
    unitHeld.dst = fabDev held1 ∧
    endpointPort held1 unitHeld.dst = none ∧
    (unitHeld.eseq - expectedOf held1 (flowKey unitHeld.src unitHeld.vc)).toNat ≠ 0 ∧
    BitVec.extractLsb' 0 20 (devGet held1 458756) ≠ 0 :=
  by decide +kernel

theorem witness_OrderAndTimeouts_4 :
    timedOut.fab.remote[0]? = some askRead ∧
    askRead.what = Asked.soRead 2 0 ∧
    BitVec.extractLsb' 0 20 (devGet timedOut 458756) ≠ 0 :=
  by decide +kernel

theorem witness_RestartAndInjection_1 :
    egress epoch1 9 0 = some 3 ∧
    dark epoch1 = false ∧
    epoch1.fab.stopOwed = [] ∧
    epoch1.fab.waiting = [] :=
  by decide +kernel

theorem witness_RestartAndInjection_2 :
    egress sending9 9 0 = some 3 ∧
    dark sending9 = false ∧
    sending9.fab.stopOwed = [] ∧
    sending9.fab.waiting = [] :=
  by decide +kernel

theorem witness_FabricRegisters_1 :
    List.find? (fun h => h.fst == 458752 + 6180) switching.fab.routeHold = some (458752 + 6180, 2147483649) ∧
    (∀ (q : Nat),
      chosenPort (devGet switching (458752 + 6180)) = some q →
        ∀ (e : BitVec 12 × FUnit × Nat),
          e ∈ (getPort switching q).replay → underEntry switching (458752 + 6180) e.snd.fst = false) ∧
    switching.fab.waiting = [] ∧
    dark switching = false ∧
    0 < 9 ∧
    9 < 10 ∧
    mgmtAllowed switching 9 = false ∧
    egress switching 9 0 = some 3 :=
  by decide +kernel

theorem witness_FabricRegisters_2 :
    dark managed = false ∧
    0 < 9 ∧
    9 < 10 ∧
    mgmtAllowed managed 9 = true ∧
    egress managed 9 0 = some 3 ∧
    (getCh managed 127).st = CState.idle ∧
    (BitVec.ofNat 32 (chBase 127 + 20)).toNat = chBase 127 + 20 :=
  by decide +kernel

/-! ### Ingest, sealing and the control cores -/

/-- The header of an envelope of `n` bytes in chunks of 64, mode `m`, for key slot 8191 and account 1023. -/
def envHead (m : Byte) (n : Nat) : List Byte :=
  [0x46, 0x56, 0x32, 0x45, 1, 0, m, 0] ++ leBytes 2 8191 ++ leBytes 2 1023 ++ leBytes 4 64 ++ List.replicate 16 0x11 ++
    leBytes 8 n ++ List.replicate 8 0x22 ++ List.replicate 4 0 ++ leBytes 4 ((n + 63) / 64) ++ List.replicate 200 0
/-- An envelope on port 3 whose first `u` units have come. -/
def env (bs : List Byte) (u : Nat) : Envelope :=
  { port := 3, stream := 15, units := u, bytes := bs, last := false, checked := false, kslot := 0, key := [], entry := 0,
    written := 0, verified := 0 }
def ingestPort (st : Nat) : State := portAt base 3 st fun q => { q with cfg := 0x80000007 }
def withEnv (st : Nat) (e : Envelope) : State := setPipe (ingestPort st) 31 (some e)
def ingestUnitAt (i : BitVec 38) : FUnit :=
  { op := 10, vc := 5, src := 7, dst := 5, eseq := 0, space := 15, unit := i, pzn := false, data := 0x1234 }
def headXts : Envelope := env (envHead 2 64) 4
def shortHead : Envelope := env (List.replicate 192 0) 3
def longWait : Envelope := env (List.replicate 192 0) 259
def opened : State := withEnv 2 headXts
def headBad : Envelope := env (List.replicate 256 0) 4
def keyed (s : State) : State :=
  withSeal s fun b =>
    { b with
      ks := [(8191, ⟨.active, 2, [], [], []⟩)]
      cache := [(8191, List.replicate 64 5)]
      pt := [(8190, { PEntry.reset with st := .pending, object := List.replicate 16 0x11, bufLen := 64 })] }
def wrongHead : State := withEnv 2 headBad
def noKey : State := withEnv 2 headXts
def matched : State := keyed (withEnv 2 headXts)
def headGcm : List Byte := envHead 1 1 ++ [9]
def gcm (tag : List Byte) : Envelope :=
  { env (headGcm ++ tag) 5 with checked := true, key := List.replicate 32 5, entry := 8190, written := 1, last := true }
def gcmOk : Envelope := gcm (gcmTag (List.replicate 32 5) (List.replicate 8 0x22 ++ beBytes 4 0) [] [9])
def gcmBad : Envelope := gcm (List.replicate 16 0)
def tagged : State := withEnv 2 gcmOk
def untagged : State := withEnv 2 gcmBad
def whole : Envelope := { env (envHead 2 64 ++ List.replicate 64 7) 5 with checked := true, last := true, written := 1 }
def complete : State := withEnv 2 whole
def waits : Envelope := { env (envHead 2 64) 4 with checked := true }
def idleEnv : State := devs (withEnv 2 waits) [(0x80000, 1)]
def failing : State := withEnv 5 headXts
def entryIs (st : EntrySt) (w0 : Word) : State :=
  devs (withSeal base fun b => { b with pt := [(8191, { PEntry.reset with st := st })] }) [(0x80200, w0)]
def keyIs (st : KeySt) (run : List KsCmd) : State :=
  withSeal base fun b => { b with ks := [(8191, ⟨st, 1, [], [], []⟩)], ksRun := run }
def sealJob (n : Nat) : SealJob := ⟨0x2000000000 + n, [], some 255, [], []⟩
def jobs (l : List SealJob) : State := withSeal base fun b => { b with jobs := l }
def full256 : State := jobs (List.replicate 256 (sealJob 0))
def lastFits : State := jobs (List.replicate 255 (sealJob 0))
/-- The device has the number 5. -/
def dev5 (s : State) : State := devs s [(0x70000, 5)]
def jobDone : State := dev5 (jobs [⟨0x0005200000000000 + 0x2FFFFFC0, [], some 255, [], []⟩])
/-- A job without payload and terms: its record goes to the start of the SRAM, its digests come from 0x100. -/
def plainDesc : List Byte :=
  leBytes 8 0x0005200000000200 ++ leBytes 8 0x0005200000000000 ++ leBytes 8 0x0005200000000100 ++ leBytes 4 0 ++ leBytes 2 0 ++
    leBytes 2 7 ++ leBytes 2 9 ++ leBytes 2 8191 ++ leBytes 4 3 ++ leBytes 2 6 ++ [1, 0] ++ List.replicate 20 0
def plainJob : SealJob := ⟨0x0005200000000000 + 0x2FFFFFC0, plainDesc, none, List.replicate 32 5, List.replicate 32 6⟩
def sealable : State :=
  dev5 (devs (withSeal base fun b =>
    { b with jobs := [plainJob], pt := [(8191, { PEntry.reset with st := .accepted, ptLen := 64, account := 2 })] })
    [(0x80018, 0x04000007)])
/-- The record of the job: one signed byte of marks, no token, no payload. -/
def plainRecord : List Byte :=
  let x := ptGet sealable 8191
  let postmark := sha384 (List.replicate 96 0 ++ x.idig ++ List.replicate 48 0)
  let nonce := (sha384 (postmark ++ leBytes 4 3 ++ leBytes 2 7 ++ sha384 [])).take 12
  let header := [1, 1] ++ leBytes 2 0 ++ leBytes 4 0 ++ leBytes 2 7 ++ leBytes 2 9 ++ leBytes 4 3 ++ nonce ++ leBytes 2 5 ++ [0, 0]
  header ++ gcmTag (List.replicate 32 5) nonce (header ++ postmark) [] ++ postmark
/-- Firmware forwards batch 3 and acknowledges. -/
def forwarded : State := devs (withSeal base fun b => { b with receipts := [3, 4] }) [(0x80030, 3)]
def batchIs (n : BitVec 32) (l : List (List Byte)) : State := withSeal base fun b => { b with batch := ⟨n, l, []⟩ }
def emptyBatch : State := devs (batchIs 15 []) [(0x80018, 7)]
def held16 : State := devs (batchIs 16 [[1]]) [(0x80018, 7)]
def free15 : State := devs (batchIs 15 [[1]]) [(0x80018, 7)]
def signing1 : State := withSeal base fun b => { b with signing := [⟨3, [], []⟩] }
def attDone : State := dev5 (withSeal base fun b => { b with att := [⟨List.replicate 48 1, some 0x0005200000000000, none⟩] })
def fwIs (l : List FwCmd) : State := withSeal base fun b => { b with fw := l, lastValid := [(2, some ⟨1, 2, [3]⟩)] }
def dirtyLine : CLine := ⟨(0x0005200000000000 + 0x2FFFFFC0) / 64, ⟨0x77, 0⟩, true⟩
def cached (ways : Word) : State := dev5 (soSet (withSo base fun o => { o with l2c := [(16 * 8191 + 15, some dirtyLine)] }) 0 0x080 ways)
def unlockedWay : State := cached 15
/-- Core 3 maintains the first line of its window 0, which the L2 holds dirty. -/
def ranged : State :=
  dev5 (soSet (soSet (soSet (withSo base fun o =>
    { o with l2c := [(15, some ⟨0x0005200000000000 / 64, ⟨0x77, 0⟩, true⟩), (31, some dirtyLine)] })
    3 4 0x00052000) 3 0x090 0x80000000) 3 0x094 64)
def lockedAll : State := cached 15
def csra (v : Word) : State := devs base [(0x10008, v)]
def heldCore : State := modCore base 1 fun c => { c with held := true }
def coreOff : State := modCl heldCore 0 fun k => { k with power := .off }
def window1 : State := csra 0x00011074
def windowBad : State := csra 0x0001A000
def hostUp : State := { base with mod := { base.mod with mrst := true, mode := .active } }
def lostKey : State := modSeal matched fun b => { b with lost := [(envKslot headXts, true)], cache := [] }
def waiting0 : Parcel :=
  { uid := 3, bundle := 4, entry := 0, plan := 9, buf := ⟨2, 0, 128⟩, st := .running, code := 0, stage := 0, sent := false,
    cfg := [], weights := [], dbg := false, tevent := false, records := [], lastSealed := false }
def stageLeft : State := { dev5 base with so := { base.so with parcels := [waiting0] } }

theorem witness_Envelopes_1 :
    (getPort (ingestPort 2) 3).rx = [] ∧
    inService (ingestPort 2) 3 = true ∧
    isIngest (ingestPort 2) 3 = true ∧
    5 ≤ (ingestUnitAt 0).vc.toNat ∧
    streamPipe (ingestPort 2) 3 (ingestUnitAt 0).space = none ∧
    freePipe (ingestPort 2) = some 0 ∧
    (ingestUnitAt 0).unit = 0 ∧
    (ingestUnitAt 0).pzn = false :=
  by decide +kernel

theorem witness_Envelopes_2 :
    (getPort opened 3).rx = [] ∧
    inService opened 3 = true ∧
    isIngest opened 3 = true ∧
    5 ≤ (ingestUnitAt 4).vc.toNat ∧
    streamPipe opened 3 (ingestUnitAt 4).space = some 31 ∧
    getPipe opened 31 = some headXts ∧
    headXts.checked = false ∧
    headXts.units < 260 ∧
    (ingestUnitAt 4).unit.toNat = headXts.units ∧
    (ingestUnitAt 4).unit ≠ 0 ∧
    (ingestUnitAt 4).pzn = false ∧
    3 ≤ headXts.units ∧
    (fieldsOk
          { port := headXts.port, stream := headXts.stream, units := headXts.units,
            bytes := headXts.bytes ++ leBytes 64 (ingestUnitAt 4).data.toNat, last := headXts.last,
            checked := headXts.checked, kslot := headXts.kslot, key := headXts.key, entry := headXts.entry,
            written := headXts.written, verified := headXts.verified } =
        false ∨
      headXts.units =
        lastUnit
          { port := headXts.port, stream := headXts.stream, units := headXts.units,
            bytes := headXts.bytes ++ leBytes 64 (ingestUnitAt 4).data.toNat, last := headXts.last,
            checked := headXts.checked, kslot := headXts.kslot, key := headXts.key, entry := headXts.entry,
            written := headXts.written, verified := headXts.verified }) ∧
    getPipe opened 31 = some headXts ∧
    4 ≤ headXts.units ∧
    headerChecks opened headXts = Except.error 2 ∧
    (headXts.checked = false ∨ headXts.last = true) :=
  join5 (by decide +kernel) (join5 (by decide +kernel) (join5 (by decide +kernel) ⟨errIs_eq (by decide +kernel),
    by decide +kernel⟩))

theorem witness_Envelopes_3 :
    (getPort opened 3).rx = [] ∧
    inService opened 3 = true ∧
    isIngest opened 3 = true ∧
    5 ≤ (ingestUnitAt 5).vc.toNat ∧
    streamPipe opened 3 (ingestUnitAt 5).space = some 31 ∧
    getPipe opened 31 = some headXts ∧
    headXts.checked = false ∧
    headXts.units < 260 ∧
    (ingestUnitAt 5).unit.toNat ≠ headXts.units ∧
    (ingestUnitAt 5).unit ≠ 0 ∧
    getPipe opened 31 = some headXts ∧
    4 ≤ headXts.units ∧
    headerChecks opened headXts = Except.error 2 ∧
    (headXts.checked = false ∨ headXts.last = true) :=
  join5 (by decide +kernel) (join5 (by decide +kernel) (join2 (by decide +kernel) ⟨errIs_eq (by decide +kernel),
    by decide +kernel⟩))

theorem witness_Envelopes_4 :
    (getPort (withEnv 2 shortHead) 3).rx = [] ∧
    inService (withEnv 2 shortHead) 3 = true ∧
    isIngest (withEnv 2 shortHead) 3 = true ∧
    5 ≤ (ingestUnitAt 3).vc.toNat ∧
    streamPipe (withEnv 2 shortHead) 3 (ingestUnitAt 3).space = some 31 ∧
    getPipe (withEnv 2 shortHead) 31 = some shortHead ∧
    shortHead.checked = false ∧
    shortHead.units < 260 ∧
    (ingestUnitAt 3).unit.toNat = shortHead.units ∧
    (ingestUnitAt 3).unit ≠ 0 ∧
    (ingestUnitAt 3).pzn = false ∧
    3 ≤ shortHead.units ∧
    (fieldsOk
          { port := shortHead.port, stream := shortHead.stream, units := shortHead.units,
            bytes := shortHead.bytes ++ leBytes 64 (ingestUnitAt 3).data.toNat, last := shortHead.last,
            checked := shortHead.checked, kslot := shortHead.kslot, key := shortHead.key,
            entry := shortHead.entry, written := shortHead.written, verified := shortHead.verified } =
        false ∨
      shortHead.units =
        lastUnit
          { port := shortHead.port, stream := shortHead.stream, units := shortHead.units,
            bytes := shortHead.bytes ++ leBytes 64 (ingestUnitAt 3).data.toNat, last := shortHead.last,
            checked := shortHead.checked, kslot := shortHead.kslot, key := shortHead.key,
            entry := shortHead.entry, written := shortHead.written, verified := shortHead.verified }) ∧
    getPipe (withEnv 2 shortHead) 31 = some shortHead ∧
    (shortHead.checked = false ∨ shortHead.last = true) :=
  by decide +kernel

theorem witness_Envelopes_5 :
    (getPort (withEnv 2 longWait) 3).rx = [] ∧
    inService (withEnv 2 longWait) 3 = true ∧
    isIngest (withEnv 2 longWait) 3 = true ∧
    5 ≤ (ingestUnitAt 259).vc.toNat ∧
    streamPipe (withEnv 2 longWait) 3 (ingestUnitAt 259).space = some 31 ∧
    getPipe (withEnv 2 longWait) 31 = some longWait ∧
    longWait.checked = false ∧
    longWait.units < 260 ∧
    (ingestUnitAt 259).unit.toNat = longWait.units ∧
    (ingestUnitAt 259).unit ≠ 0 ∧
    (ingestUnitAt 259).pzn = false ∧
    3 ≤ longWait.units ∧
    (fieldsOk
          { port := longWait.port, stream := longWait.stream, units := longWait.units,
            bytes := longWait.bytes ++ leBytes 64 (ingestUnitAt 259).data.toNat, last := longWait.last,
            checked := longWait.checked, kslot := longWait.kslot, key := longWait.key, entry := longWait.entry,
            written := longWait.written, verified := longWait.verified } =
        false ∨
      longWait.units =
        lastUnit
          { port := longWait.port, stream := longWait.stream, units := longWait.units,
            bytes := longWait.bytes ++ leBytes 64 (ingestUnitAt 259).data.toNat, last := longWait.last,
            checked := longWait.checked, kslot := longWait.kslot, key := longWait.key, entry := longWait.entry,
            written := longWait.written, verified := longWait.verified }) ∧
    getPipe (withEnv 2 longWait) 31 = some longWait ∧
    4 ≤ longWait.units ∧
    headerChecks (withEnv 2 longWait) longWait = Except.error 3 ∧
    (longWait.checked = false ∨ longWait.last = true) :=
  join5 (by decide +kernel) (join5 (by decide +kernel) (join5 (by decide +kernel) ⟨errIs_eq (by decide +kernel),
    by decide +kernel⟩))

theorem witness_Envelopes_6 :
    getPipe wrongHead 31 = some headBad ∧
    4 ≤ headBad.units ∧
    headBad.checked = false ∧
    headerChecks wrongHead headBad = Except.error 3 ∧
    (headBad.checked = false ∨ headBad.last = true) :=
  join3 (by decide +kernel) ⟨errIs_eq (by decide +kernel), by decide +kernel⟩

theorem witness_Envelopes_7 :
    getPipe noKey 31 = some headXts ∧
    4 ≤ headXts.units ∧
    headXts.checked = false ∧
    headerChecks noKey headXts = Except.error 2 ∧
    (headXts.checked = false ∨ headXts.last = true) :=
  join3 (by decide +kernel) ⟨errIs_eq (by decide +kernel), by decide +kernel⟩

theorem witness_Envelopes_8 :
    getPipe matched 31 = some headXts ∧
    4 ≤ headXts.units ∧
    headXts.checked = false ∧
    headerChecks matched headXts = Except.ok (List.replicate 64 5, 8190) ∧
    headXts.bytes.length < unitNeeds headXts headXts.written ∧
    (headXts.checked = false ∨ headXts.last = true) :=
  join3 (by decide +kernel) ⟨okIs_eq (by decide +kernel), by decide +kernel⟩

theorem witness_Envelopes_9 :
    getPipe tagged 31 = some gcmOk ∧
    gcmOk.checked = true ∧
    isGcm gcmOk = true ∧
    chunkWritten gcmOk gcmOk.verified = true ∧
    tagOk gcmOk gcmOk.verified = true ∧
    (gcmOk.checked = false ∨ gcmOk.last = true) :=
  by decide +kernel

theorem witness_Envelopes_10 :
    getPipe untagged 31 = some gcmBad ∧
    gcmBad.checked = true ∧
    isGcm gcmBad = true ∧
    chunkWritten gcmBad gcmBad.verified = true ∧
    tagOk gcmBad gcmBad.verified = false ∧
    (gcmBad.checked = false ∨ gcmBad.last = true) :=
  by decide +kernel

theorem witness_Envelopes_11 :
    getPipe complete 31 = some whole ∧
    acceptable whole = true ∧
    (whole.checked = false ∨ whole.last = true) :=
  by decide +kernel

theorem witness_Envelopes_12 :
    getPipe idleEnv 31 = some waits ∧
    devGet idleEnv 524288 ≠ 0 ∧
    waits.checked = true ∧
    waits.last = false ∧
    bufferEmpty waits = true :=
  by decide +kernel

theorem witness_Envelopes_13 :
    getPipe failing 31 = some headXts ∧
    4 ≤ headXts.units ∧
    headXts.checked = false ∧
    headerChecks failing headXts = Except.error 2 ∧
    (headXts.checked = false ∨ headXts.last = true) ∧
    (portState failing 3 = 5 ∨ portState failing 3 = 6) :=
  join3 (by decide +kernel) ⟨errIs_eq (by decide +kernel), by decide +kernel⟩

theorem witness_ParcelTable_1 :
    ((ptGet (entryIs EntrySt.free 1) 8191).st = EntrySt.free ∧
        (BitVec.extractLsb' 0 8 (devGet (entryIs EntrySt.free 1) (524800 + 4 * 0))).toNat ≤ 1 ∨
      ((ptGet (entryIs EntrySt.free 1) 8191).st = EntrySt.accepted ∨
          (ptGet (entryIs EntrySt.free 1) 8191).st = EntrySt.rejected) ∧
        (BitVec.extractLsb' 0 8 (devGet (entryIs EntrySt.free 1) (524800 + 4 * 0))).toNat = 0) :=
  by decide +kernel

theorem witness_ParcelTable_2 :
    ((ptGet (entryIs EntrySt.rejected 0) 8191).st = EntrySt.free ∧
        (BitVec.extractLsb' 0 8 (devGet (entryIs EntrySt.rejected 0) (524800 + 4 * 0))).toNat ≤ 1 ∨
      ((ptGet (entryIs EntrySt.rejected 0) 8191).st = EntrySt.accepted ∨
          (ptGet (entryIs EntrySt.rejected 0) 8191).st = EntrySt.rejected) ∧
        (BitVec.extractLsb' 0 8 (devGet (entryIs EntrySt.rejected 0) (524800 + 4 * 0))).toNat = 0) :=
  by decide +kernel

theorem witness_ParcelTable_3 :
    ((ptGet (entryIs EntrySt.accepted 2) 8191).st = EntrySt.pending ∨
      (ptGet (entryIs EntrySt.accepted 2) 8191).st = EntrySt.opened ∨
        2 ≤ (BitVec.extractLsb' 0 8 (devGet (entryIs EntrySt.accepted 2) (524800 + 4 * 0))).toNat) :=
  by decide +kernel

theorem witness_ParcelTable_4 :
    ((ptGet (entryIs EntrySt.opened 0) 8191).st = EntrySt.pending ∨
      (ptGet (entryIs EntrySt.opened 0) 8191).st = EntrySt.opened ∨
        2 ≤ (BitVec.extractLsb' 0 8 (devGet (entryIs EntrySt.opened 0) (524800 + 4 * 0))).toNat) :=
  by decide +kernel

theorem witness_KeyStore_1 :
    dark (keyIs KeySt.active []) = false ∧
    (keyIs KeySt.active []).so.sealing.ksRun = [] ∧
    (getKey (keyIs KeySt.active []) 8191).st ≠ KeySt.empty ∧
    ((getKey (keyIs KeySt.active []) 8191).st ≠ KeySt.retiring ∨ keyUsed (keyIs KeySt.active []) 8191 = true) :=
  by decide +kernel

theorem witness_KeyStore_2 :
    (keyIs KeySt.active [KsCmd.importKey 8191 [] none]).so.sealing.ksRun ≠ [] ∧
    (keyIs KeySt.active [KsCmd.importKey 8191 [] none]).so.sealing.ksRun = [KsCmd.importKey 8191 [] none] ∧
    ((getKey (keyIs KeySt.active [KsCmd.importKey 8191 [] none]) 8191).st ≠ KeySt.retiring ∨
      keyUsed (keyIs KeySt.active [KsCmd.importKey 8191 [] none]) 8191 = true) :=
  by decide +kernel

theorem witness_KeyStore_3 :
    (keyIs KeySt.empty [KsCmd.importKey 8191 [] none]).so.sealing.ksRun ≠ [] ∧
    (keyIs KeySt.empty [KsCmd.importKey 8191 [] none]).so.sealing.ksRun = [KsCmd.importKey 8191 [] none] ∧
    ((getKey (keyIs KeySt.empty [KsCmd.importKey 8191 [] none]) 8191).st ≠ KeySt.retiring ∨
      keyUsed (keyIs KeySt.empty [KsCmd.importKey 8191 [] none]) 8191 = true) :=
  by decide +kernel

theorem witness_KeyStore_4 :
    (keyIs KeySt.retiring [KsCmd.retire 8191 none]).so.sealing.ksRun ≠ [] ∧
    (getKey (keyIs KeySt.retiring [KsCmd.retire 8191 none]) 8191).st = KeySt.retiring ∧
    keyUsed (keyIs KeySt.retiring [KsCmd.retire 8191 none]) 8191 = false ∧
    (keyIs KeySt.retiring [KsCmd.retire 8191 none]).so.sealing.ksRun = [KsCmd.retire 8191 none] :=
  by decide +kernel

theorem witness_SealQueue_1 :
    dark full256 = false ∧
    256 ≤ full256.so.sealing.jobs.length ∧
    holdsJob full256 ((8192 : Word) ++ full256.so.sealing.doorLo).toNat = false ∧
    (BitVec.toNat (0 - devGet full256 524336) ≤ 16 ∧
      ∀ (k : Nat),
        k < BitVec.toNat (0 - devGet full256 524336) →
          devGet full256 524336 + BitVec.ofNat 32 k ∈ full256.so.sealing.receipts ∧
            (∀ (p : Parcel),
                p ∈ full256.so.parcels →
                  ∀ (r : Nat × BitVec 32 × Bool),
                    r ∈ p.records → r.snd.fst = devGet full256 524336 + BitVec.ofNat 32 k → r.snd.snd = true) ∧
              ∀ (x : SealNote),
                x ∈ full256.so.sealing.notes → x.status = 0 → x.batch ≠ devGet full256 524336 + BitVec.ofNat 32 k) ∧
    NothingDue full256 ∧
    full256.so.sealing.closeDue = false :=
  join4 (by decide +kernel) ⟨⟨by decide +kernel, by decide +kernel, by decide +kernel, by decide +kernel,
    by decide +kernel, by decide +kernel, by decide +kernel⟩, by decide +kernel⟩

theorem witness_SealQueue_2 :
    dark lastFits = false ∧
    lastFits.so.sealing.jobs.length < 256 ∧
    holdsJob lastFits ((8192 : Word) ++ lastFits.so.sealing.doorLo).toNat = false ∧
    (BitVec.toNat (0 - devGet lastFits 524336) ≤ 16 ∧
      ∀ (k : Nat),
        k < BitVec.toNat (0 - devGet lastFits 524336) →
          devGet lastFits 524336 + BitVec.ofNat 32 k ∈ lastFits.so.sealing.receipts ∧
            (∀ (p : Parcel),
                p ∈ lastFits.so.parcels →
                  ∀ (r : Nat × BitVec 32 × Bool),
                    r ∈ p.records → r.snd.fst = devGet lastFits 524336 + BitVec.ofNat 32 k → r.snd.snd = true) ∧
              ∀ (x : SealNote),
                x ∈ lastFits.so.sealing.notes →
                  x.status = 0 → x.batch ≠ devGet lastFits 524336 + BitVec.ofNat 32 k) ∧
    NothingDue lastFits ∧
    lastFits.so.sealing.closeDue = false :=
  join4 (by decide +kernel) ⟨⟨by decide +kernel, by decide +kernel, by decide +kernel, by decide +kernel,
    by decide +kernel, by decide +kernel, by decide +kernel⟩, by decide +kernel⟩

theorem witness_SealQueue_3 :
    holdsJob stageLeft ((335872 : Word) ++ stageLeft.so.sealing.doorLo).toNat = true ∧
    (BitVec.toNat (0 - devGet stageLeft 524336) ≤ 16 ∧
      ∀ (k : Nat),
        k < BitVec.toNat (0 - devGet stageLeft 524336) →
          devGet stageLeft 524336 + BitVec.ofNat 32 k ∈ stageLeft.so.sealing.receipts ∧
            (∀ (p : Parcel),
                p ∈ stageLeft.so.parcels →
                  ∀ (r : Nat × BitVec 32 × Bool),
                    r ∈ p.records → r.snd.fst = devGet stageLeft 524336 + BitVec.ofNat 32 k → r.snd.snd = true) ∧
              ∀ (x : SealNote),
                x ∈ stageLeft.so.sealing.notes →
                  x.status = 0 → x.batch ≠ devGet stageLeft 524336 + BitVec.ofNat 32 k) ∧
    NothingDue stageLeft ∧
    stageLeft.so.sealing.closeDue = false :=
  join2 (by decide +kernel) ⟨⟨by decide +kernel, by decide +kernel, by decide +kernel, by decide +kernel,
    by decide +kernel, by decide +kernel, by decide +kernel⟩, by decide +kernel⟩

theorem witness_SealQueue_4 :
    dark forwarded = false ∧
    forwarded.so.sealing.jobs.length < 256 ∧
    holdsJob forwarded ((8192 : Word) ++ forwarded.so.sealing.doorLo).toNat = false ∧
    (BitVec.toNat (4 - devGet forwarded 524336) ≤ 16 ∧
      ∀ (k : Nat),
        k < BitVec.toNat (4 - devGet forwarded 524336) →
          devGet forwarded 524336 + BitVec.ofNat 32 k ∈ forwarded.so.sealing.receipts ∧
            (∀ (p : Parcel),
                p ∈ forwarded.so.parcels →
                  ∀ (r : Nat × BitVec 32 × Bool),
                    r ∈ p.records → r.snd.fst = devGet forwarded 524336 + BitVec.ofNat 32 k → r.snd.snd = true) ∧
              ∀ (x : SealNote),
                x ∈ forwarded.so.sealing.notes →
                  x.status = 0 → x.batch ≠ devGet forwarded 524336 + BitVec.ofNat 32 k) ∧
    NothingDue forwarded ∧
    forwarded.so.sealing.closeDue = false :=
  join4 (by decide +kernel) ⟨⟨by decide +kernel, by decide +kernel, by decide +kernel, by decide +kernel,
    by decide +kernel, by decide +kernel, by decide +kernel⟩, by decide +kernel⟩

theorem witness_SealQueue_5 :
    dark forwarded = false ∧
    forwarded.so.sealing.jobs.length < 256 ∧
    holdsJob forwarded ((8192 : Word) ++ forwarded.so.sealing.doorLo).toNat = false ∧
    (¬(BitVec.toNat (6 - devGet forwarded 524336) ≤ 16 ∧
        ∀ (k : Nat),
          k < BitVec.toNat (6 - devGet forwarded 524336) →
            devGet forwarded 524336 + BitVec.ofNat 32 k ∈ forwarded.so.sealing.receipts ∧
              (∀ (p : Parcel),
                  p ∈ forwarded.so.parcels →
                    ∀ (r : Nat × BitVec 32 × Bool),
                      r ∈ p.records →
                        r.snd.fst = devGet forwarded 524336 + BitVec.ofNat 32 k → r.snd.snd = true) ∧
                ∀ (x : SealNote),
                  x ∈ forwarded.so.sealing.notes →
                    x.status = 0 → x.batch ≠ devGet forwarded 524336 + BitVec.ofNat 32 k)) :=
  by decide +kernel

theorem witness_SealJobs_1 :
    NothingDue jobDone ∧
    jobDone.so.sealing.jobs =
      [{ addr := 1442559255642112 + 805306304, desc := [], status := some 255, iKey := [], tKey := [] }] ∧
    jobDone.so.sealing.closeDue = false ∧
    globalOf
        { addr := (1442559255642112 : Nat) + (805306304 : Nat), desc := [], status := some (255 : Nat),
            iKey := [], tKey := [] : SealJob }.addr =
      { space := (2 : BitVec (4 : Nat)), dev := fabDev jobDone, off := (805306304 : Nat) : FarAddr } ∧
    805306304 + 64 ≤ 805306368 ∧
    { addr := (1442559255642112 : Nat) + (805306304 : Nat), desc := [], status := some (255 : Nat), iKey := [],
          tKey := [] : SealJob }.status =
      some (255 : Nat) :=
  ⟨⟨by decide +kernel, by decide +kernel, by decide +kernel, by decide +kernel, by decide +kernel,
    by decide +kernel, by decide +kernel⟩, by decide +kernel⟩

theorem witness_SealJobs_2 :
    NothingDue sealable ∧ sealable.so.sealing.jobs = [plainJob] ∧ sealable.so.sealing.closeDue = false ∧
    globalOf plainJob.addr = ⟨2, fabDev sealable, 0x2FFFFFC0⟩ ∧ plainJob.status = none ∧ plainJob.desc ≠ [] ∧
    leAt plainDesc 24 4 = 0 ∧ leAt plainDesc 28 2 = 0 ∧ leAt plainDesc 42 1 = 1 ∧
    (∀ x ∈ slice plainDesc 43 1 ++ slice plainDesc 58 6, x = 0) ∧
    jobRead sealable (leAt plainDesc 0 8) 0 = (sealable, .ok []) ∧
    readTerms 0 sealable (leAt plainDesc 0 8) = (sealable, .ok []) ∧
    jobRead sealable (leAt plainDesc 16 8) 144 = (sealable, .ok (List.replicate 144 0)) ∧
    leAt plainDesc 34 2 = 8191 ∧ (ptGet sealable 8191).st = .accepted ∧
    globalOf (leAt plainDesc 8 8) = ⟨2, fabDev sealable, 0⟩ ∧ leAt plainDesc 8 8 % 64 = 0 ∧
    plainRecord.length = 96 ∧ sealable.so.sealing.batch.leaves.length < ((devGet sealable 0x80018).extractLsb' 16 11).toNat ∧
    sealable.so.sealing.batch.dests.length < 64 ∧ sealable.so.sealing.fw = [] :=
  ⟨⟨by decide +kernel, by decide +kernel, by decide +kernel, by decide +kernel, by decide +kernel, by decide +kernel,
    by decide +kernel⟩, join4 (by decide +kernel) (join4 (by decide +kernel) ⟨by decide +kernel, rfl, rfl,
    Prod.ext (by decide +kernel) (okIs_eq (by decide +kernel)), by decide +kernel⟩)⟩

theorem witness_Batches_1 :
    (Instr.batchCloseCmd ∈ Instr.batchCloseCmd :: if batchIdle emptyBatch = 0 then [] else [Instr.batchIdleTimeout]) ∧
    emptyBatch.so.sealing.batch.leaves = [] :=
  by decide +kernel

theorem witness_Batches_2 :
    (Instr.batchIdleTimeout ∈ Instr.batchCloseCmd :: if batchIdle held16 = 0 then [] else [Instr.batchIdleTimeout]) ∧
    held16.so.sealing.batch.leaves ≠ [] ∧
    decide (16 ≤ (held16.so.sealing.batch.num - devGet held16 524336).toNat) = true :=
  by decide +kernel

theorem witness_Batches_3 :
    (Instr.batchIdleTimeout ∈ Instr.batchCloseCmd :: if batchIdle free15 = 0 then [] else [Instr.batchIdleTimeout]) ∧
    free15.so.sealing.batch.leaves ≠ [] ∧
    decide (16 ≤ (free15.so.sealing.batch.num - devGet free15 524336).toNat) = false :=
  by decide +kernel

theorem witness_Batches_4 :
    (Instr.batchIdleTimeout ∈ Instr.batchCloseCmd :: if batchIdle base = 0 then [] else [Instr.batchIdleTimeout]) ∧
    base.so.sealing.batch.leaves = [] :=
  by decide +kernel

theorem witness_Batches_5 :
    batchIdle (devs base [(524312, 0)]) = 0 :=
  by decide +kernel

theorem witness_Batches_6 :
    signing1.so.sealing.signing = [{ num := 3, body := [], leaves := [] }] :=
  by decide +kernel

theorem witness_ReportsAndImages_1 :
    dark base = false ∧
    base.so.sealing.att = [] ∧
    base.so.sealing.fw = [] :=
  by decide +kernel

theorem witness_ReportsAndImages_2 :
    attDone.so.sealing.att ≠ [] ∧
    attDone.so.sealing.att = [{ nonce := List.replicate 48 1, addr := some 1442559255642112, hole := none }] ∧
    { nonce := List.replicate (48 : Nat) (1 : Byte), addr := some (1442559255642112 : Nat), hole := none :
          AttJob }.hole =
      none ∧
    dark attDone = false ∧
    attDone.so.sealing.fw = [] :=
  by decide +kernel

theorem witness_ReportsAndImages_3 :
    dark (fwIs [FwCmd.verify 2 [1] none]) = false ∧
    (fwIs [FwCmd.verify 2 [1] none]).so.sealing.att = [] ∧
    (fwIs [FwCmd.verify 2 [1] none]).so.sealing.fw ≠ [] ∧
    (fwIs [FwCmd.verify 2 [1] none]).so.sealing.fw = [FwCmd.verify 2 [1] none] :=
  by decide +kernel

theorem witness_ReportsAndImages_4 :
    dark (fwIs [FwCmd.activate 2 none]) = false ∧
    (fwIs [FwCmd.activate 2 none]).so.sealing.att = [] ∧
    (fwIs [FwCmd.activate 2 none]).so.sealing.fw ≠ [] ∧
    (fwIs [FwCmd.activate 2 none]).so.sealing.fw = [FwCmd.activate 2 none] ∧
    tget imageDefault (fwIs [FwCmd.activate 2 none]).so.sealing.lastValid 2 =
      some { version := 1, svn := 2, digest := [3] } :=
  by decide +kernel

theorem witness_CacheMaintenance_1 :
    lockedWays (cached 15) ≤ 15 ∧
    l2Get (cached 15) (16 * 8191 + 15) = some dirtyLine ∧
    dirtyLine.dirty = true ∧
    dirtyLine.data.poison = 0 ∧
    dirtyLine.line < mbxLines ∧
    globalOf (64 * dirtyLine.line) = { space := 2, dev := fabDev (cached 15), off := 805306304 } ∧
    dark (cached 15) = false :=
  by decide +kernel

theorem witness_CacheMaintenance_2 :
    0 < lockedWays (cached 1) ∧
    dark (cached 1) = false :=
  by decide +kernel

/-- No line is in an L1, and each line of the L2 may be written back to shared SRAM. -/
theorem witness_RangeMaintenance :
    (ranged.so.l1.map (·.1)).Nodup ∧ (ranged.so.l1i.map (·.1)).Nodup ∧ (ranged.so.l2c.map (·.1)).Nodup ∧
    (∀ i, l1Get ranged i = none) ∧
    (∀ i l, l2Get ranged i = some l → l.line < mbxLines ∧
      globalOf (64 * l.line) = ⟨2, fabDev ranged, (globalOf (64 * l.line)).off⟩ ∧
      (globalOf (64 * l.line)).off < 0x30000000 ∧ l.data.poison = 0) := by
  refine join3 (by decide +kernel) ⟨fun i => rfl, fun i l h => ?_⟩
  have h1 : ranged.so.l2c =
      [(15, some ⟨0x0005200000000000 / 64, ⟨0x77, 0⟩, true⟩), (31, some dirtyLine)] := by decide +kernel
  rw [l2Get, h1] at h
  by_cases h2 : i = 15
  · subst h2; cases h; decide +kernel
  by_cases h3 : i = 31
  · subst h3; cases h; decide +kernel
  simp only [tget, if_neg h2, if_neg h3, reduceCtorEq, lineDefault] at h

theorem witness_ClusterControl_1 :
    siteOf heldCore 1 = some 1 ∧
    clusterOf 1 = 0 ∧
    (getCore heldCore 1).held = true ∧
    (getCl heldCore 0).power ≠ PState.off :=
  by decide +kernel

theorem witness_ClusterControl_2 :
    siteOf coreOff 1 = some 1 ∧
    clusterOf 1 = 0 ∧
    (getCl coreOff 0).power = PState.off :=
  by decide +kernel

theorem witness_ClusterControl_3 :
    siteOf window1 1 = some 1 ∧
    clusterOf 1 = 0 ∧
    (getCore window1 1).held = false ∧
    (getCl window1 0).power ≠ PState.off ∧
    dark window1 = false ∧
    csraCore window1 0 = 1 ∧
    csraOff window1 0 = 4212 :=
  by decide +kernel

theorem witness_ClusterControl_4 :
    siteOf windowBad 1 = some 1 ∧
    clusterOf 1 = 0 ∧
    (getCore windowBad 1).held = false ∧
    (getCl windowBad 0).power ≠ PState.off ∧
    dark windowBad = false ∧
    csraCore windowBad 0 = 1 ∧
    40960 ≤ csraOff windowBad 0 :=
  by decide +kernel

theorem witness_RegisterWrites_1 :
    dark base = false ∧
    siteOf base 1 = some 1 ∧
    (getCore base 1).held = false :=
  by decide +kernel

theorem witness_RegisterWrites_2 :
    dark hostUp = false ∧
    4092 % 4 = 0 ∧
    262140 % 4 = 0 ∧
    4096 ≤ 262140 :=
  by decide +kernel

theorem witness_KeyStorage :
    getPipe lostKey 31 = some headXts ∧
    4 ≤ headXts.units ∧
    headXts.checked = false ∧
    fieldsOk headXts = true ∧
    (getKey lostKey (envKslot headXts)).st = KeySt.active ∧
    BitVec.toNat (getKey lostKey (envKslot headXts)).typ = envMode headXts ∧
    tget lostDefault lostKey.so.sealing.lost (envKslot headXts) = true ∧
    cachedKey lostKey (envKslot headXts) = none ∧
    (getKey lostKey 8191).st = KeySt.active ∧
    BitVec.toNat (getKey lostKey 8191).typ = 2 :=
  by decide +kernel

/-! ### The mailbox -/

/-- The state before the doorbell of the pigeonhole. -/
def rung (s : State) : State := withSo s fun o => { o with busy := [] }
def ask (cmd len : Nat) (payload : List Byte) : State := hole base 63 cmd len payload
def noRoom : State := rung (ask 0x01 8 [])
def unready : State := withSo noRoom fun o => { o with ready := false }
def unknownCmd : State := rung (ask 0x7F 0 [])
def closedSession : State := withSo (rung (ask 0x30 24 [])) fun o => { o with open_ := false }
def reducedMode : State := let s := rung (ask 0x30 24 []); { s with mod := { s.mod with service := 1 } }
def shortKey : State := rung (ask 0x21 7 [])
def loadKind (k : Nat) : State := ask 0x10 24 (leBytes 2 k ++ List.replicate 14 0 ++ leBytes 8 3)
def img9 (n : Byte) : Image := ⟨9, 9, [n]⟩
/-- LOAD_FIRMWARE of three bytes of shared SRAM, or of no known source. -/
def loadFrom (src : Byte) : State :=
  devs (ask 0x10 24 ([1, src] ++ List.replicate 6 0 ++ leBytes 8 0x0005200000000040 ++ leBytes 8 3)) [(0x70000, 5)]
def activate (k : Byte) : State :=
  let s := withSo (ask 0x11 8 [k]) fun o => { o with staged := [(k.toNat, some ⟨1, 2, [3]⟩)] }
  { s with flash := { s.flash with slots := [(0, some (img9 1)), (1, some (img9 2))] } }
def keyImport (slot n : Nat) : State := ask 0x20 (8 + n) (leBytes 2 slot ++ leBytes 2 n ++ leBytes 4 0 ++ [1, 2, 3])
def keyRetire : State :=
  withSeal (ask 0x21 8 (leBytes 2 8191)) fun b => { b with ks := [(8191, ⟨.active, 1, [], [], []⟩)] }
def lpWaits0 : So → So := fun o => { o with tests := [(0, ⟨5, 0, 0, false⟩)] }
def modelLoad (tier : Byte) : State := ask 0x30 24 (leBytes 4 77 ++ [0, tier, 0, 0] ++ leBytes 8 0 ++ leBytes 8 3)
def lpWaits : State := withSo (modelLoad 1) lpWaits0
def model77 : Model := ⟨77, [1], ⟨2, 0, 64⟩⟩
def loaded (s : State) : State := withSo s fun o => { o with models := [model77], regions := [⟨2, 0, 64⟩] }
def evict : State := ask 0x31 8 (leBytes 4 77)
/-- A plan of `m` models (the ids as given) and one stage on core 0. -/
def planImg (ids : List Byte) : List Byte :=
  [0x46, 0x56, 0x32, 0x50] ++ leBytes 2 1 ++ [0, 0] ++ leBytes 2 0 ++ leBytes 2 1 ++ leBytes 2 (ids.length / 4) ++
    leBytes 2 0 ++ List.replicate 48 0 ++ ids ++ leBytes 2 0 ++ leBytes 2 1 ++ [0, 0xFF, 0, 0] ++ leBytes 4 0 ++
    leBytes 4 0 ++ leBytes 4 0x1000 ++ leBytes 4 0 ++ leBytes 2 0 ++ List.replicate 6 0
def inPlan (s : State) : State := withSo (loaded s) fun o => { o with plans := [⟨1, planImg (leBytes 4 77), []⟩] }
def planDefine (n : Nat) : State := ask 0x40 24 (leBytes 4 9 ++ leBytes 4 0 ++ leBytes 8 0 ++ leBytes 4 n)
def planned (s : State) : State := withSo s fun o => { o with plans := [⟨8, [], []⟩, ⟨9, planImg [], [1]⟩] }
def descs : List Byte := List.replicate 16 7 ++ leBytes 4 9 ++ leBytes 4 0 ++ leBytes 8 128
def bundle (n : Nat) : State := planned (ask 0x41 16 (leBytes 8 0 ++ leBytes 4 n))
def parcel3 : Parcel :=
  { uid := 3, bundle := 4, entry := 2, plan := 9, buf := ⟨2, 0, 128⟩, st := .pending, code := 0, stage := 0, sent := false,
    cfg := [], weights := [], dbg := false, tevent := false, records := [], lastSealed := false }
def parcel5 : Parcel := { parcel3 with uid := 5 }
def status (cancel : Byte) (first count : Nat) (l : List Parcel) : State :=
  withSeal (withSo (ask 0x42 8 (leBytes 2 4 ++ leBytes 2 first ++ leBytes 2 count ++ [cancel])) fun o =>
      { o with parcels := l, regions := [⟨2, 0, 128⟩] }) fun b =>
    { b with pt := [(2, { PEntry.reset with st := .pending })] }
def drain (m : Byte) : State := ask 0x50 8 [m]
def drainBusy : State := withSo (drain 1) fun o => { o with active := [(0, 7)] }
def draining0 : State :=
  modCl (withSo base fun o => { o with active := [(0, 7)] }) 0 fun c => { c with service := .draining }
/-- Two cores a cluster; those of cluster 0 in its sites 0 and 1, with a spare in site 2. -/
def return0 : State :=
  modCl
    { ask 0x51 8 [1] with
      siteState := [(0, .enabled), (1, .enabled), (2, .spare)], coreSite := [(0, some 0), (1, some 1)] }
    0 fun c => { c with service := .drained }
def swap1 : State := withSo return0 fun o => { o with marks := [(1, false)] }
def holed : State := withSo return0 fun o => { o with marks := [(1, true)] }
def oppoint (m p ctl : Byte) : State :=
  modCl (ask 0x52 8 [m, p, ctl]) 1 fun c => { c with ceil := 2, run := 3, eff := 3, req := 3 }
def hbmRetire (k : Byte) (c : Word) : State := devs (ask 0x58 8 [k]) [(0x40000, c)]
def portTrain (m : Byte) (v st : Nat) : State :=
  portAt (hole linkUp 63 0x60 8 ([3, m] ++ leBytes 2 0 ++ leBytes 4 v)) 3 st id
def portRetire (k : Byte) (st : Nat) : State := setPortState (ask 0x61 8 [k]) 15 st

theorem witness_Doorbells_1 :
    dark base = false ∧
    (0 = 0 ∨ holeBusy base 0 = true ∨ base.so.ready = false) :=
  by decide +kernel

theorem witness_Doorbells_2 :
    dark (ask 1 8 []) = false ∧
    (63 = 0 ∨ holeBusy (ask 1 8 []) 63 = true ∨ (ask 1 8 []).so.ready = false) :=
  by decide +kernel

theorem witness_Doorbells_3 :
    dark unready = false ∧
    (63 = 0 ∨ holeBusy unready 63 = true ∨ unready.so.ready = false) :=
  by decide +kernel

theorem witness_Doorbells_4 :
    dark noRoom = false ∧
    holeBusy noRoom 63 = false ∧
    noRoom.so.ready = true ∧
    refusal noRoom 63 = none :=
  by decide +kernel

theorem witness_Doorbells_5 :
    dark unknownCmd = false ∧
    holeBusy unknownCmd 63 = false ∧
    unknownCmd.so.ready = true ∧
    refusal unknownCmd 63 = some (16, 0) ∧
    cmdLen unknownCmd 63 (holeCmd unknownCmd 63) = none :=
  by decide +kernel

theorem witness_Doorbells_6 :
    dark closedSession = false ∧
    holeBusy closedSession 63 = false ∧
    closedSession.so.ready = true ∧
    refusal closedSession 63 = some (20, 0) ∧
    cmdLen closedSession 63 (holeCmd closedSession 63) = some 24 ∧
    holeFlags closedSession 63 < 2 ∧
    allZero (memBytes closedSession.mbx (holeBase 63 + 28) 36) = true ∧
    closedSession.so.open_ = false ∧
    holeCmd closedSession 63 ≠ 1 ∧
    holeCmd closedSession 63 ≠ 2 :=
  by decide +kernel

theorem witness_Doorbells_7 :
    dark reducedMode = false ∧
    holeBusy reducedMode 63 = false ∧
    reducedMode.so.ready = true ∧
    refusal reducedMode 63 = some (19, 0) ∧
    cmdLen reducedMode 63 (holeCmd reducedMode 63) = some 24 ∧
    holeFlags reducedMode 63 < 2 ∧
    allZero (memBytes reducedMode.mbx (holeBase 63 + 28) 36) = true ∧
    reducedMode.so.open_ = true ∧
    isReduced reducedMode = true ∧
    cmdReduced (holeCmd reducedMode 63) = false :=
  by decide +kernel

theorem witness_Doorbells_8 :
    dark shortKey = false ∧
    holeBusy shortKey 63 = false ∧
    shortKey.so.ready = true ∧
    refusal shortKey 63 = some (17, 8) ∧
    cmdLen shortKey 63 (holeCmd shortKey 63) = some 8 ∧
    holeFlags shortKey 63 < 2 ∧
    allZero (memBytes shortKey.mbx (holeBase 63 + 28) 36) = true ∧
    shortKey.so.open_ = true ∧
    isReduced shortKey = false ∧
    holeLen shortKey 63 ≠ 8 :=
  by decide +kernel

theorem witness_Sessions_1 :
    NothingDue (ask 1 8 []) ∧
    mayStart (ask 1 8 []) 63 1 = true :=
  ⟨⟨by decide +kernel, by decide +kernel, by decide +kernel, by decide +kernel, by decide +kernel,
    by decide +kernel, by decide +kernel⟩, by decide +kernel⟩

theorem witness_Sessions_2 :
    NothingDue (ask 2 8 []) ∧
    mayStart (ask 2 8 []) 63 2 = true :=
  ⟨⟨by decide +kernel, by decide +kernel, by decide +kernel, by decide +kernel, by decide +kernel,
    by decide +kernel, by decide +kernel⟩, by decide +kernel⟩

theorem witness_Sessions_3 :
    NothingDue (ask 3 48 []) ∧
    mayStart (ask 3 48 []) 63 3 = true :=
  ⟨⟨by decide +kernel, by decide +kernel, by decide +kernel, by decide +kernel, by decide +kernel,
    by decide +kernel, by decide +kernel⟩, by decide +kernel⟩

theorem witness_FirmwareImages_1 :
    NothingDue (loadKind 0) ∧
    mayStart (loadKind 0) 63 16 = true ∧
    (holeArg (loadKind 0) 63 0 1 = 0 ∨ 3 < holeArg (loadKind 0) 63 0 1) :=
  ⟨⟨by decide +kernel, by decide +kernel, by decide +kernel, by decide +kernel, by decide +kernel,
    by decide +kernel, by decide +kernel⟩, by decide +kernel⟩

theorem witness_FirmwareImages_2 :
    NothingDue (loadKind 4) ∧
    mayStart (loadKind 4) 63 16 = true ∧
    (holeArg (loadKind 4) 63 0 1 = 0 ∨ 3 < holeArg (loadKind 4) 63 0 1) :=
  ⟨⟨by decide +kernel, by decide +kernel, by decide +kernel, by decide +kernel, by decide +kernel,
    by decide +kernel, by decide +kernel⟩, by decide +kernel⟩

theorem witness_FirmwareImages_3 :
    NothingDue (loadKind 1) ∧
    mayStart (loadKind 1) 63 16 = true ∧
    1 ≤ holeArg (loadKind 1) 63 0 1 ∧
    holeArg (loadKind 1) 63 0 1 ≤ 3 ∧
    holeArg (loadKind 1) 63 1 1 = 0 ∧
    hostRead (HostData.bytes [1, 2, 3]) (holeArg (loadKind 1) 63 16 8) = Except.ok [1, 2, 3] :=
  ⟨⟨by decide +kernel, by decide +kernel, by decide +kernel, by decide +kernel, by decide +kernel,
    by decide +kernel, by decide +kernel⟩, join4 (by decide +kernel) (okIs_eq (by decide +kernel))⟩

theorem witness_FirmwareImages_4 :
    NothingDue (loadKind 3) ∧
    mayStart (loadKind 3) 63 16 = true ∧
    1 ≤ holeArg (loadKind 3) 63 0 1 ∧
    holeArg (loadKind 3) 63 0 1 ≤ 3 ∧
    holeArg (loadKind 3) 63 1 1 = 0 ∧
    hostRead (HostData.failed 2) (holeArg (loadKind 3) 63 16 8) = Except.error 2 :=
  ⟨⟨by decide +kernel, by decide +kernel, by decide +kernel, by decide +kernel, by decide +kernel,
    by decide +kernel, by decide +kernel⟩, join4 (by decide +kernel) (errIs_eq (by decide +kernel))⟩

theorem witness_FirmwareImages_5 :
    NothingDue (loadFrom 1) ∧
    mayStart (loadFrom 1) 63 16 = true ∧
    1 ≤ holeArg (loadFrom 1) 63 0 1 ∧
    holeArg (loadFrom 1) 63 0 1 ≤ 3 ∧
    holeArg (loadFrom 1) 63 1 1 = 1 ∧
    globalOf (holeArg (loadFrom 1) 63 8 8) = { space := 2, dev := fabDev (loadFrom 1), off := 64 } ∧
    64 + holeArg (loadFrom 1) 63 16 8 ≤ 805306368 ∧
    Clean (loadFrom 1).sram 64 (holeArg (loadFrom 1) 63 16 8) :=
  ⟨⟨by decide +kernel, by decide +kernel, by decide +kernel, by decide +kernel, by decide +kernel,
    by decide +kernel, by decide +kernel⟩,
    join4 (by decide +kernel) (join2 (by decide +kernel) (by unfold Clean; decide +kernel))⟩

theorem witness_FirmwareImages_6 :
    NothingDue (loadFrom 2) ∧
    mayStart (loadFrom 2) 63 16 = true ∧
    1 ≤ holeArg (loadFrom 2) 63 0 1 ∧
    holeArg (loadFrom 2) 63 0 1 ≤ 3 ∧
    2 ≤ holeArg (loadFrom 2) 63 1 1 :=
  ⟨⟨by decide +kernel, by decide +kernel, by decide +kernel, by decide +kernel, by decide +kernel,
    by decide +kernel, by decide +kernel⟩, by decide +kernel⟩

theorem witness_FirmwareImages_7 :
    NothingDue (ask 17 8 [3]) ∧
    mayStart (ask 17 8 [3]) 63 17 = true ∧
    1 ≤ holeArg (ask 17 8 [3]) 63 0 1 ∧
    holeArg (ask 17 8 [3]) 63 0 1 ≤ 3 ∧
    stagedImage (ask 17 8 [3]) (holeArg (ask 17 8 [3]) 63 0 1) = none :=
  ⟨⟨by decide +kernel, by decide +kernel, by decide +kernel, by decide +kernel, by decide +kernel,
    by decide +kernel, by decide +kernel⟩, by decide +kernel⟩

theorem witness_FirmwareImages_8 :
    NothingDue (activate 1) ∧
    mayStart (activate 1) 63 17 = true ∧
    1 ≤ holeArg (activate 1) 63 0 1 ∧
    holeArg (activate 1) 63 0 1 ≤ 3 ∧
    stagedImage (activate 1) (holeArg (activate 1) 63 0 1) = some { version := 1, svn := 2, digest := [3] } ∧
    holeArg (activate 1) 63 0 1 = 1 :=
  ⟨⟨by decide +kernel, by decide +kernel, by decide +kernel, by decide +kernel, by decide +kernel,
    by decide +kernel, by decide +kernel⟩, by decide +kernel⟩

theorem witness_FirmwareImages_9 :
    NothingDue (activate 2) ∧
    mayStart (activate 2) 63 17 = true ∧
    1 ≤ holeArg (activate 2) 63 0 1 ∧
    holeArg (activate 2) 63 0 1 ≤ 3 ∧
    stagedImage (activate 2) (holeArg (activate 2) 63 0 1) = some { version := 1, svn := 2, digest := [3] } ∧
    holeArg (activate 2) 63 0 1 = 2 :=
  ⟨⟨by decide +kernel, by decide +kernel, by decide +kernel, by decide +kernel, by decide +kernel,
    by decide +kernel, by decide +kernel⟩, by decide +kernel⟩

theorem witness_FirmwareImages_10 :
    NothingDue (activate 3) ∧
    mayStart (activate 3) 63 17 = true ∧
    1 ≤ holeArg (activate 3) 63 0 1 ∧
    holeArg (activate 3) 63 0 1 ≤ 3 ∧
    stagedImage (activate 3) (holeArg (activate 3) 63 0 1) = some { version := 1, svn := 2, digest := [3] } ∧
    holeArg (activate 3) 63 0 1 = 3 :=
  ⟨⟨by decide +kernel, by decide +kernel, by decide +kernel, by decide +kernel, by decide +kernel,
    by decide +kernel, by decide +kernel⟩, by decide +kernel⟩

theorem witness_KeyCommands_1 :
    NothingDue (keyImport 8192 3) ∧
    mayStart (keyImport 8192 3) 63 32 = true ∧
    8192 ≤ holeArg (keyImport 8192 3) 63 0 2 :=
  ⟨⟨by decide +kernel, by decide +kernel, by decide +kernel, by decide +kernel, by decide +kernel,
    by decide +kernel, by decide +kernel⟩, by decide +kernel⟩

theorem witness_KeyCommands_2 :
    NothingDue (keyImport 8191 4024) ∧
    mayStart (keyImport 8191 4024) 63 32 = true ∧
    holeArg (keyImport 8191 4024) 63 0 2 < 8192 ∧
    holeArg (keyImport 8191 4024) 63 2 2 ≤ 4024 :=
  ⟨⟨by decide +kernel, by decide +kernel, by decide +kernel, by decide +kernel, by decide +kernel,
    by decide +kernel, by decide +kernel⟩, by decide +kernel⟩

theorem witness_KeyCommands_3 :
    NothingDue keyRetire ∧
    mayStart keyRetire 63 33 = true ∧
    holeArg keyRetire 63 0 2 < 8192 ∧
    (getKey keyRetire (holeArg keyRetire 63 0 2)).st ≠ KeySt.empty :=
  ⟨⟨by decide +kernel, by decide +kernel, by decide +kernel, by decide +kernel, by decide +kernel,
    by decide +kernel, by decide +kernel⟩, by decide +kernel⟩

theorem witness_Models_1 :
    NothingDue (modelLoad 3) ∧
    mayStart (modelLoad 3) 63 48 = true ∧
    (lpHolds (modelLoad 3) = false ∨ holeArg (modelLoad 3) 63 5 1 ≠ 1) ∧
    2 < holeArg (modelLoad 3) 63 5 1 :=
  ⟨⟨by decide +kernel, by decide +kernel, by decide +kernel, by decide +kernel, by decide +kernel,
    by decide +kernel, by decide +kernel⟩, by decide +kernel⟩

theorem witness_Models_2 :
    NothingDue (loaded (modelLoad 2)) ∧
    mayStart (loaded (modelLoad 2)) 63 48 = true ∧
    (lpHolds (loaded (modelLoad 2)) = false ∨ holeArg (loaded (modelLoad 2)) 63 5 1 ≠ 1) ∧
    holeArg (loaded (modelLoad 2)) 63 5 1 ≤ 2 ∧
    (∃ m, m ∈ (loaded (modelLoad 2)).so.models ∧ m.id = BitVec.ofNat 32 (holeArg (loaded (modelLoad 2)) 63 0 4)) :=
  ⟨⟨by decide +kernel, by decide +kernel, by decide +kernel, by decide +kernel, by decide +kernel,
    by decide +kernel, by decide +kernel⟩, by decide +kernel⟩

theorem witness_Models_3 :
    NothingDue (modelLoad 2) ∧
    mayStart (modelLoad 2) 63 48 = true ∧
    (lpHolds (modelLoad 2) = false ∨ holeArg (modelLoad 2) 63 5 1 ≠ 1) ∧
    holeArg (modelLoad 2) 63 5 1 ≤ 2 ∧
    (∀ (m : Model), m ∈ (modelLoad 2).so.models → m.id ≠ BitVec.ofNat 32 (holeArg (modelLoad 2) 63 0 4)) ∧
    holeArg (modelLoad 2) 63 4 1 = 0 ∧
    hostRead (HostData.bytes [1, 2, 3]) (holeArg (modelLoad 2) 63 16 8) = Except.ok [1, 2, 3] ∧
    (modelLoad 2).so.regions = [] ∧
    CleanCaches (modelLoad 2) ∧
    [1, 2, 3].length ≤ 805306304 ∧
    (holeArg (modelLoad 2) 63 5 1 = 1 → lpAvail (modelLoad 2) = true) :=
  ⟨⟨by decide +kernel, by decide +kernel, by decide +kernel, by decide +kernel, by decide +kernel,
    by decide +kernel, by decide +kernel⟩, join5 (by decide +kernel) ⟨okIs_eq (by decide +kernel),
    by decide +kernel, by unfold CleanCaches; decide +kernel, by decide +kernel⟩⟩

theorem witness_Models_4 :
    NothingDue (devs (modelLoad 1) [(327680, 2147483648)]) ∧
    mayStart (devs (modelLoad 1) [(327680, 2147483648)]) 63 48 = true ∧
    (lpHolds (devs (modelLoad 1) [(327680, 2147483648)]) = false ∨
      holeArg (devs (modelLoad 1) [(327680, 2147483648)]) 63 5 1 ≠ 1) ∧
    holeArg (devs (modelLoad 1) [(327680, 2147483648)]) 63 5 1 ≤ 2 ∧
    (∀ (m : Model),
      m ∈ (devs (modelLoad 1) [(327680, 2147483648)]).so.models →
        m.id ≠ BitVec.ofNat 32 (holeArg (devs (modelLoad 1) [(327680, 2147483648)]) 63 0 4)) ∧
    holeArg (devs (modelLoad 1) [(327680, 2147483648)]) 63 4 1 = 0 ∧
    hostRead (HostData.bytes [1, 2, 3]) (holeArg (devs (modelLoad 1) [(327680, 2147483648)]) 63 16 8) =
      Except.ok [1, 2, 3] ∧
    (devs (modelLoad 1) [(327680, 2147483648)]).so.regions = [] ∧
    CleanCaches (devs (modelLoad 1) [(327680, 2147483648)]) ∧
    [1, 2, 3].length ≤ 805306304 ∧
    (holeArg (devs (modelLoad 1) [(327680, 2147483648)]) 63 5 1 = 1 →
      lpAvail (devs (modelLoad 1) [(327680, 2147483648)]) = true) :=
  ⟨⟨by decide +kernel, by decide +kernel, by decide +kernel, by decide +kernel, by decide +kernel,
    by decide +kernel, by decide +kernel⟩, join5 (by decide +kernel) ⟨okIs_eq (by decide +kernel),
    by decide +kernel, by unfold CleanCaches; decide +kernel, by decide +kernel⟩⟩

theorem witness_Models_5 :
    NothingDue lpWaits ∧
    holeArg lpWaits 63 5 1 = 1 ∧
    lpHolds lpWaits = true :=
  ⟨⟨by decide +kernel, by decide +kernel, by decide +kernel, by decide +kernel, by decide +kernel,
    by decide +kernel, by decide +kernel⟩, by decide +kernel⟩

theorem witness_Models_6 :
    NothingDue evict ∧
    mayStart evict 63 49 = true ∧
    (∀ (m : Model), m ∈ evict.so.models → m.id ≠ BitVec.ofNat 32 (holeArg evict 63 0 4)) :=
  ⟨⟨by decide +kernel, by decide +kernel, by decide +kernel, by decide +kernel, by decide +kernel,
    by decide +kernel, by decide +kernel⟩, by decide +kernel⟩

theorem witness_Models_7 :
    NothingDue (inPlan evict) ∧
    mayStart (inPlan evict) 63 49 = true ∧
    List.find? (fun m => m.id == BitVec.ofNat 32 (holeArg (inPlan evict) 63 0 4)) (inPlan evict).so.models =
      some model77 ∧
    (∃ p, p ∈ (inPlan evict).so.plans ∧ planUses p (BitVec.ofNat 32 (holeArg (inPlan evict) 63 0 4)) = true) :=
  ⟨⟨by decide +kernel, by decide +kernel, by decide +kernel, by decide +kernel, by decide +kernel,
    by decide +kernel, by decide +kernel⟩, by decide +kernel⟩

theorem witness_Models_8 :
    NothingDue (loaded evict) ∧
    mayStart (loaded evict) 63 49 = true ∧
    List.find? (fun m => m.id == BitVec.ofNat 32 (holeArg (loaded evict) 63 0 4)) (loaded evict).so.models =
      some model77 ∧
    (∀ (p : Plan),
      p ∈ (loaded evict).so.plans → planUses p (BitVec.ofNat 32 (holeArg (loaded evict) 63 0 4)) = false) :=
  ⟨⟨by decide +kernel, by decide +kernel, by decide +kernel, by decide +kernel, by decide +kernel,
    by decide +kernel, by decide +kernel⟩, by decide +kernel⟩

theorem witness_Plans_1 :
    NothingDue (planDefine 0) ∧
    mayStart (planDefine 0) 63 64 = true ∧
    planOf (planDefine 0) (BitVec.ofNat 32 (holeArg (planDefine 0) 63 0 4)) = none ∧
    holeArg (planDefine 0) 63 16 4 = 0 :=
  ⟨⟨by decide +kernel, by decide +kernel, by decide +kernel, by decide +kernel, by decide +kernel,
    by decide +kernel, by decide +kernel⟩, by decide +kernel⟩

theorem witness_Plans_2 :
    NothingDue (planDefine 96) ∧
    mayStart (planDefine 96) 63 64 = true ∧
    planOf (planDefine 96) (BitVec.ofNat 32 (holeArg (planDefine 96) 63 0 4)) = none ∧
    holeArg (planDefine 96) 63 16 4 ≠ 0 ∧
    holeArg (planDefine 96) 63 4 1 = 0 ∧
    hostRead (HostData.bytes (planImg [])) (holeArg (planDefine 96) 63 16 4) = Except.ok (planImg []) ∧
    planFault (planDefine 96) (planImg []) = none :=
  ⟨⟨by decide +kernel, by decide +kernel, by decide +kernel, by decide +kernel, by decide +kernel,
    by decide +kernel, by decide +kernel⟩, join4 (by decide +kernel) ⟨okIs_eq (by decide +kernel),
    by decide +kernel⟩⟩

theorem witness_Plans_3 :
    NothingDue (planDefine 3) ∧
    mayStart (planDefine 3) 63 64 = true ∧
    planOf (planDefine 3) (BitVec.ofNat 32 (holeArg (planDefine 3) 63 0 4)) = none ∧
    holeArg (planDefine 3) 63 16 4 ≠ 0 ∧
    holeArg (planDefine 3) 63 4 1 = 0 ∧
    hostRead (HostData.bytes [1, 2, 3]) (holeArg (planDefine 3) 63 16 4) = Except.ok [1, 2, 3] ∧
    planFault (planDefine 3) [1, 2, 3] = some 0 :=
  ⟨⟨by decide +kernel, by decide +kernel, by decide +kernel, by decide +kernel, by decide +kernel,
    by decide +kernel, by decide +kernel⟩, join4 (by decide +kernel) ⟨okIs_eq (by decide +kernel),
    by decide +kernel⟩⟩

theorem witness_Plans_4 :
    NothingDue (planned (planDefine 1)) ∧
    mayStart (planned (planDefine 1)) 63 64 = true ∧
    planOf (planned (planDefine 1)) (BitVec.ofNat 32 (holeArg (planned (planDefine 1)) 63 0 4)) ≠ none ∧
    holeArg (planned (planDefine 1)) 63 16 4 ≠ 0 :=
  ⟨⟨by decide +kernel, by decide +kernel, by decide +kernel, by decide +kernel, by decide +kernel,
    by decide +kernel, by decide +kernel⟩, by decide +kernel⟩

theorem witness_Plans_5 :
    NothingDue (planned (planDefine 0)) ∧
    mayStart (planned (planDefine 0)) 63 64 = true ∧
    planOf (planned (planDefine 0)) (BitVec.ofNat 32 (holeArg (planned (planDefine 0)) 63 0 4)) ≠ none ∧
    holeArg (planned (planDefine 0)) 63 16 4 = 0 ∧
    (∀ (p : Parcel),
      p ∈ (planned (planDefine 0)).so.parcels →
        p.plan = BitVec.ofNat 32 (holeArg (planned (planDefine 0)) 63 0 4) → isFinal p.st = true) :=
  ⟨⟨by decide +kernel, by decide +kernel, by decide +kernel, by decide +kernel, by decide +kernel,
    by decide +kernel, by decide +kernel⟩, by decide +kernel⟩

theorem witness_Bundles_1 :
    NothingDue (bundle 0) ∧
    mayStart (bundle 0) 63 65 = true ∧
    (holeArg (bundle 0) 63 8 4 = 0 ∨ 4096 < holeArg (bundle 0) 63 8 4) :=
  ⟨⟨by decide +kernel, by decide +kernel, by decide +kernel, by decide +kernel, by decide +kernel,
    by decide +kernel, by decide +kernel⟩, by decide +kernel⟩

theorem witness_Bundles_2 :
    NothingDue (bundle 4097) ∧
    mayStart (bundle 4097) 63 65 = true ∧
    (holeArg (bundle 4097) 63 8 4 = 0 ∨ 4096 < holeArg (bundle 4097) 63 8 4) :=
  ⟨⟨by decide +kernel, by decide +kernel, by decide +kernel, by decide +kernel, by decide +kernel,
    by decide +kernel, by decide +kernel⟩, by decide +kernel⟩

theorem witness_Bundles_3 :
    NothingDue (bundle 1) ∧
    mayStart (bundle 1) 63 65 = true ∧
    holeArg (bundle 1) 63 8 4 = 1 ∧
    hostRead (HostData.bytes descs) 32 = Except.ok descs ∧
    descFault (bundle 1) descs 0 = none ∧
    freeEntries (bundle 1) = 0 :: upFrom 1 8191 ∧
    (bundle 1).so.regions = [] :=
  ⟨⟨by decide +kernel, by decide +kernel, by decide +kernel, by decide +kernel, by decide +kernel,
    by decide +kernel, by decide +kernel⟩, join2 (by decide +kernel) ⟨okIs_eq (by decide +kernel),
    by decide +kernel,
    (List.filter_eq_self.mpr (fun e _ => (by simp only [ptGet]; rw [show (bundle 1).so.sealing.pt = [] from rfl]; rfl))),
    by decide +kernel⟩⟩

theorem witness_Bundles_4 :
    NothingDue (status 1 0 1 []) ∧
    mayStart (status 1 0 1 []) 63 66 = true ∧
    1 ≤ holeArg (status 1 0 1 []) 63 4 2 ∧
    holeArg (status 1 0 1 []) 63 4 2 ≤ 2016 ∧
    holeArg (status 1 0 1 []) 63 6 1 < 2 ∧
    bundleOf (status 1 0 1 []) (BitVec.ofNat 16 (holeArg (status 1 0 1 []) 63 0 2)) = [] :=
  ⟨⟨by decide +kernel, by decide +kernel, by decide +kernel, by decide +kernel, by decide +kernel,
    by decide +kernel, by decide +kernel⟩, by decide +kernel⟩

theorem witness_Bundles_5 :
    NothingDue (status 0 0 2016 []) ∧
    mayStart (status 0 0 2016 []) 63 66 = true ∧
    1 ≤ holeArg (status 0 0 2016 []) 63 4 2 ∧
    holeArg (status 0 0 2016 []) 63 4 2 ≤ 2016 ∧
    holeArg (status 0 0 2016 []) 63 6 1 < 2 ∧
    bundleOf (status 0 0 2016 []) (BitVec.ofNat 16 (holeArg (status 0 0 2016 []) 63 0 2)) = [] :=
  ⟨⟨by decide +kernel, by decide +kernel, by decide +kernel, by decide +kernel, by decide +kernel,
    by decide +kernel, by decide +kernel⟩, by decide +kernel⟩

theorem witness_Bundles_6 :
    NothingDue (status 0 0 2 [parcel3, parcel5]) ∧
    mayStart (status 0 0 2 [parcel3, parcel5]) 63 66 = true ∧
    1 ≤ holeArg (status 0 0 2 [parcel3, parcel5]) 63 4 2 ∧
    holeArg (status 0 0 2 [parcel3, parcel5]) 63 4 2 ≤ 2016 ∧
    holeArg (status 0 0 2 [parcel3, parcel5]) 63 6 1 = 0 ∧
    holeArg (status 0 0 2 [parcel3, parcel5]) 63 2 2 = 0 ∧
    (bundleOf (status 0 0 2 [parcel3, parcel5])
          (BitVec.ofNat 16 (holeArg (status 0 0 2 [parcel3, parcel5]) 63 0 2))).length =
      holeArg (status 0 0 2 [parcel3, parcel5]) 63 4 2 :=
  ⟨⟨by decide +kernel, by decide +kernel, by decide +kernel, by decide +kernel, by decide +kernel,
    by decide +kernel, by decide +kernel⟩, by decide +kernel⟩

theorem witness_Bundles_7 :
    NothingDue (status 1 0 1 [parcel3]) ∧
    mayStart (status 1 0 1 [parcel3]) 63 66 = true ∧
    1 ≤ holeArg (status 1 0 1 [parcel3]) 63 4 2 ∧
    holeArg (status 1 0 1 [parcel3]) 63 4 2 ≤ 2016 ∧
    holeArg (status 1 0 1 [parcel3]) 63 6 1 = 1 ∧
    (status 1 0 1 [parcel3]).so.parcels = [parcel3] ∧
    parcel3.bundle = BitVec.ofNat 16 (holeArg (status 1 0 1 [parcel3]) 63 0 2) ∧
    parcel3.st = ParcelSt.pending ∧
    holeArg (status 1 0 1 [parcel3]) 63 2 2 = 0 ∧
    holeArg (status 1 0 1 [parcel3]) 63 4 2 = 1 :=
  ⟨⟨by decide +kernel, by decide +kernel, by decide +kernel, by decide +kernel, by decide +kernel,
    by decide +kernel, by decide +kernel⟩, by decide +kernel⟩

theorem witness_DrainAndReturn_1 :
    NothingDue (drain 129) ∧
    mayStart (drain 129) 63 80 = true ∧
    (∀ (d : Fin 8),
      (BitVec.ofNat 8 (holeArg (drain 129) 63 0 1)).getLsbD ↑d = true →
        (getCl (drain 129) d).service = Service.inService) ∧
    (drain 129).so.active = [] ∧
    settleSo (drain 129) = drain 129 ∧
    (getCl (drain 129) 7).service ≠ Service.draining :=
  ⟨⟨by decide +kernel, by decide +kernel, by decide +kernel, by decide +kernel, by decide +kernel,
    by decide +kernel, by decide +kernel⟩, by decide +kernel⟩

theorem witness_DrainAndReturn_2 :
    NothingDue drainBusy ∧
    mayStart drainBusy 63 80 = true ∧
    (∀ (d : Fin 8),
      (BitVec.ofNat 8 (holeArg drainBusy 63 0 1)).getLsbD ↑d = true →
        (getCl drainBusy d).service = Service.inService) ∧
    (∀ (d : Fin 8), (BitVec.ofNat 8 (holeArg drainBusy 63 0 1)).getLsbD ↑d = true → clusterBusy drainBusy d = true) ∧
    BitVec.ofNat 8 (holeArg drainBusy 63 0 1) ≠ 0 ∧
    settleSo drainBusy = drainBusy ∧
    (getCl drainBusy 0).service ≠ Service.draining :=
  ⟨⟨by decide +kernel, by decide +kernel, by decide +kernel, by decide +kernel, by decide +kernel,
    by decide +kernel, by decide +kernel⟩, by decide +kernel⟩

theorem witness_DrainAndReturn_3 :
    settleSo draining0 = draining0 ∧
    (getCl draining0 0).service = Service.draining :=
  by decide +kernel

theorem witness_DrainAndReturn_4 :
    settleSo return0 = return0 ∧
    (getCl return0 0).service ≠ Service.draining ∧
    NothingDue return0 ∧
    mayStart return0 63 81 = true ∧
    (∀ (d : Fin 8),
      (BitVec.ofNat 8 (holeArg return0 63 0 1)).getLsbD ↑d = true →
        isDrained return0 d = true ∧ return0.perCluster ≤ goodCount return0.siteState d) ∧
    return0.so.marks = [] ∧
    holesOk return0.siteState = true ∧
    (∀ (p : Nat × Option Nat),
      p ∈ return0.coreSite → ∀ (x : Nat), p.snd = some x → siteSt return0.siteState x = SiteState.enabled) :=
  join2 (by decide +kernel) ⟨⟨by decide +kernel, by decide +kernel, by decide +kernel, by decide +kernel,
    by decide +kernel, by decide +kernel, by decide +kernel⟩, by decide +kernel⟩

theorem witness_DrainAndReturn_5 :
    settleSo holed = holed ∧
    (getCl holed 0).service ≠ Service.draining ∧
    NothingDue holed ∧
    mayStart holed 63 81 = true ∧
    BitVec.ofNat 8 (holeArg holed 63 0 1) = ↑(1 <<< 0) ∧
    isDrained holed 0 = true ∧
    holesOk (markedMap holed 0) = false :=
  join2 (by decide +kernel) ⟨⟨by decide +kernel, by decide +kernel, by decide +kernel, by decide +kernel,
    by decide +kernel, by decide +kernel, by decide +kernel⟩, by decide +kernel⟩

theorem witness_DrainAndReturn_6 :
    settleSo swap1 = swap1 ∧
    (getCl swap1 0).service ≠ Service.draining ∧
    NothingDue swap1 ∧
    mayStart swap1 63 81 = true ∧
    BitVec.ofNat 8 (holeArg swap1 63 0 1) = ↑(1 <<< 0) ∧
    isDrained swap1 0 = true ∧
    holesOk (markedMap swap1 0) = true ∧
    swap1.perCluster ≤ goodCount (markedMap swap1 0) 0 ∧
    (1 ∈ List.map (fun x => 0 * swap1.perCluster + x) (List.range swap1.perCluster)) ∧
    siteOf swap1 1 = some 1 ∧
    siteSt (markedMap swap1 0) 1 = SiteState.disabled ∧
    (sitesIn (markedMap swap1 0) 0 SiteState.spare).head? = some 2 ∧
    (∀ (k : Nat),
      k ∈ List.map (fun x => 0 * swap1.perCluster + x) (List.range swap1.perCluster) →
        k ≠ 1 → ∃ z, siteOf swap1 k = some z ∧ siteSt (markedMap swap1 0) z = SiteState.enabled) :=
  join2 (by decide +kernel) ⟨⟨by decide +kernel, by decide +kernel, by decide +kernel, by decide +kernel,
    by decide +kernel, by decide +kernel, by decide +kernel⟩, by decide +kernel⟩

theorem witness_SetOppoint_1 :
    NothingDue (oppoint 3 4 0) ∧
    mayStart (oppoint 3 4 0) 63 82 = true ∧
    3 < holeArg (oppoint 3 4 0) 63 1 1 :=
  ⟨⟨by decide +kernel, by decide +kernel, by decide +kernel, by decide +kernel, by decide +kernel,
    by decide +kernel, by decide +kernel⟩, by decide +kernel⟩

theorem witness_SetOppoint_2 :
    NothingDue (oppoint 3 3 4) ∧
    mayStart (oppoint 3 3 4) 63 82 = true ∧
    holeArg (oppoint 3 3 4) 63 1 1 ≤ 3 ∧
    3 < holeArg (oppoint 3 3 4) 63 2 1 :=
  ⟨⟨by decide +kernel, by decide +kernel, by decide +kernel, by decide +kernel, by decide +kernel,
    by decide +kernel, by decide +kernel⟩, by decide +kernel⟩

theorem witness_SetOppoint_3 :
    NothingDue (oppoint 3 3 0) ∧
    mayStart (oppoint 3 3 0) 63 82 = true ∧
    holeArg (oppoint 3 3 0) 63 1 1 ≤ 3 ∧
    holeArg (oppoint 3 3 0) 63 2 1 = 0 :=
  ⟨⟨by decide +kernel, by decide +kernel, by decide +kernel, by decide +kernel, by decide +kernel,
    by decide +kernel, by decide +kernel⟩, by decide +kernel⟩

theorem witness_SetOppoint_4 :
    NothingDue (oppoint 3 0 1) ∧
    mayStart (oppoint 3 0 1) 63 82 = true ∧
    holeArg (oppoint 3 0 1) 63 1 1 ≤ 3 ∧
    (holeArg (oppoint 3 0 1) 63 2 1 = 1 ∨ holeArg (oppoint 3 0 1) 63 2 1 = 3) ∧
    List.find? (fun c => !isDrained (oppoint 3 0 1) c) allClusters = some 0 :=
  ⟨⟨by decide +kernel, by decide +kernel, by decide +kernel, by decide +kernel, by decide +kernel,
    by decide +kernel, by decide +kernel⟩, by decide +kernel⟩

theorem witness_StacksAndPorts_1 :
    NothingDue (hbmRetire 16 0) ∧
    mayStart (hbmRetire 16 0) 63 88 = true ∧
    15 < holeArg (hbmRetire 16 0) 63 0 1 :=
  ⟨⟨by decide +kernel, by decide +kernel, by decide +kernel, by decide +kernel, by decide +kernel,
    by decide +kernel, by decide +kernel⟩, by decide +kernel⟩

theorem witness_StacksAndPorts_2 :
    NothingDue (hbmRetire 15 0) ∧
    mayStart (hbmRetire 15 0) 63 88 = true ∧
    holeArg (hbmRetire 15 0) 63 0 1 ≤ 15 ∧
    BitVec.extractLsb' 30 2 (devGet (hbmRetire 15 0) 262144) = 0 :=
  ⟨⟨by decide +kernel, by decide +kernel, by decide +kernel, by decide +kernel, by decide +kernel,
    by decide +kernel, by decide +kernel⟩, by decide +kernel⟩

theorem witness_StacksAndPorts_3 :
    NothingDue (hbmRetire 3 2147483652) ∧
    mayStart (hbmRetire 3 2147483652) 63 88 = true ∧
    holeArg (hbmRetire 3 2147483652) 63 0 1 ≤ 15 ∧
    BitVec.extractLsb' 30 2 (devGet (hbmRetire 3 2147483652) 262144) ≠ 0 :=
  ⟨⟨by decide +kernel, by decide +kernel, by decide +kernel, by decide +kernel, by decide +kernel,
    by decide +kernel, by decide +kernel⟩, by decide +kernel⟩

theorem witness_StacksAndPorts_4 :
    NothingDue (portTrain 1 2147483657 0) ∧
    mayStart (portTrain 1 2147483657 0) 63 96 = true ∧
    holeArg (portTrain 1 2147483657 0) 63 0 1 ≤ 15 ∧
    holeArg (portTrain 1 2147483657 0) 63 1 1 ≤ 1 ∧
    ((BitVec.extractLsb' 30 2
            (if BitVec.ofNat 32 (holeArg (portTrain 1 2147483657 0) 63 4 4) = 4294967295 then
              devGet (portTrain 1 2147483657 0) (portBase (holeArg (portTrain 1 2147483657 0) 63 0 1))
            else
              (devReg (portBase (holeArg (portTrain 1 2147483657 0) 63 0 1))).write
                (devGet (portTrain 1 2147483657 0) (portBase (holeArg (portTrain 1 2147483657 0) 63 0 1)))
                (BitVec.ofNat 32 (holeArg (portTrain 1 2147483657 0) 63 4 4)))).toNat =
        1 ∨
      (BitVec.extractLsb' 30 2
            (if BitVec.ofNat 32 (holeArg (portTrain 1 2147483657 0) 63 4 4) = 4294967295 then
              devGet (portTrain 1 2147483657 0) (portBase (holeArg (portTrain 1 2147483657 0) 63 0 1))
            else
              (devReg (portBase (holeArg (portTrain 1 2147483657 0) 63 0 1))).write
                (devGet (portTrain 1 2147483657 0) (portBase (holeArg (portTrain 1 2147483657 0) 63 0 1)))
                (BitVec.ofNat 32 (holeArg (portTrain 1 2147483657 0) 63 4 4)))).toNat =
        2) ∧
    portState (portTrain 1 2147483657 0) (holeArg (portTrain 1 2147483657 0) 63 0 1) ≠ 1 ∧
    portState (portTrain 1 2147483657 0) (holeArg (portTrain 1 2147483657 0) 63 0 1) ≠ 2 ∧
    portState (portTrain 1 2147483657 0) (holeArg (portTrain 1 2147483657 0) 63 0 1) ≠ 3 ∧
    portState (portTrain 1 2147483657 0) (holeArg (portTrain 1 2147483657 0) 63 0 1) ≠ 4 :=
  ⟨⟨by decide +kernel, by decide +kernel, by decide +kernel, by decide +kernel, by decide +kernel,
    by decide +kernel, by decide +kernel⟩, by decide +kernel⟩

theorem witness_StacksAndPorts_5 :
    NothingDue (portTrain 0 4294967295 5) ∧
    mayStart (portTrain 0 4294967295 5) 63 96 = true ∧
    holeArg (portTrain 0 4294967295 5) 63 0 1 ≤ 15 ∧
    holeArg (portTrain 0 4294967295 5) 63 1 1 ≤ 1 ∧
    ((BitVec.extractLsb' 30 2
            (if BitVec.ofNat 32 (holeArg (portTrain 0 4294967295 5) 63 4 4) = 4294967295 then
              devGet (portTrain 0 4294967295 5) (portBase (holeArg (portTrain 0 4294967295 5) 63 0 1))
            else
              (devReg (portBase (holeArg (portTrain 0 4294967295 5) 63 0 1))).write
                (devGet (portTrain 0 4294967295 5) (portBase (holeArg (portTrain 0 4294967295 5) 63 0 1)))
                (BitVec.ofNat 32 (holeArg (portTrain 0 4294967295 5) 63 4 4)))).toNat =
        1 ∨
      (BitVec.extractLsb' 30 2
            (if BitVec.ofNat 32 (holeArg (portTrain 0 4294967295 5) 63 4 4) = 4294967295 then
              devGet (portTrain 0 4294967295 5) (portBase (holeArg (portTrain 0 4294967295 5) 63 0 1))
            else
              (devReg (portBase (holeArg (portTrain 0 4294967295 5) 63 0 1))).write
                (devGet (portTrain 0 4294967295 5) (portBase (holeArg (portTrain 0 4294967295 5) 63 0 1)))
                (BitVec.ofNat 32 (holeArg (portTrain 0 4294967295 5) 63 4 4)))).toNat =
        2) ∧
    portState (portTrain 0 4294967295 5) (holeArg (portTrain 0 4294967295 5) 63 0 1) ≠ 1 ∧
    portState (portTrain 0 4294967295 5) (holeArg (portTrain 0 4294967295 5) 63 0 1) ≠ 2 ∧
    portState (portTrain 0 4294967295 5) (holeArg (portTrain 0 4294967295 5) 63 0 1) ≠ 3 ∧
    portState (portTrain 0 4294967295 5) (holeArg (portTrain 0 4294967295 5) 63 0 1) ≠ 4 :=
  ⟨⟨by decide +kernel, by decide +kernel, by decide +kernel, by decide +kernel, by decide +kernel,
    by decide +kernel, by decide +kernel⟩, by decide +kernel⟩

theorem witness_StacksAndPorts_6 :
    NothingDue (portTrain 0 0 5) ∧
    mayStart (portTrain 0 0 5) 63 96 = true ∧
    holeArg (portTrain 0 0 5) 63 0 1 ≤ 15 ∧
    holeArg (portTrain 0 0 5) 63 1 1 ≤ 1 ∧
    (BitVec.extractLsb' 30 2
          (if BitVec.ofNat 32 (holeArg (portTrain 0 0 5) 63 4 4) = 4294967295 then
            devGet (portTrain 0 0 5) (portBase (holeArg (portTrain 0 0 5) 63 0 1))
          else
            (devReg (portBase (holeArg (portTrain 0 0 5) 63 0 1))).write
              (devGet (portTrain 0 0 5) (portBase (holeArg (portTrain 0 0 5) 63 0 1)))
              (BitVec.ofNat 32 (holeArg (portTrain 0 0 5) 63 4 4)))).toNat ≠
      1 ∧
    (BitVec.extractLsb' 30 2
          (if BitVec.ofNat 32 (holeArg (portTrain 0 0 5) 63 4 4) = 4294967295 then
            devGet (portTrain 0 0 5) (portBase (holeArg (portTrain 0 0 5) 63 0 1))
          else
            (devReg (portBase (holeArg (portTrain 0 0 5) 63 0 1))).write
              (devGet (portTrain 0 0 5) (portBase (holeArg (portTrain 0 0 5) 63 0 1)))
              (BitVec.ofNat 32 (holeArg (portTrain 0 0 5) 63 4 4)))).toNat ≠
      2 :=
  ⟨⟨by decide +kernel, by decide +kernel, by decide +kernel, by decide +kernel, by decide +kernel,
    by decide +kernel, by decide +kernel⟩, by decide +kernel⟩

theorem witness_StacksAndPorts_7 :
    NothingDue (portRetire 16 0) ∧
    mayStart (portRetire 16 0) 63 97 = true ∧
    15 < holeArg (portRetire 16 0) 63 0 1 :=
  ⟨⟨by decide +kernel, by decide +kernel, by decide +kernel, by decide +kernel, by decide +kernel,
    by decide +kernel, by decide +kernel⟩, by decide +kernel⟩

theorem witness_StacksAndPorts_8 :
    NothingDue (portRetire 15 6) ∧
    mayStart (portRetire 15 6) 63 97 = true ∧
    holeArg (portRetire 15 6) 63 0 1 ≤ 15 ∧
    portState (portRetire 15 6) (holeArg (portRetire 15 6) 63 0 1) = 6 :=
  ⟨⟨by decide +kernel, by decide +kernel, by decide +kernel, by decide +kernel, by decide +kernel,
    by decide +kernel, by decide +kernel⟩, by decide +kernel⟩

theorem witness_StacksAndPorts_9 :
    NothingDue (portRetire 15 0) ∧
    mayStart (portRetire 15 0) 63 97 = true ∧
    holeArg (portRetire 15 0) 63 0 1 ≤ 15 ∧
    portState (portRetire 15 0) (holeArg (portRetire 15 0) 63 0 1) = 0 ∧
    getPort (portRetire 15 0) (holeArg (portRetire 15 0) 63 0 1) = Port.reset :=
  ⟨⟨by decide +kernel, by decide +kernel, by decide +kernel, by decide +kernel, by decide +kernel,
    by decide +kernel, by decide +kernel⟩, by decide +kernel⟩

theorem witness_StacksAndPorts_10 :
    NothingDue (portRetire 15 5) ∧
    mayStart (portRetire 15 5) 63 97 = true ∧
    holeArg (portRetire 15 5) 63 0 1 ≤ 15 ∧
    portState (portRetire 15 5) (holeArg (portRetire 15 5) 63 0 1) = 5 :=
  ⟨⟨by decide +kernel, by decide +kernel, by decide +kernel, by decide +kernel, by decide +kernel,
    by decide +kernel, by decide +kernel⟩, by decide +kernel⟩

/-! ### Service -/

def routeLoad (dev n o v : Nat) : State :=
  hole linkUp 63 0x62 (8 + 8 * n) (leBytes 2 dev ++ leBytes 2 n ++ leBytes 4 0 ++ leBytes 4 o ++ leBytes 4 v)
def meterRead (sel : Byte) (first n : Nat) : State := ask 0x80 8 ([sel, 0] ++ leBytes 2 first ++ leBytes 2 n)
def nmConfig (n : Nat) (l : List Byte) : State := ask 0x90 (4 + 6 * n) (leBytes 2 n ++ leBytes 2 0 ++ l)
def debugAttach (on m : Byte) : State := ask 0xA0 8 [on, m]
def attachBusy : State :=
  withSo (debugAttach 1 3) fun o => { o with active := [(0, 3)], parcels := [{ parcel3 with st := .running, sent := true }] }
def resetUnit (code i : Byte) : State := ask 0xB0 8 [code, i]
def portUp : State := setPortState (resetUnit 6 15) 15 2
def drained0 (s : State) : State := modCl s 0 fun c => { c with service := .drained }
def courier0 : State :=
  drained0 { resetUnit 3 0 with channels := [(3, { Channel.reset with total := 5 }), (20, { Channel.reset with total := 5 })] }
def lpQuiet15 : State := devs (resetUnit 5 15) [(0x5013C, 0x80000000)]
def selfTest (u i l : Byte) : State := ask 0x70 8 [u, i, l]
def calibrate15 : State := ask 0x71 8 [4, 15]
def testing (t : Test) : State := withSo base fun o => { o with tests := [(63, t)], busy := [⟨63, false, true, []⟩] }
/-- The test of a stack that retires while it is held. -/
def goneTest : State := devs (testing ⟨4, 15, 0, false⟩) [(0x40000, 0x8000000F)]
def ticket7 : Word × Test := (7, ⟨2, 0, 0, false⟩)
def ticketed : State := withSo (drained0 base) fun o => { o with tickets := [ticket7] }
def running9 : Word × Test := (7, ⟨9, 0, 0, false⟩)
def testRuns : State := withSo base fun o => { o with running := [running9] }
def plan9 : Plan := ⟨9, planImg [], [1]⟩
/-- The plan with two stages. -/
def plan9two : Plan := ⟨9, (planImg []).take 10 ++ leBytes 2 2 ++ (planImg []).drop 12 ++ (planImg []).drop 64, [1]⟩
def opened3 : Parcel := { parcel3 with st := .opened }
def toSend : State :=
  withSeal (withSo (modCl (modCore base 0 fun c => { c with held := true }) 0 fun c => { c with run := 0 }) fun o => { o with plans := [plan9], parcels := [opened3] }) fun b =>
    { b with pt := [(2, { PEntry.reset with st := .accepted })] }
def running3 : Parcel := { parcel3 with st := .running, sent := true }
def stagePost (w : Word) : Nat × Word × Org := (0, w, .here 0 4 0)
def ends (p : Plan) (w : Word) : State :=
  { withSo base (fun o => { o with plans := [p], active := [(0, 3)], parcels := [running3] }) with stageQ := [stagePost w] }

theorem witness_ServiceCommands_1 :
    NothingDue (routeLoad 7 504 0 0) ∧
    mayStart (routeLoad 7 504 0 0) 63 98 = true ∧
    503 < holeArg (routeLoad 7 504 0 0) 63 2 2 :=
  ⟨⟨by decide +kernel, by decide +kernel, by decide +kernel, by decide +kernel, by decide +kernel,
    by decide +kernel, by decide +kernel⟩, by decide +kernel⟩

theorem witness_ServiceCommands_2 :
    NothingDue (routeLoad 7 1 4092 0) ∧
    mayStart (routeLoad 7 1 4092 0) 63 98 = true ∧
    holeArg (routeLoad 7 1 4092 0) 63 2 2 = 1 ∧
    routeLoadable (holeArg (routeLoad 7 1 4092 0) 63 8 4) = false :=
  ⟨⟨by decide +kernel, by decide +kernel, by decide +kernel, by decide +kernel, by decide +kernel,
    by decide +kernel, by decide +kernel⟩, by decide +kernel⟩

theorem witness_ServiceCommands_3 :
    NothingDue (routeLoad 7 0 0 0) ∧
    mayStart (routeLoad 7 0 0 0) 63 98 = true ∧
    holeArg (routeLoad 7 0 0 0) 63 2 2 = 0 :=
  ⟨⟨by decide +kernel, by decide +kernel, by decide +kernel, by decide +kernel, by decide +kernel,
    by decide +kernel, by decide +kernel⟩, by decide +kernel⟩

theorem witness_ServiceCommands_4 :
    NothingDue (routeLoad 65535 1 6652 4294967295) ∧
    mayStart (routeLoad 65535 1 6652 4294967295) 63 98 = true ∧
    holeArg (routeLoad 65535 1 6652 4294967295) 63 2 2 = 1 ∧
    holeArg (routeLoad 65535 1 6652 4294967295) 63 0 2 = 65535 ∧
    4096 ≤ holeArg (routeLoad 65535 1 6652 4294967295) 63 8 4 ∧
    holeArg (routeLoad 65535 1 6652 4294967295) 63 8 4 < 6656 ∧
    holeArg (routeLoad 65535 1 6652 4294967295) 63 8 4 % 4 = 0 ∧
    (routeLoad 65535 1 6652 4294967295).fab.waiting = [] ∧
    (∀ (p : Nat),
      chosenPort
            (devGet (routeLoad 65535 1 6652 4294967295)
              (458752 + holeArg (routeLoad 65535 1 6652 4294967295) 63 8 4)) =
          some p →
        (getPort (routeLoad 65535 1 6652 4294967295) p).replay = []) :=
  ⟨⟨by decide +kernel, by decide +kernel, by decide +kernel, by decide +kernel, by decide +kernel,
    by decide +kernel, by decide +kernel⟩, by decide +kernel⟩

theorem witness_ServiceCommands_5 :
    NothingDue (meterRead 3 0 0) ∧
    mayStart (meterRead 3 0 0) 63 128 = true ∧
    2 < holeArg (meterRead 3 0 0) 63 0 1 :=
  ⟨⟨by decide +kernel, by decide +kernel, by decide +kernel, by decide +kernel, by decide +kernel,
    by decide +kernel, by decide +kernel⟩, by decide +kernel⟩

theorem witness_ServiceCommands_6 :
    NothingDue (meterRead 0 8 0) ∧
    mayStart (meterRead 0 8 0) 63 128 = true ∧
    ((holeArg (meterRead 0 8 0) 63 0 1, 256, 32, 8, 8) ∈
      [(0, 256, 32, 8, 8), (1, 16384, 32, 1024, 126), (2, 49152, 16, 1024, 252)]) ∧
    8 ≤ holeArg (meterRead 0 8 0) 63 2 2 :=
  ⟨⟨by decide +kernel, by decide +kernel, by decide +kernel, by decide +kernel, by decide +kernel,
    by decide +kernel, by decide +kernel⟩, by decide +kernel⟩

theorem witness_ServiceCommands_7 :
    NothingDue (meterRead 0 7 2) ∧
    mayStart (meterRead 0 7 2) 63 128 = true ∧
    ((holeArg (meterRead 0 7 2) 63 0 1, 256, 32, 8, 8) ∈
      [(0, 256, 32, 8, 8), (1, 16384, 32, 1024, 126), (2, 49152, 16, 1024, 252)]) ∧
    holeArg (meterRead 0 7 2) 63 2 2 < 8 ∧
    (8 < holeArg (meterRead 0 7 2) 63 4 2 ∨ 8 < holeArg (meterRead 0 7 2) 63 2 2 + holeArg (meterRead 0 7 2) 63 4 2) :=
  ⟨⟨by decide +kernel, by decide +kernel, by decide +kernel, by decide +kernel, by decide +kernel,
    by decide +kernel, by decide +kernel⟩, by decide +kernel⟩

theorem witness_ServiceCommands_8 :
    NothingDue (meterRead 0 0 8) ∧
    mayStart (meterRead 0 0 8) 63 128 = true ∧
    ((holeArg (meterRead 0 0 8) 63 0 1, 256, 32, 8, 8) ∈
      [(0, 256, 32, 8, 8), (1, 16384, 32, 1024, 126), (2, 49152, 16, 1024, 252)]) ∧
    holeArg (meterRead 0 0 8) 63 4 2 ≤ 8 ∧
    holeArg (meterRead 0 0 8) 63 2 2 + holeArg (meterRead 0 0 8) 63 4 2 ≤ 8 ∧
    holeArg (meterRead 0 0 8) 63 2 2 < 8 :=
  ⟨⟨by decide +kernel, by decide +kernel, by decide +kernel, by decide +kernel, by decide +kernel,
    by decide +kernel, by decide +kernel⟩, by decide +kernel⟩

theorem witness_ServiceCommands_9 :
    NothingDue (meterRead 1 1020 4) ∧
    mayStart (meterRead 1 1020 4) 63 128 = true ∧
    ((holeArg (meterRead 1 1020 4) 63 0 1, 16384, 32, 1024, 126) ∈
      [(0, 256, 32, 8, 8), (1, 16384, 32, 1024, 126), (2, 49152, 16, 1024, 252)]) ∧
    holeArg (meterRead 1 1020 4) 63 4 2 ≤ 126 ∧
    holeArg (meterRead 1 1020 4) 63 2 2 + holeArg (meterRead 1 1020 4) 63 4 2 ≤ 1024 ∧
    holeArg (meterRead 1 1020 4) 63 2 2 < 1024 :=
  ⟨⟨by decide +kernel, by decide +kernel, by decide +kernel, by decide +kernel, by decide +kernel,
    by decide +kernel, by decide +kernel⟩, by decide +kernel⟩

theorem witness_ServiceCommands_10 :
    NothingDue (meterRead 2 0 252) ∧
    mayStart (meterRead 2 0 252) 63 128 = true ∧
    ((holeArg (meterRead 2 0 252) 63 0 1, 49152, 16, 1024, 252) ∈
      [(0, 256, 32, 8, 8), (1, 16384, 32, 1024, 126), (2, 49152, 16, 1024, 252)]) ∧
    holeArg (meterRead 2 0 252) 63 4 2 ≤ 252 ∧
    holeArg (meterRead 2 0 252) 63 2 2 + holeArg (meterRead 2 0 252) 63 4 2 ≤ 1024 ∧
    holeArg (meterRead 2 0 252) 63 2 2 < 1024 :=
  ⟨⟨by decide +kernel, by decide +kernel, by decide +kernel, by decide +kernel, by decide +kernel,
    by decide +kernel, by decide +kernel⟩, by decide +kernel⟩

theorem witness_ServiceCommands_11 :
    NothingDue (nmConfig 0 []) ∧
    mayStart (nmConfig 0 []) 63 144 = true ∧
    (holeArg (nmConfig 0 []) 63 0 2 = 0 ∨ 671 < holeArg (nmConfig 0 []) 63 0 2) :=
  ⟨⟨by decide +kernel, by decide +kernel, by decide +kernel, by decide +kernel, by decide +kernel,
    by decide +kernel, by decide +kernel⟩, by decide +kernel⟩

theorem witness_ServiceCommands_12 :
    NothingDue (nmConfig 1 (leBytes 2 7 ++ leBytes 4 7)) ∧
    mayStart (nmConfig 1 (leBytes 2 7 ++ leBytes 4 7)) 63 144 = true ∧
    1 ≤ holeArg (nmConfig 1 (leBytes 2 7 ++ leBytes 4 7)) 63 0 2 ∧
    holeArg (nmConfig 1 (leBytes 2 7 ++ leBytes 4 7)) 63 0 2 ≤ 671 ∧
    (∀ (r : Nat × Nat),
      r ∈
          List.map
            (fun i =>
              (holeArg (nmConfig 1 (leBytes 2 7 ++ leBytes 4 7)) 63 (4 + 6 * i) 2,
                holeArg (nmConfig 1 (leBytes 2 7 ++ leBytes 4 7)) 63 (6 + 6 * i) 4))
            (List.range (holeArg (nmConfig 1 (leBytes 2 7 ++ leBytes 4 7)) 63 0 2)) →
        nmRecordOk r = true) :=
  ⟨⟨by decide +kernel, by decide +kernel, by decide +kernel, by decide +kernel, by decide +kernel,
    by decide +kernel, by decide +kernel⟩, by decide +kernel⟩

theorem witness_ServiceCommands_13 :
    NothingDue (debugAttach 2 3) ∧
    mayStart (debugAttach 2 3) 63 160 = true ∧
    1 < holeArg (debugAttach 2 3) 63 0 1 :=
  ⟨⟨by decide +kernel, by decide +kernel, by decide +kernel, by decide +kernel, by decide +kernel,
    by decide +kernel, by decide +kernel⟩, by decide +kernel⟩

theorem witness_ServiceCommands_14 :
    NothingDue attachBusy ∧
    mayStart attachBusy 63 160 = true ∧
    holeArg attachBusy 63 0 1 ≤ 1 :=
  ⟨⟨by decide +kernel, by decide +kernel, by decide +kernel, by decide +kernel, by decide +kernel,
    by decide +kernel, by decide +kernel⟩, by decide +kernel⟩

theorem witness_ResetUnit_1 :
    NothingDue (resetUnit 10 0) ∧
    CleanCaches (resetUnit 10 0) ∧
    mayStart (resetUnit 10 0) 63 176 = true ∧
    holeArg (resetUnit 10 0) 63 0 1 = 10 :=
  ⟨⟨by decide +kernel, by decide +kernel, by decide +kernel, by decide +kernel, by decide +kernel,
    by decide +kernel, by decide +kernel⟩, by unfold CleanCaches; decide +kernel, by decide +kernel⟩

theorem witness_ResetUnit_2 :
    NothingDue (resetUnit 12 0) ∧
    CleanCaches (resetUnit 12 0) ∧
    mayStart (resetUnit 12 0) 63 176 = true ∧
    (holeArg (resetUnit 12 0) 63 0 1 = 0 ∨ 11 < holeArg (resetUnit 12 0) 63 0 1) :=
  ⟨⟨by decide +kernel, by decide +kernel, by decide +kernel, by decide +kernel, by decide +kernel,
    by decide +kernel, by decide +kernel⟩, by unfold CleanCaches; decide +kernel, by decide +kernel⟩

theorem witness_ResetUnit_3 :
    NothingDue portUp ∧
    CleanCaches portUp ∧
    mayStart portUp 63 176 = true ∧
    holeArg portUp 63 0 1 = 6 ∧
    holeArg portUp 63 1 1 < 16 ∧
    portState portUp (holeArg portUp 63 1 1) = 2 :=
  ⟨⟨by decide +kernel, by decide +kernel, by decide +kernel, by decide +kernel, by decide +kernel,
    by decide +kernel, by decide +kernel⟩, by unfold CleanCaches; decide +kernel, by decide +kernel⟩

theorem witness_ResetUnit_4 :
    NothingDue (drained0 (resetUnit 2 0)) ∧
    CleanCaches (drained0 (resetUnit 2 0)) ∧
    mayStart (drained0 (resetUnit 2 0)) 63 176 = true ∧
    holeArg (drained0 (resetUnit 2 0)) 63 0 1 = 2 ∧
    holeArg (drained0 (resetUnit 2 0)) 63 1 1 < 8 ∧
    isDrained (drained0 (resetUnit 2 0)) (Fin.ofNat 8 (holeArg (drained0 (resetUnit 2 0)) 63 1 1)) = true :=
  ⟨⟨by decide +kernel, by decide +kernel, by decide +kernel, by decide +kernel, by decide +kernel,
    by decide +kernel, by decide +kernel⟩, by unfold CleanCaches; decide +kernel, by decide +kernel⟩

theorem witness_ResetUnit_5 :
    NothingDue courier0 ∧
    CleanCaches courier0 ∧
    mayStart courier0 63 176 = true ∧
    holeArg courier0 63 0 1 = 3 ∧
    holeArg courier0 63 1 1 < 8 ∧
    unitDrained courier0 3 (holeArg courier0 63 1 1) = true :=
  ⟨⟨by decide +kernel, by decide +kernel, by decide +kernel, by decide +kernel, by decide +kernel,
    by decide +kernel, by decide +kernel⟩, by unfold CleanCaches; decide +kernel, by decide +kernel⟩

theorem witness_ResetUnit_6 :
    NothingDue lpQuiet15 ∧
    CleanCaches lpQuiet15 ∧
    mayStart lpQuiet15 63 176 = true ∧
    holeArg lpQuiet15 63 0 1 = 5 ∧
    holeArg lpQuiet15 63 1 1 < 16 ∧
    unitDrained lpQuiet15 5 (holeArg lpQuiet15 63 1 1) = true :=
  ⟨⟨by decide +kernel, by decide +kernel, by decide +kernel, by decide +kernel, by decide +kernel,
    by decide +kernel, by decide +kernel⟩, by unfold CleanCaches; decide +kernel, by decide +kernel⟩

theorem witness_ResetUnit_7 :
    NothingDue (resetUnit 11 0) ∧
    CleanCaches (resetUnit 11 0) ∧
    mayStart (resetUnit 11 0) 63 176 = true ∧
    holeArg (resetUnit 11 0) 63 0 1 = 11 ∧
    holeArg (resetUnit 11 0) 63 1 1 = 0 :=
  ⟨⟨by decide +kernel, by decide +kernel, by decide +kernel, by decide +kernel, by decide +kernel,
    by decide +kernel, by decide +kernel⟩, by unfold CleanCaches; decide +kernel, by decide +kernel⟩

theorem witness_Tests_1 :
    NothingDue (selfTest 10 0 0) ∧
    mayStart (selfTest 10 0 0) 63 112 = true ∧
    holeArg (selfTest 10 0 0) 63 0 1 = 10 :=
  ⟨⟨by decide +kernel, by decide +kernel, by decide +kernel, by decide +kernel, by decide +kernel,
    by decide +kernel, by decide +kernel⟩, by decide +kernel⟩

theorem witness_Tests_2 :
    NothingDue (selfTest 11 0 2) ∧
    mayStart (selfTest 11 0 2) 63 112 = true ∧
    holeArg (selfTest 11 0 2) 63 0 1 = 11 ∧
    holeArg (selfTest 11 0 2) 63 1 1 = 0 ∧
    1 < holeArg (selfTest 11 0 2) 63 2 1 :=
  ⟨⟨by decide +kernel, by decide +kernel, by decide +kernel, by decide +kernel, by decide +kernel,
    by decide +kernel, by decide +kernel⟩, by decide +kernel⟩

theorem witness_Tests_3 :
    NothingDue (selfTest 9 0 1) ∧
    mayStart (selfTest 9 0 1) 63 112 = true ∧
    (holeArg (selfTest 9 0 1) 63 0 1 = 1 ∨
      holeArg (selfTest 9 0 1) 63 0 1 = 9 ∨ holeArg (selfTest 9 0 1) 63 0 1 = 11) ∧
    holeArg (selfTest 9 0 1) 63 1 1 = 0 ∧
    holeArg (selfTest 9 0 1) 63 2 1 ≤ 1 :=
  ⟨⟨by decide +kernel, by decide +kernel, by decide +kernel, by decide +kernel, by decide +kernel,
    by decide +kernel, by decide +kernel⟩, by decide +kernel⟩

theorem witness_Tests_4 :
    NothingDue (selfTest 2 7 1) ∧
    mayStart (selfTest 2 7 1) 63 112 = true ∧
    holeArg (selfTest 2 7 1) 63 0 1 = 2 ∧
    holeArg (selfTest 2 7 1) 63 1 1 < 8 ∧
    holeArg (selfTest 2 7 1) 63 2 1 ≤ 1 ∧
    isDrained (selfTest 2 7 1) (Fin.ofNat 8 (holeArg (selfTest 2 7 1) 63 1 1)) = false ∧
    (selfTest 2 7 1).so.tickets.length < 64 :=
  ⟨⟨by decide +kernel, by decide +kernel, by decide +kernel, by decide +kernel, by decide +kernel,
    by decide +kernel, by decide +kernel⟩, by decide +kernel⟩

theorem witness_Tests_5 :
    NothingDue calibrate15 ∧
    mayStart calibrate15 63 113 = true ∧
    holeArg calibrate15 63 0 1 = 4 ∧
    holeArg calibrate15 63 1 1 < 16 ∧
    stackGone calibrate15 (holeArg calibrate15 63 1 1) = false :=
  ⟨⟨by decide +kernel, by decide +kernel, by decide +kernel, by decide +kernel, by decide +kernel,
    by decide +kernel, by decide +kernel⟩, by decide +kernel⟩

theorem witness_Tests_6 :
    NothingDue (testing { unit := 9, index := 0, level := 0, cal := false }) ∧
    (testing { unit := 9, index := 0, level := 0, cal := false }).so.tests =
      [(63, { unit := 9, index := 0, level := 0, cal := false })] ∧
    holeBusy (testing { unit := 9, index := 0, level := 0, cal := false }) 63 = true ∧
    stillSlow (testing { unit := 9, index := 0, level := 0, cal := false })
        { unit := 9, index := 0, level := 0, cal := false } =
      false ∧
    (testing { unit := 9, index := 0, level := 0, cal := false }).fab.lpHeld = [] ∧
    { unit := (9 : Nat), index := (0 : Nat), level := (0 : Nat), cal := false : Test }.unit ≠ (2 : Nat) ∧
    ({ unit := (9 : Nat), index := (0 : Nat), level := (0 : Nat), cal := false : Test }.unit = (4 : Nat) →
      stackGone (testing { unit := (9 : Nat), index := (0 : Nat), level := (0 : Nat), cal := false : Test })
          { unit := (9 : Nat), index := (0 : Nat), level := (0 : Nat), cal := false : Test }.index =
        false) ∧
    { pass := true, detail := (7 : Word), faulty := [] : TestOutcome }.pass = true :=
  ⟨⟨by decide +kernel, by decide +kernel, by decide +kernel, by decide +kernel, by decide +kernel,
    by decide +kernel, by decide +kernel⟩, by decide +kernel⟩

theorem witness_Tests_7 :
    NothingDue (testing { unit := 9, index := 0, level := 0, cal := false }) ∧
    (testing { unit := 9, index := 0, level := 0, cal := false }).so.tests =
      [(63, { unit := 9, index := 0, level := 0, cal := false })] ∧
    holeBusy (testing { unit := 9, index := 0, level := 0, cal := false }) 63 = true ∧
    stillSlow (testing { unit := 9, index := 0, level := 0, cal := false })
        { unit := 9, index := 0, level := 0, cal := false } =
      false ∧
    (testing { unit := 9, index := 0, level := 0, cal := false }).fab.lpHeld = [] ∧
    { unit := (9 : Nat), index := (0 : Nat), level := (0 : Nat), cal := false : Test }.unit ≠ (2 : Nat) ∧
    ({ unit := (9 : Nat), index := (0 : Nat), level := (0 : Nat), cal := false : Test }.unit = (4 : Nat) →
      stackGone (testing { unit := (9 : Nat), index := (0 : Nat), level := (0 : Nat), cal := false : Test })
          { unit := (9 : Nat), index := (0 : Nat), level := (0 : Nat), cal := false : Test }.index =
        false) ∧
    { pass := false, detail := (7 : Word), faulty := [] : TestOutcome }.pass = false :=
  ⟨⟨by decide +kernel, by decide +kernel, by decide +kernel, by decide +kernel, by decide +kernel,
    by decide +kernel, by decide +kernel⟩, by decide +kernel⟩

theorem witness_Tests_8 :
    NothingDue (testing { unit := 2, index := 7, level := 0, cal := false }) ∧
    (testing { unit := 2, index := 7, level := 0, cal := false }).so.tests =
      [(63, { unit := 2, index := 7, level := 0, cal := false })] ∧
    holeBusy (testing { unit := 2, index := 7, level := 0, cal := false }) 63 = true ∧
    stillSlow (testing { unit := 2, index := 7, level := 0, cal := false })
        { unit := 2, index := 7, level := 0, cal := false } =
      false ∧
    (testing { unit := 2, index := 7, level := 0, cal := false }).fab.lpHeld = [] ∧
    { unit := (2 : Nat), index := (7 : Nat), level := (0 : Nat), cal := false : Test }.unit = (2 : Nat) ∧
    { unit := (2 : Nat), index := (7 : Nat), level := (0 : Nat), cal := false : Test }.level = (0 : Nat) ∧
    { pass := false, detail := (7 : Word), faulty := [((575 : Nat), false)] : TestOutcome }.faulty =
      [((575 : Nat), false)] ∧
    (575 / 72 : Nat) = { unit := (2 : Nat), index := (7 : Nat), level := (0 : Nat), cal := false : Test }.index ∧
    siteSt (testing { unit := 2, index := 7, level := 0, cal := false }).siteState 575 = SiteState.enabled ∧
    (testing { unit := 2, index := 7, level := 0, cal := false }).so.marks = [] :=
  ⟨⟨by decide +kernel, by decide +kernel, by decide +kernel, by decide +kernel, by decide +kernel,
    by decide +kernel, by decide +kernel⟩, by decide +kernel⟩

theorem witness_Tests_9 :
    NothingDue goneTest ∧
    goneTest.so.tests = [(63, { unit := 4, index := 15, level := 0, cal := false })] ∧
    holeBusy goneTest 63 = true ∧
    stillSlow goneTest { unit := 4, index := 15, level := 0, cal := false } = false ∧
    goneTest.fab.lpHeld = [] ∧
    { unit := (4 : Nat), index := (15 : Nat), level := (0 : Nat), cal := false : Test }.unit = (4 : Nat) ∧
    stackGone goneTest { unit := (4 : Nat), index := (15 : Nat), level := (0 : Nat), cal := false : Test }.index =
      true :=
  ⟨⟨by decide +kernel, by decide +kernel, by decide +kernel, by decide +kernel, by decide +kernel,
    by decide +kernel, by decide +kernel⟩, by decide +kernel⟩

theorem witness_Tests_10 :
    NothingDue ticketed ∧
    ticketTurn ticketed ticket7 = true ∧
    ticketed.so.tickets = [ticket7] :=
  ⟨⟨by decide +kernel, by decide +kernel, by decide +kernel, by decide +kernel, by decide +kernel,
    by decide +kernel, by decide +kernel⟩, by decide +kernel⟩

theorem witness_Tests_11 :
    NothingDue testRuns ∧
    testRuns.so.running = [running9] ∧
    running9.snd.unit ≠ 2 ∧
    (running9.snd.unit = 4 → stackGone testRuns running9.snd.index = false) ∧
    { pass := true, detail := (7 : Word), faulty := [] : TestOutcome }.pass = true ∧
    testRuns.fab.lpHeld = [] :=
  ⟨⟨by decide +kernel, by decide +kernel, by decide +kernel, by decide +kernel, by decide +kernel,
    by decide +kernel, by decide +kernel⟩, by decide +kernel⟩

theorem witness_Stages_1 :
    settleSo toSend = toSend ∧
    liveParcel toSend 2 = some opened3 ∧
    planOf toSend opened3.plan = some plan9 ∧
    opened3.sent = false ∧
    (ptGet toSend 2).st = EntrySt.accepted ∧
    opened3.stage < planStages plan9.image ∧
    toSend.so.hand = 0 ∧
    stageReady toSend plan9.image (stageRec plan9.image opened3.stage) = true :=
  by decide +kernel

theorem witness_Stages_2 :
    NothingDue (ends plan9 5) ∧
    (ends plan9 5).stageQ = [stagePost 5] ∧
    (stagePost 5).fst = 0 ∧
    (stagePost 5).snd.fst = 5 ∧
    (ends plan9 5).so.active = [(0, running3.uid)] ∧
    (ends plan9 5).so.parcels = [running3] ∧
    running3.st = ParcelSt.running ∧
    planOf (ends plan9 5) running3.plan = some plan9 ∧
    (¬running3.bundle ∈ (ends plan9 5).so.finals) ∧
    (5 ≠ 0 ∨ stageModeWritten (ends plan9 5) (stageRec plan9.image running3.stage) = true) :=
  ⟨⟨by decide +kernel, by decide +kernel, by decide +kernel, by decide +kernel, by decide +kernel,
    by decide +kernel, by decide +kernel⟩, by decide +kernel⟩

theorem witness_Stages_3 :
    NothingDue (ends plan9two 0) ∧
    (ends plan9two 0).stageQ = [stagePost 0] ∧
    (stagePost 0).fst = 0 ∧
    (stagePost 0).snd.fst = 0 ∧
    (ends plan9two 0).so.active = [(0, running3.uid)] ∧
    (ends plan9two 0).so.parcels = [running3] ∧
    running3.st = ParcelSt.running ∧
    planOf (ends plan9two 0) running3.plan = some plan9two ∧
    (¬running3.bundle ∈ (ends plan9two 0).so.finals) ∧
    stageModeWritten (ends plan9two 0) (stageRec plan9two.image running3.stage) = false ∧
    running3.stage + 1 < planStages plan9two.image :=
  ⟨⟨by decide +kernel, by decide +kernel, by decide +kernel, by decide +kernel, by decide +kernel,
    by decide +kernel, by decide +kernel⟩, by decide +kernel⟩

/-! ### Power, bring-up and the Franking die -/

def handing (h : Nat) (sw : BitVec 4) : State :=
  withSo (ask 0x50 8 [0]) fun o => { o with hand := h, switched := sw, handHole := some 63 }
def reverting (l : List Nat) : State :=
  let s := withSo (handing 2 7) fun o => { o with toRevert := l, handFail := some 2 }
  { s with flash := { s.flash with slots := [(0, some (img9 1)), (1, some (img9 2))] } }
def reloading (l : Option Image) : State :=
  let s := withSo (ask 0x50 8 [0]) fun o => { o with nmHole := some 63 }
  { s with nm := { s.nm with mode := .reloading, loading := l, image := some (img9 3) } }
def phase (p sv : Nat) : State := { base with mod := { base.mod with started := true, phase := p, service := sv } }
def slotFull (s : State) : State := { s with flash := { s.flash with slots := [(0, some (img9 4))] } }
def noImage : State := let s := phase 1 0; { s with flash := { s.flash with slots := [(0, none), (1, none)] } }
def unstarted : State := { base with mod := { base.mod with started := false } }
def retired3 : State := let s := phase 3 1; { s with flash := { s.flash with retired := some 3 } }
def holesB : State := { slotFull (phase 1 0) with siteState := [(1, .hole)] }
def configured3 : State := devs (phase 4 1) [(portBase 3, 0x40000000)]
def withNm (s : State) (f : NightMail → NightMail) : State := { s with nm := f s.nm }
def raws (x : Nat) : List (BitVec 16) := BitVec.ofNat 16 x :: List.replicate 54 500
def inMode (m : ModMode) (mrst held : Bool) : State :=
  { base with mod := { base.mod with mode := m, mrst := mrst, held := held } }
def hotOnce : State := withNm base fun n => { n with held := [(64, 1)] }
def fatalOnce : State := withNm base fun n => { n with held := [(128, 1)] }
def leakOnce : State := withNm base fun n => { n with held := [(180, 1)] }
def cl0 (f : Cluster → Cluster) : State := modCl base 0 f
def eff3 (b : Bool) : State := cl0 fun k => { k with eff := 3, ceilNow := b }
def stopped0 : State := mach 1 Thread.reset
def pmCtl (s : State) (v : Word) : State := devs s [(0x10040, v)]
def napAsked (w : Bool) : State := pmCtl (cl0 fun k => { k with power := .idle, napOrder := true, wakeSeen := w }) 2
def offAsked (v : Word) : State := pmCtl (cl0 fun k => { k with service := .drained, offOrder := true }) v
def rising (m : Nat) : State := { cl0 (fun k => { k with run := 2, eff := 0, raise := some 0 }) with meshCycle := m }
def napping : State := cl0 fun k => { k with power := .nap, waking := true }
def heldSignal : State := cl0 fun k => { k with power := .idle, waking := true, heldUnits := [.msg (.routed 0 5)] }
def allDrained : State :=
  { inMode .active true false with clusters := Vector.replicate 8 { Cluster.reset with service := .drained } }
def external : State := { base with mod := { base.mod with refExt := true, waitInput := true } }
def withFr (s : State) (f : Franking → Franking) : State := { s with fr := f s.fr }
def frOff : State := withFr base fun f => { f with powered := false }
def summed : State :=
  withFr base fun f =>
    { f with fault := 3, samples := 4000, sums := [(2, (10 ^ 15, 5, 5, 4000)), (3, (-10 ^ 15, 5, 5, 4000)), (4, (1, 1, 1, 4000))] }
def newImage : FrImage := ⟨1, 2, [3]⟩
def updating : State :=
  withFr (withSo (ask 0x50 8 [0]) fun o => { o with frHole := some 63 }) fun f => { f with samples := 4000, update := some newImage }
def report (sq inc : Nat) : ReportFrame :=
  { account := 1023, counter := 2, inc := BitVec.ofNat 64 inc, seq := BitVec.ofNat 16 sq, intact := true }
def lastSeq (n : BitVec 16) (v : Nat) : State :=
  withFr base fun f =>
    { f with lastSeq := some n, live := { f.live with accounts := if v = 0 then [] else [(4094, BitVec.ofNat 64 v)] } }
/-- The base point of the curve. -/
def goodKey : List Byte :=
  4 :: beBytes 48 0x1D1C64F068CF45FFA2A63A81B7C13F6B8847A3E77EF14FE3DB7FCAFE0CBD10E8E826E03436D646AAEF87B2E247D4AF1E ++
    beBytes 48 0x8ABE1D7520F9C2A45CB1EB8E95CFD55262B70B29FEEC5864E19C054FF99129280E4646217791811142820341263C5315
def imageSent : State := withFr base fun f => { f with incoming := some [] }
def badKey : List Byte := 4 :: List.replicate 96 0
def clock (m : Nat) (f : Cluster → Cluster) : State :=
  modCl { base with meshCycle := m, mod := { base.mod with phase := 5 } } 0 f
def slow4 : State := clock 4 fun k => { k with run := 3, stopUntil := 5 }
def full3 : State := clock 3 fun k => { k with run := 0 }

theorem witness_Handover_1 :
    (handing 1 0).so.hand = 1 ∧
    (handing 1 0).so.switched = ↑(1 <<< 0) - 1 ∧
    (handing 1 0).so.hand ≠ 2 :=
  by decide +kernel

theorem witness_Handover_2 :
    (handing 1 7).so.hand = 1 ∧
    (handing 1 7).so.switched = ↑(1 <<< 3) - 1 ∧
    (handing 1 7).so.hand ≠ 2 :=
  by decide +kernel

theorem witness_Handover_3 :
    ((handing 0 0).so.hand ≠ 1 ∨ (handing 0 0).so.switched ≠ ↑(1 <<< 3) - 1) ∧
    (handing 0 0).so.hand ≠ 2 :=
  by decide +kernel

theorem witness_Handover_4 :
    ((reverting [2, 1, 0]).so.hand ≠ 1 ∨ (reverting [2, 1, 0]).so.switched ≠ ↑(1 <<< 2) - 1) ∧
    (reverting [2, 1, 0]).so.hand = 2 ∧
    (reverting [2, 1, 0]).so.toRevert = [2, 1, 0] ∧
    [1, 0] ≠ [] :=
  by decide +kernel

theorem witness_Handover_5 :
    ((reverting [0]).so.hand ≠ 1 ∨ (reverting [0]).so.switched ≠ ↑(1 <<< 0) - 1) ∧
    (reverting [0]).so.hand = 2 ∧
    (reverting [0]).so.toRevert = [0] ∧
    NothingDue (reverting [0]) ∧
    (reverting [0]).so.handHole = some 63 ∧
    (reverting [0]).so.handFail = some 2 ∧
    holeBusy (reverting [0]) 63 = true :=
  join3 (by decide +kernel) ⟨⟨by decide +kernel, by decide +kernel, by decide +kernel, by decide +kernel,
    by decide +kernel, by decide +kernel, by decide +kernel⟩, by decide +kernel⟩

theorem witness_NightMailReload_1 :
    base.nm.mode ≠ NmMode.reloading :=
  by decide +kernel

theorem witness_NightMailReload_2 :
    (reloading (some (img9 1))).nm.mode = NmMode.reloading ∧
    (reloading (some (img9 1))).nm.loading = some (img9 1) ∧
    NothingDue (reloading (some (img9 1))) ∧
    (reloading (some (img9 1))).so.nmHole = some 63 ∧
    holeBusy (reloading (some (img9 1))) 63 = true :=
  join2 (by decide +kernel) ⟨⟨by decide +kernel, by decide +kernel, by decide +kernel, by decide +kernel,
    by decide +kernel, by decide +kernel, by decide +kernel⟩, by decide +kernel⟩

theorem witness_NightMailReload_3 :
    (reloading none).nm.mode = NmMode.reloading ∧
    (reloading none).nm.loading = none ∧
    (reloading none).nm.image = some (img9 3) ∧
    NothingDue (reloading none) ∧
    (reloading none).so.nmHole = some 63 ∧
    holeBusy (reloading none) 63 = true :=
  join3 (by decide +kernel) ⟨⟨by decide +kernel, by decide +kernel, by decide +kernel, by decide +kernel,
    by decide +kernel, by decide +kernel, by decide +kernel⟩, by decide +kernel⟩

theorem witness_BringUp_1 :
    inPhase (phase 0 0) 0 = true :=
  by decide +kernel

theorem witness_BringUp_2 :
    inPhase noImage 1 = true ∧
    noImage.mod.service = 0 ∧
    bootImage noImage = none :=
  by decide +kernel

theorem witness_BringUp_3 :
    inPhase (slotFull (phase 1 0)) 1 = true ∧
    (slotFull (phase 1 0)).mod.service = 0 ∧
    bootImage (slotFull (phase 1 0)) = some (img9 4) :=
  by decide +kernel

theorem witness_BringUp_4 :
    inPhase holesB 1 = true ∧
    holesB.mod.service = 0 ∧
    bootImage holesB = some (img9 4) :=
  by decide +kernel

theorem witness_BringUp_5 :
    inPhase (phase 2 0) 2 = true ∧
    (phase 2 0).mod.service = 0 :=
  by decide +kernel

theorem witness_BringUp_6 :
    inPhase retired3 3 = true ∧
    retired3.mod.hbmBad = false :=
  by decide +kernel

theorem witness_BringUp_7 :
    inPhase (phase 3 1) 3 = true ∧
    (phase 3 1).mod.hbmBad = false ∧
    (phase 3 1).flash.retired = none :=
  by decide +kernel

theorem witness_BringUp_8 :
    inPhase (phase 4 1) 4 = true ∧
    (phase 4 1).mod.hbmBad = false ∧
    (phase 4 1).mod.service = 1 ∧
    (∀ (p : Nat),
      p < 16 →
        ¬(BitVec.extractLsb' 30 2 (devGet (phase 4 1) (portBase p)) = 1 ∨
              BitVec.extractLsb' 30 2 (devGet (phase 4 1) (portBase p)) = 2) ∧
          inTraining (phase 4 1) p = false) :=
  by decide +kernel

theorem witness_BringUp_9 :
    inPhase configured3 4 = true ∧
    configured3.mod.hbmBad = false ∧
    configured3.mod.service = 1 ∧
    (BitVec.extractLsb' 30 2 (devGet configured3 (portBase 3)) = 1 ∨
      BitVec.extractLsb' 30 2 (devGet configured3 (portBase 3)) = 2) ∧
    inTraining configured3 3 = false :=
  by decide +kernel

theorem witness_BringUp_10 :
    unstarted.mod.started = false :=
  by decide +kernel

theorem witness_NightMailTick_1 :
    (inMode ModMode.active false false).mod.mrst = false ∧
    (inMode ModMode.active false false).mod.mode ≠ ModMode.shutdown :=
  by decide +kernel

theorem witness_NightMailTick_2 :
    hotOnce.mod.mrst = true ∧
    hotOnce.mod.mode ≠ ModMode.shutdown ∧
    fatalCause (sampleTick hotOnce.nm (raws 1680) false false) = none :=
  by decide +kernel

theorem witness_NightMailTick_3 :
    fatalOnce.mod.mrst = true ∧
    fatalOnce.mod.mode ≠ ModMode.shutdown ∧
    fatalCause (sampleTick fatalOnce.nm (raws 1760) false false) = some (0, 1760, false) ∧
    (raws 1760)[0]? = some 1760 ∧
    (1760 : Int) ≤ BitVec.toInt (1760 : BitVec (16 : Nat)) ∧
    fatalOnce.nm.mode = NmMode.rom ∧
    fatalOnce.nm.pend = [] ∧
    1 ≤ tget countDefault fatalOnce.nm.held 128 :=
  by decide +kernel

theorem witness_NightMailTick_4 :
    leakOnce.mod.mrst = true ∧
    leakOnce.mod.mode ≠ ModMode.shutdown ∧
    fatalCause (sampleTick leakOnce.nm (raws 100) false true) = some (53, 1, true) :=
  by decide +kernel

theorem witness_NightMailTick_5 :
    (inMode ModMode.shutdown true true).mod.mode = ModMode.shutdown ∧
    (inMode ModMode.shutdown true true).mod.held = true ∧
    (((List.range 48).all fun i =>
            decide
              (rawOf (sampleTick (inMode ModMode.shutdown true true).nm (raws 1000) false false) i <
                tSHUTDOWN (sampleTick (inMode ModMode.shutdown true true).nm (raws 1000) false false) - 320)) &&
          !false &&
        !false) =
      true :=
  by decide +kernel

theorem witness_NightMailTick_6 :
    (inMode ModMode.shutdown true false).mod.mode = ModMode.shutdown ∧
    ((inMode ModMode.shutdown true false).mod.held = false ∨
      (((List.range 48).all fun i =>
              decide
                (rawOf (sampleTick (inMode ModMode.shutdown true false).nm (raws 1000) false false) i <
                  tSHUTDOWN (sampleTick (inMode ModMode.shutdown true false).nm (raws 1000) false false) -
                    320)) &&
            !false &&
          !false) =
        false) :=
  by decide +kernel

theorem witness_NightMailTick_7 :
    (inMode ModMode.shutdown true true).mod.mode = ModMode.shutdown ∧
    ((inMode ModMode.shutdown true true).mod.held = false ∨
      (((List.range 48).all fun i =>
              decide
                (rawOf (sampleTick (inMode ModMode.shutdown true true).nm (raws 1700) false false) i <
                  tSHUTDOWN (sampleTick (inMode ModMode.shutdown true true).nm (raws 1700) false false) - 320)) &&
            !false &&
          !false) =
        false) :=
  by decide +kernel

theorem witness_ClusterPower_1 :
    (getCl base 0).eff = (getCl base 0).run ∧
    (getCl base 0).effAt ≠ some base.meshCycle ∧
    ((getCl base 0).power ≠ PState.run ∨
      (getCl base 0).waking = true ∨ ∃ x, x ∈ clusterSites base 0 ∧ coreBusy (getCore base x) = true) ∧
    (getCl base 0).napOrder = false ∧
    (getCl base 0).offOrder = false ∧
    dark base = false ∧
    (getCl base 0).waking = false :=
  by decide +kernel

theorem witness_ClusterPower_2 :
    (eff3 false).meshCycle % 36 = 0 ∧
    (getCl (eff3 false) 0).effAt ≠ some (eff3 false).meshCycle ∧
    ((getCl (eff3 false) 0).run < (getCl (eff3 false) 0).eff ∨
      (getCl (eff3 false) 0).eff < (getCl (eff3 false) 0).run ∧
        Option.any (fun b => decide (b + 54000 ≤ (eff3 false).meshCycle)) (getCl (eff3 false) 0).raise = true) ∧
    ((getCl (eff3 false) 0).power ≠ PState.run ∨
      (getCl (eff3 false) 0).waking = true ∨
        ∃ x, x ∈ clusterSites (eff3 false) 0 ∧ coreBusy (getCore (eff3 false) x) = true) ∧
    (getCl (eff3 false) 0).napOrder = false ∧
    (getCl (eff3 false) 0).offOrder = false ∧
    dark (eff3 false) = false ∧
    (getCl (eff3 false) 0).waking = false :=
  by decide +kernel

theorem witness_ClusterPower_3 :
    (eff3 true).meshCycle % 36 = 0 ∧
    (getCl (eff3 true) 0).effAt ≠ some (eff3 true).meshCycle ∧
    ((getCl (eff3 true) 0).run < (getCl (eff3 true) 0).eff ∨
      (getCl (eff3 true) 0).eff < (getCl (eff3 true) 0).run ∧
        Option.any (fun b => decide (b + 54000 ≤ (eff3 true).meshCycle)) (getCl (eff3 true) 0).raise = true) ∧
    ((getCl (eff3 true) 0).power ≠ PState.run ∨
      (getCl (eff3 true) 0).waking = true ∨
        ∃ x, x ∈ clusterSites (eff3 true) 0 ∧ coreBusy (getCore (eff3 true) x) = true) ∧
    (getCl (eff3 true) 0).napOrder = false ∧
    (getCl (eff3 true) 0).offOrder = false ∧
    dark (eff3 true) = false ∧
    (getCl (eff3 true) 0).waking = false :=
  by decide +kernel

theorem witness_ClusterPower_4 :
    (rising 54000).meshCycle % 36 = 0 ∧
    (getCl (rising 54000) 0).effAt ≠ some (rising 54000).meshCycle ∧
    ((getCl (rising 54000) 0).run < (getCl (rising 54000) 0).eff ∨
      (getCl (rising 54000) 0).eff < (getCl (rising 54000) 0).run ∧
        Option.any (fun b => decide (b + 54000 ≤ (rising 54000).meshCycle)) (getCl (rising 54000) 0).raise = true) ∧
    ((getCl (rising 54000) 0).power ≠ PState.run ∨
      (getCl (rising 54000) 0).waking = true ∨
        ∃ x, x ∈ clusterSites (rising 54000) 0 ∧ coreBusy (getCore (rising 54000) x) = true) ∧
    (getCl (rising 54000) 0).napOrder = false ∧
    (getCl (rising 54000) 0).offOrder = false ∧
    dark (rising 54000) = false ∧
    (getCl (rising 54000) 0).waking = false :=
  by decide +kernel

theorem witness_ClusterPower_5 :
    (rising 53999).meshCycle % 36 ≠ 0 ∧
    (getCl (rising 53999) 0).eff < (getCl (rising 53999) 0).run ∧
    (getCl (rising 53999) 0).effAt ≠ some (rising 53999).meshCycle ∧
    (getCl (rising 53999) 0).raise = some 0 ∧
    (rising 53999).meshCycle < 0 + 54000 ∧
    ((getCl (rising 53999) 0).power ≠ PState.run ∨
      (getCl (rising 53999) 0).waking = true ∨
        ∃ x, x ∈ clusterSites (rising 53999) 0 ∧ coreBusy (getCore (rising 53999) x) = true) ∧
    (getCl (rising 53999) 0).napOrder = false ∧
    (getCl (rising 53999) 0).offOrder = false ∧
    dark (rising 53999) = false ∧
    (getCl (rising 53999) 0).waking = false :=
  by decide +kernel

theorem witness_ClusterPower_6 :
    (getCl stopped0 0).eff = (getCl stopped0 0).run ∧
    (getCl stopped0 0).effAt ≠ some stopped0.meshCycle ∧
    (getCl stopped0 0).power = PState.run ∧
    (getCl stopped0 0).waking = false ∧
    (∀ (x : Nat), x ∈ clusterSites stopped0 0 → coreBusy (getCore stopped0 x) = false) ∧
    (getCl stopped0 0).napOrder = false ∧
    (getCl stopped0 0).offOrder = false ∧
    dark stopped0 = false :=
  by decide +kernel

theorem witness_ClusterPower_7 :
    (getCl (napAsked false) 0).eff = (getCl (napAsked false) 0).run ∧
    (getCl (napAsked false) 0).effAt ≠ some (napAsked false).meshCycle ∧
    ((getCl (napAsked false) 0).power ≠ PState.run ∨
      (getCl (napAsked false) 0).waking = true ∨
        ∃ x, x ∈ clusterSites (napAsked false) 0 ∧ coreBusy (getCore (napAsked false) x) = true) ∧
    (getCl (napAsked false) 0).napOrder = true ∧
    (getCl (napAsked false) 0).offOrder = false ∧
    dark (napAsked false) = false ∧
    (getCl (napAsked false) 0).waking = false :=
  by decide +kernel

theorem witness_ClusterPower_8 :
    (getCl (offAsked 1) 0).eff = (getCl (offAsked 1) 0).run ∧
    (getCl (offAsked 1) 0).effAt ≠ some (offAsked 1).meshCycle ∧
    ((getCl (offAsked 1) 0).power ≠ PState.run ∨
      (getCl (offAsked 1) 0).waking = true ∨
        ∃ x, x ∈ clusterSites (offAsked 1) 0 ∧ coreBusy (getCore (offAsked 1) x) = true) ∧
    (getCl (offAsked 1) 0).napOrder = false ∧
    (getCl (offAsked 1) 0).offOrder = true ∧
    (getCl (offAsked 1) 0).wakeSeen = false ∧
    (getCl (offAsked 1) 0).service = Service.drained ∧
    BitVec.getLsbD (devGet (offAsked 1) (clBase 0 + 64)) 0 = true ∧
    (getCl (offAsked 1) 0).power ≠ PState.off ∧
    dark (offAsked 1) = false ∧
    (getCl (offAsked 1) 0).waking = false :=
  by decide +kernel

theorem witness_ClusterPower_9 :
    (getCl (offAsked 0) 0).eff = (getCl (offAsked 0) 0).run ∧
    (getCl (offAsked 0) 0).effAt ≠ some (offAsked 0).meshCycle ∧
    ((getCl (offAsked 0) 0).power ≠ PState.run ∨
      (getCl (offAsked 0) 0).waking = true ∨
        ∃ x, x ∈ clusterSites (offAsked 0) 0 ∧ coreBusy (getCore (offAsked 0) x) = true) ∧
    (getCl (offAsked 0) 0).napOrder = false ∧
    (getCl (offAsked 0) 0).offOrder = true ∧
    ((getCl (offAsked 0) 0).wakeSeen = true ∨
      (getCl (offAsked 0) 0).service ≠ Service.drained ∨
        BitVec.getLsbD (devGet (offAsked 0) (clBase 0 + 64)) 0 = false ∨ (getCl (offAsked 0) 0).power = PState.off) ∧
    dark (offAsked 0) = false ∧
    (getCl (offAsked 0) 0).waking = false :=
  by decide +kernel

theorem witness_ClusterPower_10 :
    (getCl napping 0).eff = (getCl napping 0).run ∧
    (getCl napping 0).effAt ≠ some napping.meshCycle ∧
    ((getCl napping 0).power ≠ PState.run ∨
      (getCl napping 0).waking = true ∨ ∃ x, x ∈ clusterSites napping 0 ∧ coreBusy (getCore napping x) = true) ∧
    (getCl napping 0).napOrder = false ∧
    (getCl napping 0).offOrder = false ∧
    dark napping = false ∧
    (getCl napping 0).waking = true ∧
    (getCl napping 0).heldUnits = [] :=
  by decide +kernel

theorem witness_ClusterPower_11 :
    (getCl heldSignal 0).eff = (getCl heldSignal 0).run ∧
    (getCl heldSignal 0).effAt ≠ some heldSignal.meshCycle ∧
    ((getCl heldSignal 0).power ≠ PState.run ∨
      (getCl heldSignal 0).waking = true ∨
        ∃ x, x ∈ clusterSites heldSignal 0 ∧ coreBusy (getCore heldSignal x) = true) ∧
    (getCl heldSignal 0).napOrder = false ∧
    (getCl heldSignal 0).offOrder = false ∧
    dark heldSignal = false ∧
    (getCl heldSignal 0).waking = true ∧
    (getCl heldSignal 0).heldUnits = [HeldUnit.msg (Msg.routed 0 5)] :=
  by decide +kernel

theorem witness_ManagementTarget_1 :
    (inMode ModMode.active false false).mod.mrst = false :=
  by decide +kernel

theorem witness_ManagementTarget_2 :
    (inMode ModMode.dormant true false).mod.mrst = true ∧
    (inMode ModMode.dormant true false).mod.mode ≠ ModMode.active ∧
    (inMode ModMode.dormant true false).mod.mode = ModMode.dormant :=
  by decide +kernel

theorem witness_ManagementTarget_3 :
    base.mod.mrst = true ∧
    base.mod.mode = ModMode.active ∧
    ((∃ c, isDrained base c = false) ∨ base.so.sealing.jobs ≠ [] ∨ ∃ p, p < 32 ∧ getPipe base p ≠ none) ∧
    base.mod.mode ≠ ModMode.dormant :=
  by decide +kernel

theorem witness_ManagementTarget_4 :
    allDrained.mod.mrst = true ∧
    allDrained.mod.mode = ModMode.active ∧
    (∀ (c : Fin 8), isDrained allDrained c = true) ∧
    allDrained.so.sealing.jobs = [] ∧
    (∀ (p : Nat), p < 32 → getPipe allDrained p = none) ∧
    allDrained.mod.mode ≠ ModMode.dormant :=
  by decide +kernel

theorem witness_Pins_1 :
    base.mod.mrst = true ∧
    base.mod.mode ≠ ModMode.shutdown ∧
    base.mod.waitInput = false ∧
    base.mod.refExt = false ∧
    (base.mod.mode = ModMode.shutdown → base.mod.held = false) :=
  by decide +kernel

theorem witness_Pins_2 :
    (inMode ModMode.active false false).mod.mrst = false ∧
    (inMode ModMode.active false false).mod.mode ≠ ModMode.shutdown :=
  by decide +kernel

theorem witness_Pins_3 :
    (inMode ModMode.shutdown true false).mod.mrst = true ∧
    (inMode ModMode.shutdown true false).mod.mode = ModMode.shutdown ∧
    (inMode ModMode.shutdown true false).mod.waitInput = false ∧
    (inMode ModMode.shutdown true false).mod.refExt = false ∧
    ((inMode ModMode.shutdown true false).mod.mode = ModMode.shutdown →
      (inMode ModMode.shutdown true false).mod.held = false) :=
  by decide +kernel

theorem witness_Pins_4 :
    (inMode ModMode.shutdown true true).mod.mrst = true ∧
    (inMode ModMode.shutdown true true).mod.mode = ModMode.shutdown ∧
    (inMode ModMode.shutdown true true).mod.waitInput = false ∧
    (inMode ModMode.shutdown true true).mod.refExt = false ∧
    (inMode ModMode.shutdown true true).mod.held = true :=
  by decide +kernel

theorem witness_Pins_5 :
    external.mod.mrst = true ∧
    external.mod.mode ≠ ModMode.shutdown ∧
    external.mod.waitInput = true ∧
    external.mod.refExt = true ∧
    (external.mod.mode = ModMode.shutdown → external.mod.held = false) :=
  by decide +kernel

theorem witness_Energy_1 :
    frOff.fr.powered = false :=
  by decide +kernel

theorem witness_Energy_2 :
    summed.fr.powered = true ∧
    summed.fr.samples = 4000 ∧
    summed.fr.update = none ∧
    summed.fr.fault.getLsbD 0 = true :=
  by decide +kernel

theorem witness_Energy_3 :
    base.fr.powered = true ∧
    base.fr.samples ≠ 4000 ∧
    base.fr.fault.getLsbD 7 = false :=
  by decide +kernel

theorem witness_Energy_4 :
    summed.fr.powered = true ∧
    summed.fr.samples = 4000 ∧
    summed.fr.update = none ∧
    summed.fr.fault.getLsbD 7 = false :=
  by decide +kernel

theorem witness_Energy_5 :
    summed.fr.powered = true ∧
    summed.fr.samples = 4000 ∧
    summed.fr.update = none ∧
    summed.fr.fault.getLsbD 7 = false :=
  by decide +kernel

theorem witness_Energy_6 :
    updating.fr.powered = true ∧
    updating.fr.samples = 4000 ∧
    updating.fr.update = some newImage ∧
    updating.so.frHole = some 63 ∧
    holeBusy updating 63 = true ∧
    updating.fr.fault.getLsbD 7 = false :=
  by decide +kernel

theorem witness_Accounts_1 :
    (frOff.fr.powered = false ∨ (report 7 7).intact = false) ∧
    frOff.fr.powered = false :=
  by decide +kernel

theorem witness_Accounts_2 :
    base.fr.powered = true ∧
    (report 0 7).intact = true ∧
    base.fr.startCopy = false :=
  by decide +kernel

theorem witness_Accounts_3 :
    (withFr base fun f =>
            { live := f.live, nv := f.nv, sums := f.sums, samples := f.samples, ranged := f.ranged,
              vmean := f.vmean, imean := f.imean, fault := f.fault, log := f.log, logNext := f.logNext,
              sealCnt := f.sealCnt, akey := f.akey, image := f.image, update := f.update,
              updSerial := f.updSerial, updResult := f.updResult, lastSeq := f.lastSeq, startCopy := true,
              incoming := f.incoming, linkOk := f.linkOk, sel := f.sel, powered := f.powered }).fr.powered =
      true ∧
    (report 0 7).intact = true ∧
    (withFr base fun f =>
            { live := f.live, nv := f.nv, sums := f.sums, samples := f.samples, ranged := f.ranged,
              vmean := f.vmean, imean := f.imean, fault := f.fault, log := f.log, logNext := f.logNext,
              sealCnt := f.sealCnt, akey := f.akey, image := f.image, update := f.update,
              updSerial := f.updSerial, updResult := f.updResult, lastSeq := f.lastSeq, startCopy := true,
              incoming := f.incoming, linkOk := f.linkOk, sel := f.sel, powered := f.powered }).fr.startCopy =
      true :=
  by decide +kernel

theorem witness_Accounts_4 :
    (lastSeq 7 0).fr.powered = true ∧
    (report 7 7).intact = true ∧
    (lastSeq 7 0).fr.startCopy = false :=
  by decide +kernel

theorem witness_Accounts_5 :
    (lastSeq 6 18446744073709551608).fr.powered = true ∧
    (report 7 7).intact = true ∧
    (lastSeq 6 18446744073709551608).fr.startCopy = false :=
  by decide +kernel

theorem witness_Accounts_6 :
    (lastSeq 6 18446744073709551609).fr.powered = true ∧
    (report 7 7).intact = true ∧
    (lastSeq 6 18446744073709551609).fr.startCopy = false :=
  by decide +kernel

theorem witness_Accounts_7 :
    (lastSeq 4 0).fr.powered = true ∧
    (report 7 7).intact = true ∧
    (lastSeq 4 0).fr.startCopy = false :=
  by decide +kernel

theorem witness_FrankingAccess_1 :
    frOff.fr.powered = false :=
  by decide +kernel

theorem witness_FrankingAccess_2 :
    imageSent.fr.powered = true ∧
    imageSent.fr.incoming = some [] ∧
    imageSent.so.frHole = none ∧
    mtrRecord imageSent 1 65535 = none ∧
    keyReason imageSent.fr goodKey [] = 0 :=
  by decide +kernel

theorem witness_FrankingAccess_3 :
    base.fr.powered = true ∧
    base.fr.incoming ≠ some [] ∧
    mtrRecord base 1 7 = some ((mtrRecord base 1 7).getD []) ∧
    keyReason base.fr badKey [] ≠ 0 :=
  by decide +kernel

theorem witness_MeshCycle_1 :
    (inMode ModMode.dormant true false).pending = [] ∧
    meshRuns (inMode ModMode.dormant true false) = false :=
  by decide +kernel

theorem witness_MeshCycle_2 :
    slow4.pending = [] ∧
    meshRuns slow4 = true ∧
    NothingDue slow4 :=
  join2 (by decide +kernel) ⟨by decide +kernel, by decide +kernel, by decide +kernel, by decide +kernel,
    by decide +kernel, by decide +kernel, by decide +kernel⟩

theorem witness_MeshCycle_3 :
    full3.pending = [] ∧
    meshRuns full3 = true ∧
    NothingDue full3 :=
  join2 (by decide +kernel) ⟨by decide +kernel, by decide +kernel, by decide +kernel, by decide +kernel,
    by decide +kernel, by decide +kernel, by decide +kernel⟩

/-! ### Conditions met where a statement speaks of what a step does -/

/-- C1 is copied to C3: the result is tagged, and the copy completes (`Claim.CapabilityMonotone`). -/
theorem witness_CapabilityMonotone :
    Ready (one run) (.core 0) 0 0 ∧
    RunsTo (one run) (.kcopy (.core 0) 0 2 0) 0 0 (nextPc (setCapReg (getTh (one run) 0 0) 2 rootC1)) ∧
    rootC1.tag = true := by
  have h : Ready (one run) (.core 0) 0 0 := ⟨by decide +kernel, by decide +kernel, by decide +kernel⟩
  refine ⟨h, ?_, rfl⟩
  obtain ⟨s', h1, h2⟩ := regOp_completes h (fun th => setCapReg th 2 (capReg th 0))
  exact ⟨s', h1, h2⟩

/-- The memories of the reset state are canonical, and it steps (`Claim.MemoryInvKept`). -/
theorem witness_MemoryInvKept : MemoryInv State.reset ∧ ∃ s', step State.reset = .next s' :=
  ⟨⟨fun _ => by simp [getCore, State.reset, coreDefault, Core.reset, Core.resetSo, apply_ite Core.mem], rfl, rfl,
    by decide, rfl, rfl⟩, _, rfl⟩

/-! ### Commands that name nothing on the part are ill-formed -/

theorem test_wf_cpu : Instr.wf (.ld (.core 544) 0 2 0) = false ∧ Instr.wf (.ld (.core 543) 0 2 0) = true := by decide
theorem test_wf_core : Instr.wf (.vadd 544 0 0 0 0 0 0 0) = false ∧ Instr.wf (.vadd 543 0 0 0 0 0 0 0) = true := by decide
theorem test_wf_slice : Instr.wf (.sliceScrub 0 48) = false ∧ Instr.wf (.sliceScrub 0 47) = true := by decide
theorem test_wf_unit :
    Instr.wf (.hbmUnitService 0x8700000000 none) = false ∧ Instr.wf (.hbmUnitService 0x86FFFFFFE0 none) = false ∧
      Instr.wf (.hbmUnitService 0x86FFFFFFC0 none) = true := by decide
theorem test_wf_frame :
    Instr.wf (.trainingFrame 0 (List.replicate 31 0)) = false ∧ Instr.wf (.trainingFrame 0 (List.replicate 32 0)) = true := by
  decide
theorem test_wf_parcel : Instr.wf (.stageDispatch 8192) = false ∧ Instr.wf (.stageDispatch 8191) = true := by decide
theorem test_wf_inputs : Instr.wf (.nightMailTick [0] true true) = false := by decide
theorem test_wf_key :
    Instr.wf (.keyset (List.replicate 96 0) []) = false ∧ Instr.wf (.keyset (List.replicate 97 0) [1]) = false ∧
      Instr.wf (.keyset (List.replicate 97 0) []) = true := by decide
theorem test_wf_sample : Instr.wf (.frankingSample [0] (List.replicate 8 0)) = false := by decide
theorem test_wf_register :
    Instr.wf (.registerWrite (.dev 2) 0) = false ∧ Instr.wf (.registerWrite (.core 544 0) 0) = false ∧
      Instr.wf (.registerWrite (.so 0 4) 0) = true := by decide
theorem test_wf_test : Instr.wf (.testComplete 0 ⟨false, 0, [(576, true)]⟩) = false := by decide
theorem test_wf_site : Instr.wf (.jtagSelect 576 .select) = false ∧ Instr.wf (.jtagSelect 575 .select) = true := by decide

/-! ### Words of the core's instructions, from their encodings -/

/-- R46, and the last word of Example 4: ST.W [0x4200]. -/
theorem test_word_store :
    decodeCoreWord (.core 0) 1 0x08B04200 = some (.st (.core 0) 1 0b10 (0b11#2 ++ 0x04200#20)) := by decide
/-- R53: major 0x03, op 010, an immediate. -/
theorem test_word_sub_immediate :
    decodeCoreWord (.so 3) 0 (0b00011#5 ++ 0b010#3 ++ 0xFFFFFF#24) = some (.sub (.so 3) 0 (.imm 0xFFFFFF)) := by decide
/-- R54: LDIH, whose bits 23 to 16 must be zero (R10). -/
theorem test_word_ldih :
    decodeCoreWord (.core 0) 0 (0b00100#5 ++ 0b001#3 ++ 0x00BEEF#24) = some (.ldih (.core 0) 0 0xBEEF) ∧
      decodeCoreWord (.core 0) 0 (0b00100#5 ++ 0b001#3 ++ 0x01BEEF#24) = none := by decide
/-- R55: NOP and MACCLR, as the spec writes them. -/
theorem test_word_x :
    decodeCoreWord (.core 0) 0 0x28000000 = some (.nop (.core 0) 0) ∧
      decodeCoreWord (.core 0) 0 0x2AA00000 = some (.macclr (.core 0) 0) := by decide
/-- R61: the BNE of Example 4, 17 words back. -/
theorem test_word_branch :
    decodeCoreWord (.core 0) 0 (0x40000000 + (1 <<< 23) + 0x7FFFEF) = some (.branch (.core 0) 0 1 0x7FFFEF) := by decide
/-- R90 and R89: KCOPY C1, DDC and GATE 2, as the spec writes them. -/
theorem test_word_capability :
    decodeCoreWord (.core 0) 0 0x80180000 = some (.kcopy (.core 0) 0 0 6) ∧
      decodeCoreWord (.core 0) 0 0x98000002 = some (.gate (.core 0) 0 2) := by decide
/-- R315: major 0x15, op 000; FSIG is ILLEGAL on a control core (R484). -/
theorem test_word_signal :
    decodeCoreWord (.core 0) 3 (0b10101#5 ++ 0b000#3 ++ 0b01#2 ++ 0b111111#6 ++ 0b101#3 ++ 0#7 ++ 0b100001#6) =
        some (.fsig 0 3 0b01 0b111111 0b101 0b100001) ∧
      decodeCoreWord (.so 0) 3 (0b10101#5 ++ 0b000#3 ++ 0#24) = none := by decide
/-- The words of Example 10. -/
theorem test_word_vector :
    decodeCoreWord (.core 0) 0 0xD8108000 = some (.vld 0 0 1 2 false 0) ∧
      decodeCoreWord (.core 0) 0 0xCB333000 = some (.vxor 0 0 3 3 3) ∧
      decodeCoreWord (.core 0) 0 0xD3312330 = some (.vrdot 0 0 3 1 2 3 3 0) ∧
      decodeCoreWord (.core 0) 0 0xD6030000 = some (.vget 0 0 3 0) := by decide
/-- R219: MMA and TFENCE. -/
theorem test_word_tile :
    decodeCoreWord (.core 0) 0 (0b11100#5 ++ 0b000#3 ++ 0b110#3 ++ 0b101#3 ++ 0b11#2 ++ 0#16) = some (.mma 0 0 3 6 5) ∧
      decodeCoreWord (.core 0) 0 0xF0000000 = some (.tfence 0 0) := by decide
/-- R10: major 0x1F, and the word of zeros (R48). -/
theorem test_word_illegal :
    decodeCoreWord (.core 0) 0 0xF8000000 = none ∧ decodeCoreWord (.core 0) 0 0 = none := by decide

/-! ### Numbers of the spec's examples -/

/-- Example 8 in fast mode: 464, −1000, +∞, 5.3, 5.25, 0.0025 and NaN in FP8 E4M3. -/
theorem test_example8_fast :
    [0x43E80000, 0xC47A0000, 0x7F800000, 0x40A9999A, 0x40A80000, 0x3B23D70A, 0x7FC00000].map
      (fun c => (roundTo .fast 3 (decodeIn .fast 0 c)).code) = [0x7E, 0xFE, 0x7E, 0x4B, 0x4A, 0x00, 0x7F] := by
  decide +kernel
/-- Example 8 in strict mode: 0.0025 and 0.0009. -/
theorem test_example8_strict :
    [0x3B23D70A, 0x3A6BEDFA].map (fun c => (roundTo .strict 3 (decodeIn .strict 0 c)).code) = [0x01, 0x00] := by
  decide +kernel

/-! ### The queue -/

/-- The front of the queue runs, and its rest stays. -/
theorem test_step_front :
    ∃ s', step { one run with pending := [.clrev (.core 0) 0, .nop (.core 0) 0] } = .next s' ∧
      s'.pending = [.nop (.core 0) 0] := ⟨_, rfl, rfl⟩
/-- No row of the table has bits, so no word spells a command. -/
theorem test_table_word : decodeTableWord 32 0x28000000 = none ∧ (State.reset.withFetchWord 32 0x28000000).pending = [] := by
  decide

end Sys2Proof.Tests
end

section
/-! PROOFS. The words of a core's instructions (O6): encoder and decoder compared field by field. -/
namespace Sys2Proof.Machine

/-! ### Fields of a word -/

/-- The bits of the word `w` from `lo` up spell `x`. -/
def HasField (w : Word) (lo : Nat) {n : Nat} (x : BitVec n) : Prop := wfield w lo n = x

@[simp] theorem hasField_wfield (w : Word) (lo n : Nat) : HasField w lo (wfield w lo n) := rfl

theorem hasField_of_toNat {w : Word} {lo n k : Nat} (h : (wfield w lo n).toNat = k) :
    HasField w lo (BitVec.ofNat n k) := by
  rw [← h, BitVec.ofNat_toNat, BitVec.setWidth_eq]; rfl

/-- Two fields that stand side by side. -/
theorem hasField_append {w : Word} {lo m k : Nat} (x : BitVec m) (y : BitVec k) :
    HasField w lo (BitVec.append x y) ↔ HasField w (lo + k) x ∧ HasField w lo y := by
  rw [BitVec.append_eq]
  constructor
  · intro h
    unfold HasField wfield at h ⊢
    rw [← BitVec.extractLsb'_append_extractLsb'_eq_extractLsb' (start₂ := lo + k) rfl] at h
    have hx := congrArg (fun v => v.extractLsb' k m) h
    have hy := congrArg (fun v => v.extractLsb' 0 k) h
    simp only [BitVec.extractLsb'_append_eq_left, BitVec.extractLsb'_append_eq_right] at hx hy
    exact ⟨hx, hy⟩
  · rintro ⟨rfl, rfl⟩
    exact (BitVec.extractLsb'_append_extractLsb'_eq_extractLsb' rfl).symm

theorem hasField_bit1 {w : Word} {lo : Nat} (b : Bool) : HasField w lo (bit1 b) ↔ w.getLsbD lo = b := by
  have h : (wfield w lo 1).getLsbD 0 = w.getLsbD lo := by simp [wfield]
  constructor
  · intro e
    rw [← h, e]
    cases b <;> rfl
  · rintro rfl
    refine BitVec.eq_of_getLsbD_eq fun i hi => ?_
    obtain rfl : i = 0 := by omega
    rw [h]
    cases w.getLsbD lo <;> rfl

/-- A run of `n` zeros, cut in two: the upper `m` and the lower `k`. -/
theorem hasField_zero_split {w : Word} {lo n : Nat} (m k : Nat) (hn : n = m + k) :
    HasField w lo 0#n ↔ HasField w (lo + k) 0#m ∧ HasField w lo 0#k := by
  subst hn
  rw [← hasField_append, BitVec.append_eq]
  have h : (0#m ++ 0#k : BitVec (m + k)) = 0#(m + k) := by simp
  rw [h]

/-- Three zeros, the uppermost as a bit. -/
theorem hasField_zero_three {w : Word} {lo : Nat} :
    HasField w lo 0#3 ↔ w.getLsbD (lo + 2) = false ∧ HasField w lo 0#2 := by
  rw [← hasField_bit1]; exact hasField_zero_split 1 2 rfl

theorem hasField_one {w : Word} {lo : Nat} : HasField w lo 1#1 ↔ w.getLsbD lo = true := hasField_bit1 true

theorem eq_iff_hasField {w v : Word} : v = w ↔ HasField w 0 v := by
  simp [HasField, wfield, eq_comm]

theorem ne_zero_of_hasField {w : Word} {lo n : Nat} {x : BitVec n} (h : HasField w lo x) (hx : x ≠ 0) : w ≠ 0 := by
  rintro rfl
  exact hx (h.symm.trans BitVec.extractLsb'_zero)

theorem ifZero_eq_some {w : Word} {lo n : Nat} {i j : Instr} :
    ifZero w lo n i = some j ↔ HasField w lo 0#n ∧ i = j := by
  simp [ifZero, HasField]

/-- A choice by a test, taken apart. -/
theorem ite_cases {α : Type} {c : Prop} [Decidable c] {a b x : α} (h : (if c then a else b) = x) :
    c ∧ a = x ∨ ¬c ∧ b = x := by
  by_cases hc : c
  · rw [if_pos hc] at h; exact .inl ⟨hc, h⟩
  · rw [if_neg hc] at h; exact .inr ⟨hc, h⟩

/-- The values of an op (R10). -/
theorem lt_eight {n : Nat} (h : n < 8) :
    n = 0 ∨ n = 1 ∨ n = 2 ∨ n = 3 ∨ n = 4 ∨ n = 5 ∨ n = 6 ∨ n = 7 := by
  omega

/-- The word of the common form, by its fields (R10). -/
theorem wordOf_eq_some {cpu c : Cpu} {t u : Fin 4} {major op rest} {w : Word} :
    wordOf cpu t major op rest = some (c, u, w) ↔
      cpu = c ∧ t = u ∧ HasField w 27 major ∧ HasField w 24 op ∧ HasField w 0 rest := by
  simp only [wordOf, Option.some.injEq, Prod.mk.injEq]
  rw [eq_iff_hasField]
  simp only [HAppend.hAppend, hasField_append]
  simp [and_assoc]

/-- A word of the forms that have no op: its pieces spell it. -/
theorem some_word_eq_some {cpu c : Cpu} {t u : Fin 4} {v w : Word} :
    some (cpu, t, v) = some (c, u, w) ↔ cpu = c ∧ t = u ∧ HasField w 0 v := by
  simp only [Option.some.injEq, Prod.mk.injEq, eq_iff_hasField (v := v)]


section
variable {cpu : Cpu} {core : Nat} {t : Fin 4} {major op : Nat} {w : Word} {i : Instr}

/-! ### A word that decodes is the encoding of what it decodes to -/

theorem encode_of_decodeMem (hm : HasField w 27 (BitVec.ofNat 5 major)) (ho : HasField w 24 (BitVec.ofNat 3 op))
    (h : decodeMem cpu t major op w = some i) : encodeCoreWord i = some (cpu, t, w) := by
  unfold decodeMem at h
  split at h <;> simp only [decodeM, Option.some.injEq, reduceCtorEq] at h
  all_goals
    subst h
    simp only [encodeCoreWord, wordOf_eq_some, HAppend.hAppend, hasField_append]
    simpa using And.intro hm ho

/-- The operand of majors 0x02 and 0x03 stands in the word (R53). -/
def SrcIn (w : Word) : AluSrc → Prop
  | .mem sz m => HasField w 27 0x02#5 ∧ HasField w 22 sz ∧ HasField w 0 m
  | .imm i => HasField w 27 0x03#5 ∧ HasField w 0 i

theorem encodeAlu_eq_some {c : Cpu} {u : Fin 4} {o : BitVec 3} {src : AluSrc} :
    encodeAlu cpu t o src = some (c, u, w) ↔ cpu = c ∧ t = u ∧ HasField w 24 o ∧ SrcIn w src := by
  cases src <;> simp only [encodeAlu, wordOf_eq_some, SrcIn, HAppend.hAppend, hasField_append] <;> simp [and_left_comm]

theorem encode_of_decodeAlu {src : AluSrc} (ho : HasField w 24 (BitVec.ofNat 3 op)) (hop : op < 8) (hs : SrcIn w src)
    (h : decodeAlu cpu t op src = some i) : encodeCoreWord i = some (cpu, t, w) := by
  rcases lt_eight hop with rfl | rfl | rfl | rfl | rfl | rfl | rfl | rfl <;>
    simp only [decodeAlu, Option.some.injEq] at h
  all_goals
    subst h
    exact encodeAlu_eq_some.2 ⟨rfl, rfl, ho, hs⟩

theorem encode_of_decodeImm (hm : HasField w 27 4#5) (ho : HasField w 24 (BitVec.ofNat 3 op)) (hop : op < 8)
    (h : decodeImm cpu t op w = some i) : encodeCoreWord i = some (cpu, t, w) := by
  by_cases hldih : op = 1
  · subst hldih
    simp only [decodeImm, ifZero_eq_some] at h
    obtain ⟨hz, rfl⟩ := h
    simp only [encodeCoreWord, wordOf_eq_some, HAppend.hAppend, hasField_append]
    simpa using ⟨hm, ho, hz⟩
  · rcases lt_eight hop with rfl | rfl | rfl | rfl | rfl | rfl | rfl | rfl <;>
      simp only [decodeImm, Option.some.injEq, not_true_eq_false] at h hldih
    all_goals
      subst h
      simpa [encodeCoreWord, wordOf_eq_some] using And.intro hm ho

theorem encode_of_decodeShift {f : Nat} (hm : HasField w 27 5#5) (hf : HasField w 21 (BitVec.ofNat 6 f))
    (hz : HasField w 5 0#16) (h : decodeShift cpu t f (wfield w 0 5) = some i) :
    encodeCoreWord i = some (cpu, t, w) := by
  unfold decodeShift at h
  split at h <;> simp only [Option.some.injEq, reduceCtorEq] at h
  all_goals
    subst h
    simp only [encodeCoreWord, some_word_eq_some, HAppend.hAppend, hasField_append]
    simpa using ⟨⟨hm, hf⟩, hz⟩

theorem encode_of_decodeUnary {f : Nat} (hm : HasField w 27 5#5) (hf : HasField w 21 (BitVec.ofNat 6 f))
    (hz : HasField w 5 0#16) (hn : HasField w 0 0#5) (h : decodeUnary cpu t f = some i) :
    encodeCoreWord i = some (cpu, t, w) := by
  have hr : HasField w 0 0#21 := (hasField_zero_split 16 5 rfl).2 ⟨hz, hn⟩
  unfold decodeUnary at h
  split at h <;> simp only [Option.some.injEq, reduceCtorEq] at h
  all_goals
    subst h
    simp only [encodeCoreWord, some_word_eq_some, HAppend.hAppend, hasField_append]
    simpa using ⟨⟨hm, hf⟩, hr⟩

theorem encode_of_decodeX (hm : HasField w 27 5#5) (h : decodeX cpu t w = some i) :
    encodeCoreWord i = some (cpu, t, w) := by
  unfold decodeX at h
  split at h
  · simp at h
  · next hz =>
    have hz : HasField w 5 0#16 := Classical.not_not.1 hz
    have hf : HasField w 21 (BitVec.ofNat 6 (wfield w 21 6).toNat) := hasField_of_toNat rfl
    dsimp only at h
    split at h
    · next e => exact encode_of_decodeShift hm hf hz (e.trans h)
    · split at h
      · next hn => exact encode_of_decodeUnary hm hf hz hn h
      · simp at h

theorem encode_of_decodeD (hm : HasField w 27 6#5) (ho : HasField w 24 (BitVec.ofNat 3 op))
    (h : decodeD cpu t op w = some i) : encodeCoreWord i = some (cpu, t, w) := by
  unfold decodeD at h
  split at h <;> simp only [ifZero_eq_some, reduceCtorEq] at h
  all_goals
    obtain ⟨hz, rfl⟩ := h
    simp only [encodeCoreWord, wordOf_eq_some, HAppend.hAppend, hasField_append, hasField_bit1]
    simpa using ⟨hm, ho, hz⟩

theorem encode_of_decodeJ (hm : HasField w 27 9#5) (ho : HasField w 24 (BitVec.ofNat 3 op))
    (h : decodeJ cpu t op w = some i) : encodeCoreWord i = some (cpu, t, w) := by
  unfold decodeJ at h
  split at h <;> simp only [ifZero_eq_some, Option.some.injEq, reduceCtorEq] at h
  case h_1 | h_2 =>
    subst h
    simpa [encodeCoreWord, wordOf_eq_some] using And.intro hm ho
  all_goals
    obtain ⟨hz, rfl⟩ := h
    simpa [encodeCoreWord, wordOf_eq_some] using ⟨hm, ho, hz⟩

theorem encode_of_decodeCap (hm : HasField w 27 (BitVec.ofNat 5 major)) (ho : HasField w 24 (BitVec.ofNat 3 op))
    (h : decodeCap cpu t major op w = some i) : encodeCoreWord i = some (cpu, t, w) := by
  unfold decodeCap at h
  split at h <;>
    simp only [ifZero_eq_some, Option.some.injEq, reduceCtorEq, Option.ite_none_right_eq_some, ← and_assoc] at h
  case h_11 =>
    split at h
    · simp at h
    · next hz =>
      split at h <;> simp only [Option.some.injEq, reduceCtorEq, Option.ite_none_right_eq_some] at h
      all_goals
        obtain ⟨hf, rfl⟩ := h
        simp only [encodeCoreWord, wordOf_eq_some, HAppend.hAppend, hasField_append]
        simp_all [HasField]
  case h_6 | h_7 =>
    obtain ⟨hz, rfl⟩ := h
    simp only [encodeCoreWord, wordOf_eq_some, HAppend.hAppend, hasField_append, hasField_zero_split (n := 21) 3 18 rfl]
    simp_all [HasField]
  all_goals
    obtain ⟨hz, rfl⟩ := h
    simp only [encodeCoreWord, wordOf_eq_some, HAppend.hAppend, hasField_append]
    simp_all [HasField]

theorem encode_of_decodeSys (hm : HasField w 27 (BitVec.ofNat 5 major)) (ho : HasField w 24 (BitVec.ofNat 3 op))
    (h : decodeSys cpu t major op w = some i) : encodeCoreWord i = some (cpu, t, w) := by
  unfold decodeSys at h
  split at h <;> simp only [ifZero_eq_some, reduceCtorEq] at h
  all_goals
    obtain ⟨hz, rfl⟩ := h
    simp only [encodeCoreWord, wordOf_eq_some, HAppend.hAppend, hasField_append]
    simpa using ⟨hm, ho, hz⟩

theorem encode_of_decodePost (hm : HasField w 27 (BitVec.ofNat 5 major)) (ho : HasField w 24 (BitVec.ofNat 3 op))
    (h : decodePost core t major op w = some i) : encodeCoreWord i = some (.core core, t, w) := by
  have hsub : HasField w 22 (BitVec.ofNat 2 (wfield w 22 2).toNat) := hasField_of_toNat rfl
  unfold decodePost at h
  split at h
  case h_1 =>
    have hlt : (wfield w 22 2).toNat < 4 := (wfield w 22 2).isLt
    dsimp only at h
    generalize (wfield w 22 2).toNat = sub at h hsub hlt
    obtain rfl | rfl | rfl | rfl : sub = 0 ∨ sub = 1 ∨ sub = 2 ∨ sub = 3 := by omega
    all_goals simp only [ifZero_eq_some] at h
    all_goals
      obtain ⟨hz, rfl⟩ := h
      simp only [encodeCoreWord, wordOf_eq_some, HAppend.hAppend, hasField_append, BitVec.ofNat_eq_ofNat,
        hasField_zero_split (n := 24) 2 22 rfl]
      simp_all
  all_goals
    simp only [ifZero_eq_some, Option.ite_none_right_eq_some, reduceCtorEq] at h
  case h_6 | h_7 =>
    obtain ⟨hz, hz', rfl⟩ := h
    simp only [encodeCoreWord, wordOf_eq_some, HAppend.hAppend, hasField_append]
    simpa using ⟨hm, ho, hz, hz'⟩
  all_goals
    obtain ⟨hz, rfl⟩ := h
    simp only [encodeCoreWord, wordOf_eq_some, HAppend.hAppend, hasField_append]
    simpa using ⟨hm, ho, hz⟩

theorem encode_of_decodeVector (hm : HasField w 27 (BitVec.ofNat 5 major)) (ho : HasField w 24 (BitVec.ofNat 3 op))
    (h : decodeVector core t major op w = some i) : encodeCoreWord i = some (.core core, t, w) := by
  unfold decodeVector at h
  split at h <;> simp only [ifZero_eq_some, Option.some.injEq, Option.ite_none_right_eq_some, reduceCtorEq] at h
  case h_1 | h_2 | h_3 | h_4 | h_5 | h_6 | h_7 | h_9 | h_18 | h_23 | h_24 =>
    subst h
    simp only [encodeCoreWord, wordOf_eq_some, HAppend.hAppend, hasField_append, hasField_bit1]
    simpa using And.intro hm ho
  case h_10 | h_11 | h_12 | h_13 =>
    obtain ⟨hz, rfl⟩ := h
    simp only [encodeCoreWord, wordOf_eq_some, HAppend.hAppend, hasField_append]
    simpa using ⟨hm, ho, hz⟩
  all_goals
    obtain ⟨hz, rfl⟩ := h
    simp only [encodeCoreWord, wordOf_eq_some, HAppend.hAppend, hasField_append, hasField_zero_split (n := 16) 4 12 rfl,
      hasField_zero_split (n := 12) 4 8 rfl, hasField_zero_split (n := 8) 4 4 rfl]
    simp_all [HasField]

theorem encode_of_decodeTile (hm : HasField w 27 (BitVec.ofNat 5 major)) (ho : HasField w 24 (BitVec.ofNat 3 op))
    (h : decodeTile core t major op w = some i) : encodeCoreWord i = some (.core core, t, w) := by
  unfold decodeTile at h
  split at h <;>
    simp only [ifZero_eq_some, Option.some.injEq, Option.ite_none_right_eq_some, reduceCtorEq, ← and_assoc] at h
  case h_5 | h_6 =>
    subst h
    simp only [encodeCoreWord, wordOf_eq_some, HAppend.hAppend, hasField_append, hasField_bit1]
    simpa using And.intro hm ho
  case h_4 =>
    obtain ⟨hz, rfl⟩ := h
    by_cases hb : w.getLsbD 10 = true
    all_goals
      simp only [hb, encodeCoreWord, wordOf_eq_some, HAppend.hAppend, hasField_append, hasField_bit1,
        hasField_zero_three (lo := 8), hasField_one, if_true, Bool.false_eq_true, if_false]
      simp_all [HasField]
  all_goals
    obtain ⟨hz, rfl⟩ := h
    simp only [encodeCoreWord, wordOf_eq_some, HAppend.hAppend, hasField_append, hasField_bit1,
      hasField_zero_split (n := 6) 3 3 rfl]
    simp_all [HasField]

/-- Each branch of the decoder has read every bit of the word: its fields give the encoding. -/
theorem encode_of_decode (h : decodeCoreWord cpu t w = some i) : encodeCoreWord i = some (cpu, t, w) := by
  have hm : HasField w 27 (BitVec.ofNat 5 (wfield w 27 5).toNat) := hasField_of_toNat rfl
  have ho : HasField w 24 (BitVec.ofNat 3 (wfield w 24 3).toNat) := hasField_of_toNat rfl
  have hop : (wfield w 24 3).toNat < 8 := (wfield w 24 3).isLt
  unfold decodeCoreWord at h
  dsimp only at h
  generalize (wfield w 27 5).toNat = major at h hm
  generalize (wfield w 24 3).toNat = op at h ho hop
  obtain ⟨_, h⟩ | ⟨_, h⟩ := ite_cases h
  · simp at h
  obtain ⟨_, h⟩ | ⟨_, h⟩ := ite_cases h
  · exact encode_of_decodeMem hm ho h
  obtain ⟨rfl, h⟩ | ⟨_, h⟩ := ite_cases h
  · exact encode_of_decodeAlu (src := .mem _ _) ho hop ⟨hm, rfl, rfl⟩ h
  obtain ⟨rfl, h⟩ | ⟨_, h⟩ := ite_cases h
  · exact encode_of_decodeAlu (src := .imm _) ho hop ⟨hm, rfl⟩ h
  obtain ⟨rfl, h⟩ | ⟨_, h⟩ := ite_cases h
  · exact encode_of_decodeImm hm ho hop h
  obtain ⟨rfl, h⟩ | ⟨_, h⟩ := ite_cases h
  · exact encode_of_decodeX hm h
  obtain ⟨rfl, h⟩ | ⟨_, h⟩ := ite_cases h
  · exact encode_of_decodeD hm ho h
  obtain ⟨rfl, h⟩ | ⟨_, h⟩ := ite_cases h
  · obtain rfl := Option.some.inj h
    simp only [encodeCoreWord, some_word_eq_some, HAppend.hAppend, hasField_append]
    simpa using hm
  obtain ⟨rfl, h⟩ | ⟨_, h⟩ := ite_cases h
  · exact encode_of_decodeJ hm ho h
  obtain ⟨_, h⟩ | ⟨_, h⟩ := ite_cases h
  · exact encode_of_decodeCap hm ho h
  obtain ⟨_, h⟩ | ⟨_, h⟩ := ite_cases h
  · exact encode_of_decodeSys hm ho h
  cases cpu with
  | so k => simp at h
  | core n =>
    obtain ⟨_, h⟩ | ⟨_, h⟩ := ite_cases h
    · exact encode_of_decodePost hm ho h
    obtain ⟨_, h⟩ | ⟨_, h⟩ := ite_cases h
    · exact encode_of_decodeVector hm ho h
    · exact encode_of_decodeTile hm ho h


/-! ### The encoding of an instruction decodes to it -/

theorem ne_zero_of_head {mj : BitVec 5} {o : BitVec 3} (hm : HasField w 27 mj) (ho : HasField w 24 o)
    (hne : mj ≠ 0 ∨ o ≠ 0) : w ≠ 0#32 :=
  hne.elim (ne_zero_of_hasField hm) (ne_zero_of_hasField ho)

/-- Encoding and then decoding gives the instruction back: each form's fields select its branch of the decoder. -/
theorem decode_of_encode (h : encodeCoreWord i = some (cpu, t, w)) : decodeCoreWord cpu t w = some i := by
  cases i
  all_goals
    simp only [encodeCoreWord, encodeAlu_eq_some, wordOf_eq_some, some_word_eq_some, HAppend.hAppend, hasField_append,
      hasField_bit1, and_assoc, Nat.zero_add, reduceCtorEq] at h
  case ld | ldu | ldx | ldy | leax | leay | st | stx | sty | stz | xch | mul | mulh | mulhu | div | divu | rem | remu =>
    obtain ⟨rfl, rfl, hm, ho, h⟩ := h
    have h0 := ne_zero_of_head hm ho (by decide)
    simp_all [HasField, decodeCoreWord, decodeMem, decodeM]
  case add | adc | sub | sbc | and | or | xor | cmp =>
    obtain ⟨rfl, rfl, ho, h⟩ := h
    cases ‹AluSrc›
    all_goals
      have h0 := ne_zero_of_head h.1 ho (by decide)
      simp_all [HasField, SrcIn, decodeCoreWord, decodeAlu]
  case ldi | lix | liy | addx | addy | cmpx | cmpy | ldih =>
    obtain ⟨rfl, rfl, hm, ho, h⟩ := h
    have h0 := ne_zero_of_head hm ho (by decide)
    simp_all [HasField, decodeCoreWord, decodeImm, ifZero]
  case shl | shr | sar | rol | macsh =>
    obtain ⟨rfl, rfl, hm, h⟩ := h
    have h0 : w ≠ 0#32 := ne_zero_of_hasField hm (by decide)
    simp_all [HasField, decodeCoreWord, decodeX, decodeShift]
  case nop | neg | not | abs | sexb | sexh | zexb | zexh | clz | popc | tax | tay | txa | tya | swxy | gfl | sfl | macclr |
      rdg =>
    obtain ⟨rfl, rfl, hm, h⟩ := h
    simp only [hasField_zero_split (n := 21) 16 5 rfl] at h
    have h0 : w ≠ 0#32 := ne_zero_of_hasField hm (by decide)
    simp_all [HasField, decodeCoreWord, decodeX, decodeShift, decodeUnary]
  case macd | msbd | muld =>
    obtain ⟨rfl, rfl, hm, ho, h⟩ := h
    have h0 := ne_zero_of_head hm ho (by decide)
    simp_all [HasField, decodeCoreWord, decodeD, ifZero, -BitVec.getLsbD_eq_getElem]
  case branch =>
    obtain ⟨rfl, rfl, hm, h⟩ := h
    have h0 : w ≠ 0#32 := ne_zero_of_hasField hm (by decide)
    simp_all [HasField, decodeCoreWord]
  case jmp | call | jx | callx | ret | rspop | rspush =>
    obtain ⟨rfl, rfl, hm, ho, h⟩ := h
    have h0 := ne_zero_of_head hm ho (by decide)
    simp_all [HasField, decodeCoreWord, decodeJ, ifZero]
  case kcopy | kaim | knarrow | kmask | kread | kwrap | kunwrap | setg | ldk | stk | xld | xldu | xst =>
    obtain ⟨rfl, rfl, hm, ho, h⟩ := h
    have h0 := ne_zero_of_head hm ho (by decide)
    simp_all [HasField, decodeCoreWord, decodeCap, ifZero]
  case kvoid | khere =>
    obtain ⟨rfl, rfl, hm, ho, h⟩ := h
    simp only [hasField_zero_split (n := 21) 3 18 rfl] at h
    have h0 := ne_zero_of_head hm ho (by decide)
    simp_all [HasField, decodeCoreWord, decodeCap, ifZero]
  case gate | rgate | eret | escret | closureClose | closureOpen | fence | wfe | sev | clrev =>
    obtain ⟨rfl, rfl, hm, ho, h⟩ := h
    have h0 := ne_zero_of_head hm ho (by decide)
    simp_all [HasField, decodeCoreWord, decodeSys, ifZero]
  case pstw =>
    obtain ⟨rfl, rfl, hm, ho, h⟩ := h
    simp only [BitVec.ofNat_eq_ofNat, hasField_zero_split (n := 24) 2 22 rfl] at h
    have h0 := ne_zero_of_head hm ho (by decide)
    simp_all [HasField, decodeCoreWord, decodePost, ifZero]
  case pclr | pget | pret | post | postq | rsend | fsig | fwait | ftry | fget | bar | barv | bwait =>
    obtain ⟨rfl, rfl, hm, ho, h⟩ := h
    have h0 := ne_zero_of_head hm ho (by decide)
    simp_all [HasField, decodeCoreWord, decodePost, ifZero]
  case vadd | vsub | vmul | vmac | vmin | vmax | vdiv | vlsum | vcmp | vand | vor | vxor | vsel | vrsum | vrmax | vrmin | vrdot | vcvt | vld | vst =>
    obtain ⟨rfl, rfl, hm, ho, h⟩ := h
    have h0 := ne_zero_of_head hm ho (by decide)
    simp_all [HasField, decodeCoreWord, decodeVector, ifZero, -BitVec.getLsbD_eq_getElem]
  case vpopc | vperm | vsplat | vget =>
    obtain ⟨rfl, rfl, hm, ho, h⟩ := h
    simp only [hasField_zero_split (n := 16) 4 12 rfl, hasField_zero_split (n := 12) 4 8 rfl,
      hasField_zero_split (n := 8) 4 4 rfl] at h
    have h0 := ne_zero_of_head hm ho (by decide)
    simp_all [HasField, decodeCoreWord, decodeVector]
  case mma | taccTile | tld | tst | tlds | tsts | taccMem | tfence =>
    obtain ⟨rfl, rfl, hm, ho, h⟩ := h
    have h0 := ne_zero_of_head hm ho (by decide)
    simp_all [HasField, decodeCoreWord, decodeTile, ifZero, -BitVec.getLsbD_eq_getElem]
  case tzero =>
    obtain ⟨rfl, rfl, hm, ho, h⟩ := h
    simp only [hasField_zero_split (n := 6) 3 3 rfl] at h
    have h0 := ne_zero_of_head hm ho (by decide)
    simp_all [HasField, decodeCoreWord, decodeTile, ifZero, -BitVec.getLsbD_eq_getElem]
  case tupd | tlsum =>
    obtain ⟨rfl, rfl, hm, ho, h⟩ := h
    simp only [hasField_zero_three (lo := 8), hasField_one] at h
    have h0 := ne_zero_of_head hm ho (by decide)
    simp_all [HasField, decodeCoreWord, decodeTile, -BitVec.getLsbD_eq_getElem]

end

/-! ### Every core instruction has a word -/

theorem wordOf_isSome (cpu : Cpu) (t : Fin 4) (mj : BitVec 5) (o : BitVec 3) (rest : BitVec 24) :
    (wordOf cpu t mj o rest).isSome = true := rfl

theorem encodeAlu_isSome (cpu : Cpu) (t : Fin 4) (o : BitVec 3) (src : AluSrc) :
    (encodeAlu cpu t o src).isSome = true := by
  cases src <;> exact wordOf_isSome ..

end Sys2Proof.Machine

open Sys2Proof Sys2Proof.Machine

theorem coreInstructionsHaveWords : Claim.CoreInstructionsHaveWords := by
  simp only [Claim.CoreInstructionsHaveWords, encodeCoreWord, wordOf_isSome, encodeAlu_isSome, Option.isSome_some,
    implies_true, and_self]

/-- Settles O6: each part of the decoder reads exactly the fields that the encoder writes. -/
theorem wordsAndInstructions : Obligations.WordsAndInstructions :=
  ⟨fun _ _ _ _ => ⟨decode_of_encode, encode_of_decode⟩, coreInstructionsHaveWords⟩
end

section
/-! PROOFS. Routes loaded while a unit waits for the old port (O55): the unit finds no route and is counted. -/
namespace Sys2Proof.Machine

/-- The request of a ROUTE_LOAD in pigeonhole 1: the device keeps its number, and the entry of group 1, at 0x1004, becomes 0,
which names no port (R503, R514). -/
def emptyRouteRequest : List Byte := [0xFF, 0xFF, 1, 0, 0, 0, 0, 0, 0x04, 0x10, 0, 0, 0, 0, 0, 0]

/-- A unit of VC1 to device 0x80, of group 1. -/
def unitToGroup1 : FUnit :=
  { op := opWRITE, vc := 1, src := 0, dst := 0x80, eseq := 0, space := 0, unit := 0, pzn := false, data := 0 }

/-- Device 0 with port 3 ACTIVE and named by the entry of group 1, a unit for that group waiting at the port, and the command
of pigeonhole 1 taken and not begun. -/
def routeInUse : State :=
  { State.reset with
    dev := [(0x63004, 0x40000000), (0x70000, 0), (0x71004, 0x80000003)]
    mbx := memStore 4 (memStore 4 State.reset.mbx 0x1000 [0x62, 0]) 0x1040 emptyRouteRequest
    fab := { Fabric.reset with ports := [(3, { Port.reset with txq := [unitToGroup1] })] }
    so := { So.reset with busy := [⟨1, false, false, []⟩] } }

/-- E2E_CNT2 after a command, whose upper half UNREACH counts the units without a route (R437, R450); none if the command stops. -/
def e2eCnt2After (o : Host.Outcome State Fault Refusal) : Option Word :=
  match o with
  | .next s => some (devGet s 0x70018)
  | _ => none

theorem routeInUse_nothingDue : NothingDue routeInUse := by
  constructor <;> decide

theorem routeInUse_clean : CleanCaches routeInUse := by
  intro t ht p hp
  simp [routeInUse, So.reset] at ht
  subst ht
  simp at hp

/-- The unit that waited under the entry has no route once the entry is empty, and UNREACH counts it (R430, R437). -/
theorem routeLoad_counts_unrouted : e2eCnt2After (exec (.routeLoad 1) routeInUse) = some 0x10000 := by
  decide +kernel

end Sys2Proof.Machine
open Sys2Proof Sys2Proof.Machine

/-- Refutes O55: where the loaded entry names no port, a unit that waits at the old one has no route and UNREACH counts it, so
that ROUTE_LOAD changes E2E_CNT2 (0x70018), a register that the statement says it leaves. -/
theorem not_mailboxService : ¬ Obligations.MailboxService := by
  rintro ⟨hservice, -, -⟩
  obtain ⟨hroute, -⟩ := hservice routeInUse 1 routeInUse_nothingDue
  obtain ⟨-, -, -, hentry⟩ := hroute (by decide +kernel)
  obtain ⟨s', hexec, -, -, hframe⟩ :=
    hentry (by decide) (by decide) (by decide) (by decide) (by decide) rfl
      fun p hp => by
        obtain rfl : p = 3 := Option.some.inj (hp.symm.trans (by decide))
        decide
  have hkept : devGet s' 0x70018 = 0 := by
    rw [hframe routeInUse_clean 0x70018 (by decide) (by decide)]
    decide
  have hcount := routeLoad_counts_unrouted
  rw [hexec, e2eCnt2After, hkept] at hcount
  exact absurd hcount (by decide)
end

section
/-! PROOFS. The end of a stack's retirement (O42): the answer to HBM_RETIRE passes through the caches of the control cores, and
a dirty line that has to make room for it is written to memory. -/
namespace Sys2Proof.Machine

/-! ### A line makes room for another -/

/-- Where the L2 has one way for a line and that way holds a dirty line, the dirty line is written to memory (R484). -/
theorem fillL2_evicts {s : State} {id i : Nat} {d : Unit64} {b : Bool} {l : CLine} (hmiss : l2Find s id = none)
    (hways : l2Ways s id = [i]) (hold : l2Get s i = some l) (hdirty : l.dirty = true) :
    fillL2 s id d b =
      l2Put (writeLine { s with fresh := s.fresh + 1 } l.line l.data .plain) i (some ⟨id, d, b⟩) := by
  have hfull : (l2Get s i).isNone = false := by rw [hold]; rfl
  have hkeep : l2Get { s with fresh := s.fresh + 1 } i = some l := hold
  simp [fillL2, hmiss, hways, chooseWay, freshNat, hfull, hkeep, hdirty, Nat.mod_one]

/-- The state in which a line of the mailbox has been read from its SRAM. -/
def mailLineRead (s : State) (id : Nat) : State :=
  { s with mbx := (settleWords 4 s.mbx (wordsOf 4 (64 * (id - mbxLines)) 64)).mem }

/-- Its data. -/
def mailLineData (s : State) (id : Nat) : Unit64 := unitOf 4 (mailLineRead s id).mbx (64 * (id - mbxLines))

theorem memLine_mailbox {s : State} {k id : Nat} (hhi : ¬romLines ≤ id) (hlo : mbxLines ≤ id) :
    memLine s k id = .got (mailLineRead s id) (mailLineData s id) := by
  unfold memLine mailLineData mailLineRead
  rw [if_neg hhi, if_pos hlo]

/-- A line of the mailbox that was in no cache, once it is in the L2 and in the L1 of control core `k`. -/
def mailLineCached (s : State) (k id : Nat) : State :=
  fillL1 (fillL2 (mailLineRead s id) id (mailLineData s id) false) k id (mailLineData s id) false

theorem readCached_mailbox_miss {s : State} {k id : Nat} (hl1 : l1Find s k id = none)
    (hl2 : l2Find (cohere s k id false) id = none) (hhi : ¬romLines ≤ id) (hlo : mbxLines ≤ id) :
    readCached s k id =
      .got (mailLineCached (cohere s k id false) k id) (mailLineData (cohere s k id false) id) := by
  unfold readCached
  simp only [hl1, hl2, memLine_mailbox hhi hlo, mailLineCached]

/-- Firmware writes bytes within one line of the mailbox, which is then in no cache. -/
theorem mailWrite_one_line {s : State} {a id : Nat} {bs : List Byte} (hbs : bs.isEmpty = false)
    (hid : mbxLines + a / 64 = id) (hone : (a % 64 + bs.length + 63) / 64 = 1) {z : State}
    (hz : dropLines (barPut s a bs) id 1 = z) (hl1 : l1Find z mailCore id = none)
    (hl2 : l2Find (cohere z mailCore id false) id = none) (hhi : ¬romLines ≤ id) :
    mailWrite s a bs = mailLineCached (cohere z mailCore id false) mailCore id := by
  have hlo : mbxLines ≤ id := hid ▸ Nat.le_add_right ..
  have hread := readCached_mailbox_miss hl1 hl2 hhi hlo
  unfold mailWrite mailFetch fetchLines
  simp only [hbs, hid, hone, hz, upFrom, List.foldl, hread, Bool.false_eq_true, if_false]

/-! ### The last window -/

/-- Stack `k` is off, its last granule `j` having moved, and the command that asked for it has not been answered (R392). -/
def stackEmptied (s : State) (k j : Nat) : State :=
  let cfg := devGet s 0x40000
  let s := moveGranule (pauseBursts s k j) k j
  let s := devSet s 0x40000 (setBits cfg 30 (2 : BitVec 2))
  let s := devSet s (0x40100 + 4 * k) (devGet s (0x40100 + 4 * k) ||| 0x40000000)
  { timingEvent s 4 k with flash := { s.flash with retired := some k } }

theorem migrationWindow_last {s : State} {k j : Nat} (hcfg : bits (devGet s 0x40000) 30 2 = 1)
    (hk : (bits (devGet s 0x40000) 0 4).toNat = k) (hj : (bits (devGet s 0x40004) 0 24).toNat = j)
    (hdrained : (pauseBursts s k j).so.migPaused.any
      (fun c => (getCh (pauseBursts s k j) c).st == .pausing) = false) (hlast : ¬j + 1 < 8847360) :
    exec .migrationWindow s = .next (retireDone (stackEmptied s k j)) := by
  subst hk hj
  change execMigrationWindow s = _
  rw [execMigrationWindow, if_neg (not_not_intro hcfg), if_neg (by rw [hdrained]; decide), if_neg hlast, stackEmptied]

theorem retireDone_some {s : State} {h : BitVec 6} (hh : s.so.hbmHole = some h) :
    retireDone s = okHole { s with so := { s.so with hbmHole := none } } h [] := by
  rw [retireDone, hh]

/-! ### The state -/

/-- A line of shared SRAM, at 0x1000, whose first byte firmware has made 1 in the L2 and nowhere else. -/
def dirtySramLine : CLine := ⟨2 ^ 39 + 64, ⟨1, 0⟩, true⟩

/-- Device 0 before the window of the last granule of stack 0. HBM_RETIRE waits in pigeonhole 1, 15 ways of the L2 are locked,
and the last way of the set of the pigeonhole's header holds `dirtySramLine`. -/
def lastWindow : State :=
  { State.reset with
    dev := [(0x40000, 0x40000000), (0x40004, 8847359), (0x70000, 0)]
    soCsr := [(0x80, 15)]
    so := { So.reset with
      busy := [⟨1, false, true, []⟩], hbmHole := some 1, l2c := [(1039, some dirtySramLine)] } }

/-- What stands before the command is answered. -/
def lastMoved : State :=
  let s := stackEmptied lastWindow 0 8847359
  { s with so := { s.so with hbmHole := none } }

theorem lastWindow_exec : exec .migrationWindow lastWindow = .next (okHole lastMoved 1 []) := by
  rw [migrationWindow_last (s := lastWindow) (k := 0) (j := 8847359) (by decide +kernel) (by decide +kernel)
    (by decide +kernel) (by decide +kernel) (by decide),
    retireDone_some (h := 1) (by decide +kernel), lastMoved]

/-- The header's first write: RLEN, which drops the line from the caches and reads it back. -/
def lastHeader : State := dropLines (barPut lastMoved 0x100C [0, 0, 0, 0]) (mbxLines + 64) 1

/-- With RLEN written, the line of shared SRAM has left the L2 for its memory. -/
def lineEvicted : State :=
  let s := mailLineRead lastHeader (mbxLines + 64)
  let d := mailLineData lastHeader (mbxLines + 64)
  fillL1 (l2Put (writeLine { s with fresh := s.fresh + 1 } dirtySramLine.line dirtySramLine.data .plain) 1039
    (some ⟨mbxLines + 64, d, false⟩)) mailCore (mbxLines + 64) d false

theorem lastMoved_evicts : mailWrite lastMoved 0x100C [0, 0, 0, 0] = lineEvicted := by
  have hcohere : cohere lastHeader mailCore (mbxLines + 64) false = lastHeader := by decide +kernel
  rw [mailWrite_one_line (id := mbxLines + 64) (z := lastHeader) rfl (by decide +kernel) (by decide) rfl
    (by decide +kernel) (by rw [hcohere]; decide +kernel) (by decide +kernel), hcohere, mailLineCached,
    fillL2_evicts (i := 1039) (l := dirtySramLine) (by decide +kernel) (by decide +kernel) (by decide +kernel) rfl,
    lineEvicted]

/-- The answer of a command that has no response and raises no interrupt. -/
def answeredQuietly (s : State) (h : BitVec 6) (status : BitVec 16) (detail ticket : Word) : State :=
  let s := mailWrite s (holeBase h + 20) (leBytes 4 ticket.toNat ++ leBytes 4 detail.toNat)
  let s := mailWrite s (holeBase h + 16) (leBytes 2 status.toNat)
  { s with so := { s.so with busy := s.so.busy.filter (fun p => p.hole != h) } }

theorem completeHole_quiet {s : State} {h : BitVec 6} {b : Busy} {status : BitVec 16} {detail ticket : Word}
    (hb : s.so.busy.find? (fun p => p.hole == h) = some b) (hq : holeFlags s h % 2 ≠ 1) :
    completeHole s h status detail ticket [] =
      answeredQuietly (mailWrite s (holeBase h + 12) (leBytes 4 0)) h status detail ticket := by
  unfold completeHole
  simp only [hb, hq, false_and, if_false]
  rfl

/-- The byte at an offset of shared SRAM after a command, none if the command stops. -/
def sramAfter (o : Host.Outcome State Fault Refusal) (a : Nat) : Option Byte :=
  match o with
  | .next s => some (memByte s.sram a)
  | _ => none

/-- The window writes the byte that only the L2 held: its answer needs the way (R484). -/
theorem lastWindow_writes_sram : sramAfter (exec .migrationWindow lastWindow) 0x1000 = some 1 := by
  rw [lastWindow_exec, okHole, completeHole_quiet (b := ⟨1, false, true, []⟩) (by decide +kernel) (by decide +kernel)]
  have hfirst : mailWrite lastMoved (holeBase 1 + 12) (leBytes 4 0) = lineEvicted := lastMoved_evicts
  rw [hfirst]
  decide +kernel

end Sys2Proof.Machine
open Sys2Proof Sys2Proof.Machine

/-- Refutes O42: when the last granule has moved, the answer to HBM_RETIRE enters the L2, and a dirty line of shared SRAM that
has to make room for it is written back, so that a byte of shared SRAM changes. -/
theorem not_externalMemory : ¬ Obligations.ExternalMemory := by
  rintro ⟨-, hrefresh⟩
  obtain ⟨-, -, -, -, -, hmove⟩ := hrefresh lastWindow 0 (by decide)
  obtain ⟨s', hexec, -, hbytes, -⟩ := hmove (by decide +kernel) (by decide +kernel) (fun c hc => by cases hc)
  have hbyte : memByte s'.sram 0x1000 = memByte lastWindow.sram 0x1000 := hbytes.sram 0x1000
  have hwrite := lastWindow_writes_sram
  rw [hexec, sramAfter, hbyte] at hwrite
  exact absurd hwrite (by decide +kernel)
end
